-- ==== Sys2Proof/Word.lean ====
section
/-! DEFINITION. The plain word types of the LKZ-1024-A model (R7: a byte is 8 bits, a multi-byte field is little-endian). -/

namespace Sys2Proof

/-- A byte of a memory structure, a flit body or a letter (R7). -/
abbrev Byte := BitVec 8

/-- A 32-bit register word, as DIAG_READ returns it (R338). -/
abbrev Word := BitVec 32

/-- A 64-bit word: a clerk instruction (R209), a named counter (R412), a CRC-64 (R90). -/
abbrev Word64 := BitVec 64

end Sys2Proof
end

