-- ==== Sys2Proof/Syntax.lean ====
section
/-! DEFINITION. The commands of the block: one constructor of Instr for each row of spec/opcode_table.json, with the operands that the
row's rule names, and the plain data types those operands use. -/

namespace Sys2Proof

/-- The post boxes of R320. -/
inductive Box where
  | hb (b : Nat)
  | sb (b : Nat)
  | fm (b : Nat)
  | pm
  | ap (s : Nat)
  deriving DecidableEq, Repr

/-- Authority classes, lowest first (R321). -/
inductive Auth where
  | observer | member | manager | operator
  deriving DecidableEq, Repr

/-- GMI status codes (R331), in code order. -/
inductive Status where
  | ok | busyClaimed | drainRequired | notReady | refusedSignature | staleSequence | badArgument | notPermitted
  | skeleton | noHoldup | memberMissing | incomplete | overflowReturned | lateDiscard
  deriving DecidableEq, Repr

/-- What the post-box engine knows of an accepted command when it executes: the box, the sender's TAG and grid reference, the
class of authority granted (R321) and whether it was signed (R330). -/
structure Ctx where
  box : Box
  tag : Nat
  src : Nat
  auth : Auth
  signed : Bool
  deriving DecidableEq, Repr

/-- The envelope header of one command part (R322). `reservedZero` says that every reserved field holds 0. -/
structure Envelope where
  version : Nat
  auth : Auth
  signed : Bool
  opcode : Nat
  tag : Nat
  fragLen : Nat
  partIndex : Nat
  partCount : Nat
  bodyLen : Nat
  seq : Nat
  validUntil : Nat
  target : List Byte
  replyAddr : Nat
  reservedZero : Bool
  deriving DecidableEq, Repr

/-- The payload fields of a CHRON flit (R38). -/
structure Chron where
  tSend : Nat
  tSendFrac : Nat
  locked : Bool
  holdover : Bool
  isMaster : Bool
  rackTime : Bool
  timed : Bool
  seq : Nat
  rxEcho : Nat
  rxEchoFrac : Nat
  seqEcho : Nat
  gmRef : Nat
  gmPrio : Nat
  steps : Nat
  gmSeq : Nat
  senderRate : Int
  deriving DecidableEq, Repr

/-- The fields of a survey card (R109). -/
structure SurveyCard where
  cardVer : Nat
  kind : Nat
  vendor : Nat
  part : Nat
  position : Nat
  portKind : Nat
  linkIndex : Nat
  width : Nat
  xyzValid : Bool
  admitReq : Bool
  skeleton : Bool
  gridRef : Nat
  merState : Nat
  cardSeq : Nat
  idDigest : List Byte
  replayFlits : Nat
  deriving DecidableEq, Repr

/-- A certificate of R346. -/
structure Cert where
  certVer : Nat
  kind : Nat
  signCerts : Bool
  signFw : Bool
  admitOk : Bool
  reservedZero : Bool
  vendor : Nat
  part : Nat
  serial : Nat
  subjectDigest : List Byte
  issuerDigest : List Byte
  pubExp : Nat
  modulus : List Byte
  signature : List Byte
  bytes : List Byte
  deriving DecidableEq, Repr

/-- The roll record of R303, as a ROLL flit or a sideband roll frame carries it. -/
structure RollRecord where
  kind : Nat
  postmasterAbsent : Bool
  skeleton : Bool
  standingOrders : Bool
  lead : Bool
  leaving : Bool
  err : Bool
  ladder : Nat
  roundLo : Nat
  src : Nat
  leadEpoch : Nat
  deriving DecidableEq, Repr

/-- The TRAY_CAP payload (R308). TERM is 0 RACK, 1 FABRIC, 2 HOST. -/
structure TrayCap where
  scope : Nat
  index : Nat
  permille : Nat
  term : Nat
  atRound : Nat
  tag : Nat
  deriving DecidableEq, Repr

/-- The fields of a clerk instruction other than OP (R209). -/
structure ClerkOp where
  vd : Nat
  va : Nat
  vb : Nat
  vc : Nat
  fmt : Nat
  rnd : Nat
  inc : Bool
  an : Nat
  mreg : Nat
  masked : Bool
  imm : Nat
  deriving DecidableEq, Repr

/-- The common 8-byte header of a table read or write (R336). -/
structure TableHdr where
  first : Nat
  count : Nat
  select : Nat
  bank : Nat
  table : Nat
  reservedZero : Bool
  deriving DecidableEq, Repr

/-- A Plot table entry as staged (R187). -/
structure PlotEntry where
  valid : Bool
  rackMask : BitVec 128
  slotMask : BitVec 128
  deriving DecidableEq, Repr

/-- A slot-map entry (R159). -/
structure SlotEntry where
  valid : Bool
  source : Nat
  route : Nat
  deriving DecidableEq, Repr

/-- A Copy desk session record (R163). -/
structure CopySession where
  enable : Bool
  kind : Nat
  destRing : Bool
  trunc : Bool
  port : Nat
  sampleK : Nat
  mport : Nat
  flowSrc : BitVec 24
  flowSrcMask : BitVec 24
  flowDest : BitVec 24
  flowDestMask : BitVec 24
  flowPlot : Nat
  flowClass : Nat
  matchPlot : Bool
  matchClass : Bool
  reservedZero : Bool
  deriving DecidableEq, Repr

/-- A second-tier window record (R276). -/
structure WindowRec where
  base : Nat
  sizeGib : Nat
  enable : Bool
  reservedZero : Bool
  deriving DecidableEq, Repr

/-- A group record (R242). -/
structure GroupRec where
  group : Nat
  operator : Nat
  redop : Nat
  partialPolicy : Bool
  resid : Bool
  fmtIn : Nat
  fmtOut : Nat
  rnd : Nat
  rank : Nat
  plot : Nat
  share : Nat
  hostMask : BitVec 16
  x0 : Nat
  nxM1 : Nat
  y0 : Nat
  nyM1 : Nat
  z0 : Nat
  nzM1 : Nat
  lateThreshold : Nat
  stepTimeout : Nat
  stepBytes : Nat
  routeLinks : BitVec 16
  routeSlots : Nat
  progId : Nat
  paramA : Nat
  paramB : Nat
  root : Nat
  groupSeed : BitVec 64
  memberMask : BitVec 128
  /-- Byte offsets of the reserved fields that are not 0. -/
  reservedAt : List Nat
  deriving DecidableEq, Repr

/-- A member table entry (R243). -/
structure MemberEntry where
  resultBase : Nat
  noticeBase : Nat
  /-- Byte offsets in the entry of the reserved fields that are not 0. -/
  reservedAt : List Nat
  deriving DecidableEq, Repr

/-- A phase entry of an operator program (R234). -/
structure Phase where
  entry : Nat
  bundles : Nat
  inOff : Nat
  inStride : Nat
  inSize : Nat
  outOff : Nat
  outStride : Nat
  outSize : Nat
  s0 : BitVec 32
  s1 : BitVec 32
  s2 : BitVec 32
  s3 : BitVec 32
  deriving DecidableEq, Repr

/-- An operator program image (R234): header, phases and 64-bit instructions. -/
structure Program where
  progId : Nat
  slot : Nat
  span : Nat
  version : Nat
  phases : List Phase
  code : List Word64
  reservedZero : Bool
  deriving DecidableEq, Repr

/-- A ramp schedule entry (R401). 0xFFFF in a permille field means unchanged. -/
structure RampEntry where
  atRound : Nat
  modPermille : Nat
  accPermille : Nat
  modRate : Nat
  accRate : Nat
  reservedZero : Bool
  deriving DecidableEq, Repr

/-- The TELE_CFG body (R428). -/
structure TeleCfg where
  contourEn : Bool
  snapEn : Bool
  fillMark : Nat
  snapPeriod : Nat
  contourDest : Nat
  contourBase : Nat
  snapIds : List Nat
  reservedZero : Bool
  deriving DecidableEq, Repr

/-- One point of an Echo measurement (R80–R82): the round-trip time in ps, REFL in 0.1 dB, LOSS in 0.01 dB, and whether the return falls to the
floor after it. -/
structure EchoEvent where
  tPs : Nat
  refl : Int
  loss : Nat
  last : Bool
  deriving DecidableEq, Repr

/-- An admission anchor (R362, KIND 1). -/
structure Anchor where
  kind : Nat
  pubExp : Nat
  modulus : List Byte
  deriving DecidableEq, Repr

/-- A section of a firmware image header (R350). -/
structure FwSection where
  type : Nat
  offset : Nat
  length : Nat
  reservedZero : Bool
  deriving DecidableEq, Repr

/-- The four classes of a claim on a shared resource (R435), highest first. -/
inductive ClaimClass where
  | protection | dataService | diagnostics | capture
  deriving DecidableEq, Repr

/-- The users of GDDR7 of the parity table (R282). -/
inductive MemUser where
  | letterSpill (letter : Nat)
  | mailbagSpill (group : Nat)
  | captureRing (record : Nat)
  | diagnosticsRead
  deriving DecidableEq, Repr

/-- Where a datapath word was found to fail parity (R149): before or at the buffer write, at the buffer read, or after it. `again` says
that the second read of the buffer fails too. -/
inductive ParityPoint where
  | write
  | read (again : Bool)
  | after (again : Bool)
  deriving DecidableEq, Repr

/-- A command of the block: one constructor for each row of spec/opcode_table.json, in the order of the table; each docstring names the
row and its rule. -/
inductive Instr where
  /-- ROUND_BOUNDARY (R50). -/
  | roundBoundary (avgInputW predictedW : Nat)
  /-- KEEPER_RELOAD (R35). -/
  | keeperReload
  /-- CHRON_RECEIVE (R39). -/
  | chronReceive (p : Nat) (c : Chron) (lagNs lagFrac : Nat)
  /-- MERIDIAN_STEP (R42). -/
  | meridianStep
  /-- PARENT_LOST (R46). -/
  | parentLost
  /-- GRANDMASTER_LOST (R46). -/
  | grandmasterLost
  /-- ELECTION_START_FREE (R472). -/
  | electionStartFree
  /-- ELECTION_WINDOW_CLOSE (R472). -/
  | electionWindowClose
  /-- HOLDOVER_EXPIRY (R47). -/
  | holdoverExpiry
  /-- RACK_TIME_TAKEOVER (R44). -/
  | rackTimeTakeover
  /-- RACK_TIME_RELEASE (R44). -/
  | rackTimeRelease
  /-- BANK_SWITCH (R200). -/
  | bankSwitch
  /-- STAGING_BANK_EXPIRY (R333). -/
  | stagingBankExpiry
  /-- SNAPSHOT_TAKE (R416). -/
  | snapshotTake
  /-- STANDING_ORDERS_ENTER (R314). -/
  | standingOrdersEnter
  /-- STANDING_ORDERS_EXIT (R316). -/
  | standingOrdersExit
  /-- LASER_WAVELENGTH_LOW (R59). -/
  | laserWavelengthLow (tile fibre w : Nat) (pwr : Int)
  /-- LASER_SELECT (R61). -/
  | laserSelect (c : Ctx) (tile fibre : Nat)
  /-- RING_UNLOCK (R70). -/
  | ringUnlock (lane : Nat)
  /-- RING_SEARCH (R70). -/
  | ringSearch (lane heater : Nat) (found : Bool)
  /-- LOS_ASSERT (R63). -/
  | losAssert (lane : Nat) (pwr : Int)
  /-- LOS_DEASSERT (R63). -/
  | losDeassert (lane : Nat) (pwr : Int)
  /-- ADAPT_FREEZE_END (R69). -/
  | adaptFreezeEnd (lane cause : Nat) (reading : Int := 0)
  /-- PRBS_GEN_START (R76). -/
  | prbsGenStart (c : Ctx) (lane pattern seed duration : Nat)
  /-- PRBS_CHECK_START (R77). -/
  | prbsCheckStart (c : Ctx) (lane pattern duration : Nat)
  /-- PRBS_CLEAR (R78). -/
  | prbsClear (c : Ctx) (lane : Nat)
  /-- PRBS_CHK_LOCK (R77), with the symbols received since the last command that brought any. -/
  | prbsChkLock (lane : Nat) (received : List Nat := [])
  /-- PRBS_CHK_LOCK_LOST (R77): the symbols `first` were received, then `free` symbols free of error, then the symbols `last`. -/
  | prbsChkLockLost (lane : Nat) (first : List Nat) (free : Nat) (last : List Nat)
  /-- PRBS_DURATION_END (R74). -/
  | prbsDurationEnd (lane : Nat) (first : List Nat) (free : Nat) (last : List Nat)
  /-- ECHO_START (R79). -/
  | echoStart (c : Ctx) (tile corr portK laneJ startCm : Nat)
  /-- ECHO_DONE (R82). -/
  | echoDone (tile corr : Nat) (events : List EchoEvent)
  /-- FLIT_RECEIVE (R93). -/
  | flitReceive (p : Nat) (levels : List Byte)
  /-- NAK_REPEAT (R96). -/
  | nakRepeat (p : Nat)
  /-- ACK_SEND (R95). -/
  | ackSend (p : Nat)
  /-- ACK_RECEIVE (R97). -/
  | ackReceive (p ackSeq : Nat)
  /-- NAK_RECEIVE (R97). -/
  | nakReceive (p ackSeq reason : Nat)
  /-- REPLAY_TIMEOUT (R97). -/
  | replayTimeout (p : Nat)
  /-- CREDIT_RECEIVE (R102). -/
  | creditReceive (p : Nat) (ded : List Nat) (shr : Nat) (init : Bool)
  /-- CREDIT_SEND (R102). -/
  | creditSend (p : Nat)
  /-- FLIT_TRANSMIT (R155). -/
  | flitTransmit (p : Nat)
  /-- TRAINING_START (R104). -/
  | trainingStart (p : Nat)
  /-- TS1_END (R104). -/
  | ts1End (p : Nat) (ready : BitVec 4) (ctle : Nat) (delay256 : Nat)
  /-- TS2_END (R104). -/
  | ts2End (p : Nat) (peerLanesOk precodeReq : BitVec 4)
  /-- LINK_UP (R104). -/
  | linkUp (p : Nat)
  /-- TRAINING_RETRY (R104). -/
  | trainingRetry (p : Nat)
  /-- LINK_DOWN (R103). -/
  | linkDown (p : Nat)
  /-- LANE_LOSS (R105). -/
  | laneLoss (lane : Nat) (cdr : Bool := false)
  /-- RESHAPE_MARKER (R106). -/
  | reshapeMarker (p : Nat) (words : List Nat)
  /-- LINK_NARROWED (R106). -/
  | linkNarrowed (p : Nat) (peerLanesOk : BitVec 4) (req : BitVec 4 := 0)
  /-- LANE_RELEASE (R108). -/
  | laneRelease (c : Ctx) (p j : Nat)
  /-- LANE_RETURN (R108). -/
  | laneReturn (c : Ctx) (p j : Nat)
  /-- LANE_REJOIN (R108). -/
  | laneRejoin (p j : Nat)
  /-- LANE_RETURN_TIMEOUT (R108). -/
  | laneReturnTimeout (p j : Nat)
  /-- LANE_REJOIN_AUTO (R108). -/
  | laneRejoinAuto (p j : Nat)
  /-- SURVEY_SEND (R109). -/
  | surveySend (p : Nat)
  /-- SURVEY_RECEIVE (R110). -/
  | surveyReceive (p : Nat) (card : SurveyCard)
  /-- SURVEY_NO_CARD (R111). -/
  | surveyNoCard (p : Nat)
  /-- ADMIT_HELLO (R112). -/
  | admitHello (p : Nat) (chain : List Cert) (r : List Byte) (bytes : List Byte)
  /-- ADMIT_KEY (R112). -/
  | admitKey (p : Nat) (cipher sig : List Byte)
  /-- ADMIT_FINISH (R112). -/
  | admitFinish (p : Nat) (content : List Byte) (tag : Nat)
  /-- ADMIT_ABORT (R116). -/
  | admitAbort (p : Nat)
  /-- ADMIT_STEP_TIMEOUT (R112). -/
  | admitStepTimeout (p : Nat)
  /-- ADMIT_RETRY (R111). -/
  | admitRetry (p : Nat)
  /-- ADMIT_REQ_RESTORE (R116). -/
  | admitReqRestore (p : Nat)
  /-- REKEY_START (R114). -/
  | rekeyStart (p : Nat)
  /-- REKEY_RECEIVE (R114). -/
  | rekeyReceive (p : Nat) (nI : List Byte)
  /-- REKEY_ACK_RECEIVE (R114). -/
  | rekeyAckReceive (p : Nat) (nR : List Byte)
  /-- OLD_KEY_ERASE (R114). -/
  | oldKeyErase (p : Nat)
  /-- REKEY_TIMEOUT (R114). -/
  | rekeyTimeout (p : Nat)
  /-- INGRESS_HEAD (R143). -/
  | ingressHead (p vc : Nat) (shared : Bool) (payload : List Byte)
  /-- LETTER_FLIT_RECEIVE (R129). -/
  | letterFlitReceive (p vc ftype : Nat) (shared : Bool) (payload : List Byte)
  /-- DISPATCHER_MATCH (R153). -/
  | dispatcherMatch (slot : Nat) (wrongA wrongB wrongC : Bool) (parity : Option (Nat × ParityPoint)) (lost : List (Nat × Nat) := [])
  /-- DISPATCH_CHANNEL_RETIRE (R154). -/
  | dispatchChannelRetire (c : Nat)
  /-- DISPATCH_CHANNEL_REJOIN (R154). -/
  | dispatchChannelRejoin (c : Nat)
  /-- ROUTE_RETURN (R162). -/
  | routeReturn (port route : Nat)
  /-- COPY_CREDIT_TIMEOUT (R166). -/
  | copyCreditTimeout (letter session : Nat)
  /-- VC7_STALE (R186). -/
  | vc7Stale (letter port : Nat)
  /-- SLOW_NOTICE_TIMEOUT (R197). -/
  | slowNoticeTimeout (notice : Nat)
  /-- SLOW_POST_RECEIVE (R198). -/
  | slowPostReceive (reason : Nat) (payload : List Byte)
  /-- REORDER_ARRIVAL (R194). -/
  | reorderArrival (letter : Nat)
  /-- REORDER_CONTEXT_SET (R193). -/
  | reorderContextSet (h key : Nat)
  /-- GAP_TIMEOUT (R195). -/
  | gapTimeout (h key : Nat)
  /-- CLERK_NOP (R210). -/
  | clerkNop (k : Nat) (i : ClerkOp) (parity : Nat := 0)
  /-- LD (R210). -/
  | ld (k : Nat) (i : ClerkOp) (parity : Nat)
  /-- ST (R210). -/
  | st (k : Nat) (i : ClerkOp) (parity : Nat)
  /-- VACC (R210). -/
  | vacc (k : Nat) (i : ClerkOp) (parity : Nat)
  /-- VACCC (R221). -/
  | vaccc (k : Nat) (i : ClerkOp) (parity : Nat)
  /-- VADD (R210). -/
  | vadd (k : Nat) (i : ClerkOp) (parity : Nat := 0)
  /-- VSUB (R210). -/
  | vsub (k : Nat) (i : ClerkOp) (parity : Nat := 0)
  /-- VMUL (R210). -/
  | vmul (k : Nat) (i : ClerkOp) (parity : Nat := 0)
  /-- VFMA (R210). -/
  | vfma (k : Nat) (i : ClerkOp) (parity : Nat := 0)
  /-- VMAX (R210). -/
  | vmax (k : Nat) (i : ClerkOp) (parity : Nat := 0)
  /-- VMIN (R210). -/
  | vmin (k : Nat) (i : ClerkOp) (parity : Nat := 0)
  /-- VABS (R210). -/
  | vabs (k : Nat) (i : ClerkOp) (parity : Nat := 0)
  /-- VSCL (R210). -/
  | vscl (k : Nat) (i : ClerkOp) (parity : Nat := 0)
  /-- VCMP (R210). -/
  | vcmp (k : Nat) (i : ClerkOp) (parity : Nat := 0)
  /-- VSEL (R210). -/
  | vsel (k : Nat) (i : ClerkOp) (parity : Nat := 0)
  /-- VPRE (R210). -/
  | vpre (k : Nat) (i : ClerkOp) (parity : Nat := 0)
  /-- VMRG (R210). -/
  | vmrg (k : Nat) (i : ClerkOp) (parity : Nat := 0)
  /-- VGTH (R210). -/
  | vgth (k : Nat) (i : ClerkOp) (parity : Nat)
  /-- VSCT (R210). -/
  | vsct (k : Nat) (i : ClerkOp) (parity : Nat)
  /-- VPBF (R210). -/
  | vpbf (k : Nat) (i : ClerkOp) (parity : Nat := 0)
  /-- SETS (R210). -/
  | sets (k : Nat) (i : ClerkOp) (parity : Nat := 0)
  /-- ADDA (R210). -/
  | adda (k : Nat) (i : ClerkOp) (parity : Nat := 0)
  /-- LOOP (R210). -/
  | loop (k : Nat) (i : ClerkOp) (parity : Nat := 0)
  /-- ENDL (R210). -/
  | endl (k : Nat) (i : ClerkOp) (parity : Nat := 0)
  /-- PRESS (R210). -/
  | press (k : Nat) (i : ClerkOp) (parity : Nat)
  /-- PWAIT (R210). -/
  | pwait (k : Nat) (i : ClerkOp) (parity : Nat := 0)
  /-- DONE (R213). -/
  | done (k : Nat) (i : ClerkOp) (parity : Nat := 0)
  /-- BUNDLE_LIMIT (R215). -/
  | bundleLimit (k : Nat)
  /-- SEQUENCER_PLACE (R216). -/
  | sequencerPlace (o : Nat)
  /-- BUNDLE_TAKE (R216). -/
  | bundleTake (k parity : Nat)
  /-- BUNDLE_STEAL (R217). -/
  | bundleSteal (k : Nat) (missed : Bool := false) (parity : Nat := 0)
  /-- PRESS_GEMM8 (R227). -/
  | pressGemm8 (o : Nat)
  /-- PRESS_GEMM16 (R227). -/
  | pressGemm16 (o : Nat)
  /-- PRESS_FOLD (R230). -/
  | pressFold (o : Nat)
  /-- PRESS_UNFOLD (R230). -/
  | pressUnfold (o : Nat)
  /-- PRESS_QUANT (R226). -/
  | pressQuant (o : Nat)
  /-- PRESS_DUMMY (R229). -/
  | pressDummy (o cycles : Nat)
  /-- PRESS_JOB_DONE (R229). -/
  | pressJobDone (o : Nat) (parity : Nat := 0)
  /-- STEP_LAUNCH (R252). -/
  | stepLaunch (e : Nat)
  /-- STEP_TIMEOUT (R261). -/
  | stepTimeout (e : Nat)
  /-- STEP_END (R252). -/
  | stepEnd (e : Nat)
  /-- MEMBER_CLOSE_COMMIT (R334). -/
  | memberCloseCommit (group : Nat)
  /-- CXL_PERST_ASSERT (R269). -/
  | cxlPerstAssert
  /-- CXL_PERST_DEASSERT (R269). -/
  | cxlPerstDeassert
  /-- CXL_LINK_UP (R267). -/
  | cxlLinkUp (mode : Nat)
  /-- CXL_LINK_DOWN (R277). -/
  | cxlLinkDown
  /-- HOST_WINDOW_WRITE (R271). -/
  | hostWindowWrite (offset : Nat) (data : List Byte)
  /-- HB_DOORBELL (R327). -/
  | hbDoorbell (b value : Nat)
  /-- UIO_COMPLETION (R278). -/
  | uioCompletion (req : Nat) (error : Bool)
  /-- UIO_TIMEOUT (R277). -/
  | uioTimeout (req : Nat)
  /-- GDDR7_PARITY_FAIL (R282). -/
  | gddr7ParityFail (half : Nat) (user : MemUser) (again : Bool)
  /-- VOTER_DISAGREE (R290). -/
  | voterDisagree (differs : Nat)
  /-- CHANNEL_FAULT_LOCATED (R291). -/
  | channelFaultLocated (ch : Nat)
  /-- DUPLEX_DIAGNOSIS_DONE (R292). -/
  | duplexDiagnosisDone (failed : List Nat)
  /-- REINTEGRATE_START (R295). -/
  | reintegrateStart (ch : Nat)
  /-- REINTEGRATE_SELFTEST_DONE (R295). -/
  | reintegrateSelftestDone (ch : Nat) (pass : Bool)
  /-- REINTEGRATE_COPY_DONE (R295). -/
  | reintegrateCopyDone (ch : Nat)
  /-- REINTEGRATE_REJOIN (R295). -/
  | reintegrateRejoin (ch : Nat)
  /-- ALIVE_WRITE (R296). -/
  | aliveWrite
  /-- WATCHDOG_EXPIRY (R296). -/
  | watchdogExpiry
  /-- POSTMASTER_RESTART (R297). -/
  | postmasterRestart
  /-- POSTMASTER_RESTART_DONE (R297). -/
  | postmasterRestartDone
  /-- CORE_SIG (R299). -/
  | coreSig (wrong : List Nat)
  /-- RAM_SCRUB (R299). -/
  | ramScrub (doubleBit : List Nat) (singleBit : Nat := 0)
  /-- VOTER_CHECK (R299). -/
  | voterCheck (masked : Bool)
  /-- ROLL_CHECK (R299). -/
  | rollCheck (ok : Bool)
  /-- HEALTH_SEND (R301). -/
  | healthSend
  /-- ROLL_RECEIVE (R306). -/
  | rollReceive (p : Nat) (r : RollRecord)
  /-- ROLL_WINDOW_EVAL (R305). -/
  | rollWindowEval (p : Nat)
  /-- ROLL_FRAME_SEND (R307). -/
  | rollFrameSend
  /-- ALIVE_FRAME_SEND (R307). -/
  | aliveFrameSend
  /-- HEALTH_LETTER_RECEIVE (R308). -/
  | healthLetterReceive (report : List Byte)
  /-- TRAY_STEP_RECEIVE (R310). -/
  | trayStepReceive (round : Nat) (inDigest outDigest ownIn ownOut : List Byte)
  /-- ACC_NOTE_RECEIVE (R308). -/
  | accNoteReceive (slot : Nat) (note : List Byte)
  /-- TRAY_CAP_RECEIVE (R394). -/
  | trayCapReceive (r : TrayCap)
  /-- TRAY_CAP_ACK_RECEIVE (R394). -/
  | trayCapAckReceive (r : TrayCap) (status : Status)
  /-- TRAY_CAP_RESEND (R394). -/
  | trayCapResend (tag : Nat)
  /-- STANDBY_STATE_COPY (R310). -/
  | standbyStateCopy (state : List Byte)
  /-- ACC_ERR_ASSERT (R311). -/
  | accErrAssert (i : Nat) (asserted : Bool := true)
  /-- ACC_BACK (R311). -/
  | accBack (i : Nat)
  /-- TRAY_HB_EDGE (R312). -/
  | trayHbEdge
  /-- TRAY_PATH_SILENT (R312). -/
  | trayPathSilent (path : Nat)
  /-- PARTNER_LOST (R312). -/
  | partnerLost
  /-- LEAD_TAKEOVER (R312). -/
  | leadTakeover
  /-- LEAD_ABSENT_TIMEOUT (R312). -/
  | leadAbsentTimeout
  /-- TIMER_CLAIM (R317). -/
  | timerClaim (cls : ClaimClass) (rounds : Nat)
  /-- TIMER_EXPIRY (R317). -/
  | timerExpiry (t : Nat)
  /-- PART_ARRIVAL (R323). -/
  | partArrival (b : Box) (e : Envelope) (frag sig : List Byte) (src cls plot groupOp : Nat)
  /-- ASSEMBLY_TIMEOUT (R323). -/
  | assemblyTimeout (b : Box)
  /-- NOP (R337). -/
  | nop (c : Ctx)
  /-- IDENTITY_READ (R337). -/
  | identityRead (c : Ctx)
  /-- STATUS_READ (R337). -/
  | statusRead (c : Ctx)
  /-- HEALTH_READ (R301). -/
  | healthRead (c : Ctx) (what slot : Nat)
  /-- EVENT_READ (R340). -/
  | eventRead (c : Ctx) (fromSeq count : Nat)
  /-- ALERT_ACK (R342). -/
  | alertAck (c : Ctx) (code : Nat)
  /-- TRAY_STATE_READ (R337). -/
  | trayStateRead (c : Ctx) (offset length : Nat)
  /-- RESTART (R296). -/
  | restart (c : Ctx)
  /-- STAGE_REG (R339). -/
  | stageReg (c : Ctx) (block offset : Nat) (value mask : Word)
  /-- STAGE_READ (R337). -/
  | stageRead (c : Ctx) (block offset count : Nat)
  /-- COMMIT (R335). -/
  | commit (c : Ctx) (atRound : Nat) (probeOk : Bool)
  /-- COMMIT_FORCE (R203). -/
  | commitForce (c : Ctx) (atRound : Nat) (probeOk : Bool)
  /-- DISCARD (R335). -/
  | discard (c : Ctx)
  /-- STAGE_STATUS (R337). -/
  | stageStatus (c : Ctx)
  /-- GRID_ASSIGN (R475). -/
  | gridAssign (c : Ctx) (body : List Nat)
  /-- GRID_ASSIGN_EFFECT (R475). -/
  | gridAssignEffect
  /-- RACK_WRITE (R336). -/
  | rackWrite (c : Ctx) (h : TableHdr) (entries : List (BitVec 16))
  /-- SPRAY_WRITE (R336). -/
  | sprayWrite (c : Ctx) (h : TableHdr) (weights : List (BitVec 8))
  /-- MASK_WRITE (R336). -/
  | maskWrite (c : Ctx) (h : TableHdr) (masks : List (BitVec 128))
  /-- ATLAS_READ (R336). -/
  | atlasRead (c : Ctx) (h : TableHdr)
  /-- PLOT_WRITE (R336). -/
  | plotWrite (c : Ctx) (h : TableHdr) (entries : List (PlotEntry × Bool))
  /-- PLOT_READ (R336). -/
  | plotRead (c : Ctx) (h : TableHdr)
  /-- SLOTMAP_WRITE (R160). -/
  | slotmapWrite (c : Ctx) (h : TableHdr) (entries : List SlotEntry)
  /-- SLOTMAP_READ (R336). -/
  | slotmapRead (c : Ctx) (h : TableHdr)
  /-- COPY_WRITE (R163). -/
  | copyWrite (c : Ctx) (h : TableHdr) (sessions : List CopySession)
  /-- COPY_READ (R336). -/
  | copyRead (c : Ctx) (h : TableHdr)
  /-- WINDOW_WRITE (R276). -/
  | windowWrite (c : Ctx) (h : TableHdr) (windows : List WindowRec)
  /-- GROUP_OPEN (R244). -/
  | groupOpen (c : Ctx) (g : GroupRec) (members : List MemberEntry)
  /-- GROUP_CLOSE (R247). -/
  | groupClose (c : Ctx) (group : Nat)
  /-- GROUP_MEMBER (R243). -/
  | groupMember (c : Ctx) (group : Nat) (e : MemberEntry)
  /-- GROUP_READ (R337). -/
  | groupRead (c : Ctx) (group : Nat)
  /-- PROG_LOAD (R235). -/
  | progLoad (c : Ctx) (p : Program)
  /-- PROG_UNLOAD (R236). -/
  | progUnload (c : Ctx) (slot : Nat)
  /-- CAP_SET (R394). -/
  | capSet (c : Ctx) (scope index permille atRound : Nat) (reservedZero : Bool)
  /-- CAP_READ (R400); `badMode`: its MODE is neither 0 nor 1. -/
  | capRead (c : Ctx) (badMode : Bool := false)
  /-- CAP_READ_ACK (R400). -/
  | capReadAck (c : Ctx) (ackSeq ackEpoch drawW : Nat)
  /-- RAMP_POST (R402). -/
  | rampPost (c : Ctx) (schedId : Nat) (entries : List RampEntry)
  /-- RAMP_CANCEL (R404). -/
  | rampCancel (c : Ctx) (schedId : Nat)
  /-- LADDER_SET (R408). -/
  | ladderSet (c : Ctx) (target atRound : Nat)
  /-- POWER_READ (R409). -/
  | powerRead (c : Ctx)
  /-- TELE_CFG (R428). -/
  | teleCfg (c : Ctx) (t : TeleCfg)
  /-- CONTOUR_READ (R420). -/
  | contourRead (c : Ctx) (which : Nat)
  /-- COUNTER_READ (R415). -/
  | counterRead (c : Ctx) (first count mode : Nat)
  /-- COUNTER_READ_ARM (R416). -/
  | counterReadArm (c : Ctx) (first count atRound : Nat)
  /-- DETAIL_START (R422). -/
  | detailStart (c : Ctx) (port duration : Nat)
  /-- DETAIL_STOP (R422). -/
  | detailStop (c : Ctx) (engine : Nat)
  /-- SAMPLE_CFG (R425). -/
  | sampleCfg (c : Ctx) (mode event : Nat) (offices : BitVec 8) (toCapture : Bool) (period : Nat)
  /-- DIAG_READ (R338). -/
  | diagRead (c : Ctx) (block offset count : Nat)
  /-- DIAG_WRITE (R339). -/
  | diagWrite (c : Ctx) (block offset : Nat) (value mask : Word)
  /-- PORT_TEST_CLAIM (R168). -/
  | portTestClaim (c : Ctx) (k : Nat)
  /-- PORT_TEST_RELEASE (R168). -/
  | portTestRelease (c : Ctx) (k : Nat)
  /-- MEM_TEST (R285). -/
  | memTest (c : Ctx) (half : Nat) (whole : Bool) (lo len : Nat)
  /-- MEM_READ (R282). -/
  | memRead (c : Ctx) (half offset length : Nat)
  /-- FW_WRITE (R351). -/
  | fwWrite (c : Ctx) (offset : Nat) (data : List Byte)
  /-- FW_VERIFY (R355). -/
  | fwVerify (c : Ctx)
  /-- FW_ACTIVATE (R354). -/
  | fwActivate (c : Ctx)
  /-- ATTEST (R360). -/
  | attest (c : Ctx) (nonce : List Byte) (mask : BitVec 16)
  /-- CERT_READ (R359). -/
  | certRead (c : Ctx) (which offset length : Nat)
  /-- LEDGER_READ (R359). -/
  | ledgerRead (c : Ctx) (what first count : Nat)
  /-- AUTHORITY_ENROL_KEY (R362). -/
  | authorityEnrolKey (c : Ctx) (pubExp : Nat) (modulus : List Byte) (seqStart : Nat) (badKind : Bool := false)
  /-- AUTHORITY_ENROL_ANCHORS (R362). -/
  | authorityEnrolAnchors (c : Ctx) (anchors : List Anchor) (badKind : Bool := false)
  /-- AUTHORITY_ENROL_REVOCATION (R362). -/
  | authorityEnrolRevocation (c : Ctx) (digests : List (List Byte)) (badKind : Bool := false)
  /-- MANAGER_SET (R321). -/
  | managerSet (c : Ctx) (refs : List Nat)
  /-- LINK_REVOKE (R363). -/
  | linkRevoke (c : Ctx) (digest : List Byte)
  /-- JOURNAL_READ (R464). -/
  | journalRead (c : Ctx) (offset length : Nat)
  /-- BLACKBOX_READ (R464). -/
  | blackboxRead (c : Ctx) (offset length : Nat)
  /-- BOOT_CHAIN (R349). -/
  | bootChain (katOk pufOk romAgree : Bool) (romMasked : Bool)
  /-- BOOT_COMPLETE (R349). -/
  | bootComplete (partnerShowsLead : Bool)
  /-- TRIAL_CONFIRM (R352). -/
  | trialConfirm
  /-- FUSE_BURN_RETRY (R356). -/
  | fuseBurnRetry
  /-- SEAL_KAT_CHECK (R366). -/
  | sealKatCheck (pass : Bool)
  /-- SEAL_CODE_CHECK (R366). -/
  | sealCodeCheck (differs : List Nat)
  /-- SEAL_PROGRAM_CHECK (R366). -/
  | sealProgramCheck (hashes : List (List Byte))
  /-- JTAG_INSTRUCTION_LOAD (R367). -/
  | jtagInstructionLoad (harmless : Bool)
  /-- TRST_N_ASSERT (R381). -/
  | trstNAssert
  /-- CLOCK_EDGE_LOSS (R372). -/
  | clockEdgeLoss (src : Nat)
  /-- CLOCK_MONITOR_WINDOW (R373). -/
  | clockMonitorWindow (counts : List Nat)
  /-- CLOCK_SRC_READY (R374). -/
  | clockSrcReady (src : Nat)
  /-- CRYSTAL_AMPLITUDE_OK (R370). -/
  | crystalAmplitudeOk
  /-- CRYSTAL_START_FAIL (R370). -/
  | crystalStartFail
  /-- CLK_SEL_CORE (R378). -/
  | clkSelCore (c : Ctx) (target : Nat)
  /-- CLK_SEL_XTAL_DOMAIN (R378). -/
  | clkSelXtalDomain (c : Ctx) (target : Nat)
  /-- REFCLK_START_TIMEOUT (R379). -/
  | refclkStartTimeout
  /-- PWR_OK_DEASSERT (R380). -/
  | pwrOkDeassert
  /-- RESET_RELEASE (R380). -/
  | resetRelease (posId : BitVec 8)
  /-- RST_N_LOW (R380). -/
  | rstNLow
  /-- RST_N_COLD (R380). -/
  | rstNCold
  /-- RST_N_RISE (R380). -/
  | rstNRise (posId : BitVec 8)
  /-- RESET_TILE (R383). -/
  | resetTile (c : Ctx) (t : Nat)
  /-- RESET_GDDR7_HALF (R383). -/
  | resetGddr7Half (c : Ctx) (h : Nat)
  /-- RESET_CXL_PORT (R383). -/
  | resetCxlPort (c : Ctx)
  /-- RESET_UNIT_DONE (R383). -/
  | resetUnitDone
  /-- LADDER_ENTRY (R387). -/
  | ladderEntry
  /-- LADDER_EXIT (R386). -/
  | ladderExit
  /-- LEAVING_SEND (R306). -/
  | leavingSend
  /-- TIMED_LADDER_DUE (R389). -/
  | timedLadderDue
  /-- TIMED_CAP_DUE (R394). -/
  | timedCapDue
  /-- GOVERNOR_ADJUST (R392). -/
  | governorAdjust (drawW : Nat)
  /-- CAP_UNMET (R393). -/
  | capUnmet
  /-- RAMP_ENTRY_DUE (R403). -/
  | rampEntryDue
  /-- RAMP_MOVEMENT_END (R403). -/
  | rampMovementEnd
  /-- CAP_LETTER_SEND (R398). -/
  | capLetterSend (i : Nat)
  /-- CAP_ACK_TIMEOUT (R400). -/
  | capAckTimeout (i : Nat)
  /-- CAP_REFRESH (R400). -/
  | capRefresh (i : Nat)
  /-- VIN_DROOP_52 (R405). -/
  | vinDroop52 (mv : Nat)
  /-- VIN_DROOP_48 (R405). -/
  | vinDroop48 (mv : Nat)
  /-- VIN_DROOP_44 (R405). -/
  | vinDroop44 (mv : Nat)
  /-- DROOP_RELEASE (R405). -/
  | droopRelease
  /-- COOLANT_FAULT (R405). -/
  | coolantFault (cause : Nat)
  /-- COOLANT_RELEASE (R405). -/
  | coolantRelease
  /-- LEAK_WET (R443). -/
  | leakWet (mv : Nat)
  /-- LEAK_SENSOR_FAULT (R443). -/
  | leakSensorFault (mv : Nat)
  /-- FLOW_OK_TEST (R443). -/
  | flowOkTest (riseC avgW prevAvgW : Nat)
  /-- FLOW_OK_DEASSERT (R460). -/
  | flowOkDeassert
  /-- COOL_T_OUT_OF_RANGE (R460). -/
  | coolTOutOfRange (t : Int)
  /-- SENSOR_STUCK (R442). -/
  | sensorStuck (h n : Nat) (reading estimate : Int)
  /-- THERMAL_ST2 (R405). -/
  | thermalSt2 (h : Nat) (readings : List Int) (estimate : Int)
  /-- THERMAL_RELEASE (R405). -/
  | thermalRelease
  /-- THERMAL_TRIP (R405). -/
  | thermalTrip (h : Nat) (readings : List Int) (estimate : Int)
  /-- SKELETON_ENTER (R444). -/
  | skeletonEnter
  /-- PCNT_WRITE (R417). -/
  | pcntWrite (c : Ctx) (k : Nat) (value : Word)
  /-- PCNT_CTL_WRITE (R417). -/
  | pcntCtlWrite (c : Ctx) (k : Nat) (value : Word64)
  /-- PCNT_WRAP (R418). -/
  | pcntWrap (k : Nat)
  /-- CONTOUR_PERIOD_CLOSE (R420). -/
  | contourPeriodClose
  /-- COUNTER_SNAP_RECORD (R428). -/
  | counterSnapRecord
  /-- DETAIL_ENGINE_END (R422). -/
  | detailEngineEnd (e : Nat)
  /-- CLERK_SAMPLE (R426). -/
  | clerkSample (k skid : Nat) (skidEnd : Bool) (instr : Word64)
  /-- CAPTURE_PAD (R429). -/
  | capturePad
  /-- CAPTURE_PUBLISH (R429). -/
  | capturePublish
  /-- ADC_CAP_START (R430). -/
  | adcCapStart (c : Ctx) (lane bursts : Nat)
  /-- ADC_BURST_DONE (R430). -/
  | adcBurstDone (samples : List Byte)
  /-- ADC_BURST_DROP (R430). -/
  | adcBurstDrop
  /-- PULL_WARN (R439). -/
  | pullWarn
  /-- PULL_WARN_FIRST_BOUNDARY (R439). -/
  | pullWarnFirstBoundary
  /-- PULL_WARN_SECOND_BOUNDARY (R439). -/
  | pullWarnSecondBoundary
  /-- JOURNAL_SUMMARY_WRITE (R465). -/
  | journalSummaryWrite
  /-- KEEP_ALIVE_ON (R450). -/
  | keepAliveOn (mv : Nat)
  /-- VIN_LOSS (R450). -/
  | vinLoss
  /-- INPUT_OVER (R450). -/
  | inputOver (mv : Nat)
  /-- INPUT_DISCONNECT (R450). -/
  | inputDisconnect (mv : Nat)
  /-- PWR_EN_FALL (R451). -/
  | pwrEnFall
  /-- PERMIT_GRANT (R454). -/
  | permitGrant (tray permitId validMs : Nat) (reservedZero : Bool)
  /-- PERMIT_TIMEOUT (R454). -/
  | permitTimeout
  /-- HOLDUP_MEASURE (R453). -/
  | holdupMeasure (cap10uF : Nat)
  /-- CHARGE_COMPLETE (R452). -/
  | chargeComplete
  /-- PWR_OK_ASSERT (R452). -/
  | pwrOkAssert
  /-- SIDEBAND_ROLL_RECEIVE (R456). -/
  | sidebandRollReceive (r : RollRecord)
  /-- SIDEBAND_ALIVE_RECEIVE (R456). -/
  | sidebandAliveReceive (box : Nat)
  /-- SIDEBAND_GMI_PART (R457). -/
  | sidebandGmiPart (box bodyLen : Nat) (e : Envelope) (frag sig : List Byte)
  /-- PLCA_TRANSMIT_OPPORTUNITY (R458). -/
  | plcaTransmitOpportunity
  /-- LASER_UNIT_POLL (R463). -/
  | laserUnitPoll (u : Nat) (status : Option (BitVec 16))
  /-- BLACKBOX_BLOCK_WRITE (R466). -/
  | blackboxBlockWrite
  /-- LASER_WAVELENGTH_OK (R58). -/
  | laserWavelengthOk (tile fibre w : Nat) (pwr : Int)
  /-- ADAPT_FREEZE_START (R69). -/
  | adaptFreezeStart (lane cause : Nat) (reading : Int := 0)
  /-- LANE_FREEZE_WRITE (R69). -/
  | laneFreezeWrite (c : Ctx) (lane : Nat) (freeze : Bool)
  /-- PRBS_STOP (R108). -/
  | prbsStop (c : Ctx) (lane : Nat) (first : List Nat) (free : Nat) (last : List Nat)
  /-- DUPLEX_WORD_TIMEOUT (R292). -/
  | duplexWordTimeout
  /-- OFFICE_PROGRAM_RELOAD_DONE (R366). -/
  | officeProgramReloadDone (o : Nat)
  /-- MEM_TEST_END (R285). -/
  | memTestEnd (half : Nat) (whole : Bool) (lo : Nat)
  /-- LEAK_LINE_DRY (R443). -/
  | leakLineDry (mv : Nat)
  /-- PWR_EN_RISE (R454). -/
  | pwrEnRise
  /-- VIN_BELOW_54V (R452). -/
  | vinBelow54V (mv : Nat)
  deriving DecidableEq, Repr

end Sys2Proof
end

