-- ==== Sys2Proof/Config.lean ====
section
/-! DEFINITION. What the manual leaves open or takes from a published standard that it only names: opaque constants with no body, so that a
statement proved about the model holds for every value of them (notes/assumptions/2.md to notes/assumptions/6.md). -/

namespace Sys2Proof.Config

/-- SHA-512 (FIPS 180-4, named in R5): 64 bytes. The manual does not repeat the algorithm. -/
opaque sha512 : List Byte → BitVec 512

/-- AES-256-GCM encryption (FIPS 197, SP 800-38D; R91): key, IV, additional data, plaintext to ciphertext. -/
opaque gcmCipher : (key : BitVec 256) → (iv : BitVec 96) → (aad : List Byte) → (plain : List Byte) → List Byte

/-- AES-256-GCM decryption (R91). -/
opaque gcmPlain : (key : BitVec 256) → (iv : BitVec 96) → (aad : List Byte) → (cipher : List Byte) → List Byte

/-- The leftmost 64 bits of the GCM tag (R91). -/
opaque gcmTag : (key : BitVec 256) → (iv : BitVec 96) → (aad : List Byte) → (cipher : List Byte) → BitVec 64

/-- RSA-PSS with SHA-512 verification (PKCS #1 v2.2; R112, R330, R346, R355): public exponent, modulus, message, signature. -/
opaque rsaVerify : (pubExp : Nat) → (modulus : List Byte) → (msg : List Byte) → (sig : List Byte) → Bool

/-- RSA-PSS signature by the module's identity key (R344, R360): 512 bytes. -/
opaque rsaSign : (msg : List Byte) → List Byte

/-- RSA-OAEP decryption with the module's identity key (R112): none where the padding fails. -/
opaque oaepOpen : (cipher : List Byte) → Option (List Byte)

/-- RSA-OAEP encryption to a peer's key (R112). -/
opaque oaepSeal : (modulus : List Byte) → (secret : List Byte) → List Byte

/-- A fresh random 32-byte value of the Seal (R112, R114), by draw number. -/
opaque random32 : Nat → List Byte

/-- The public key of the Lerlek root, held in the boot ROM (R347): exponent and modulus. -/
opaque rootExp : Nat

opaque rootModulus : List Byte

/-- The identity key's modulus (R344), 512 bytes. -/
opaque idModulus : List Byte

/-- ID_DIGEST (R344): the first 32 bytes of SHA-512 over the public exponent 65,537 and the modulus of the identity key, both big-endian. -/
def idDigest : List Byte :=
  let h := (sha512 ([0, 1, 0, 1] ++ (idModulus ++ List.replicate (512 - idModulus.length) 0).take 512)).toNat
  ((List.range 64).map fun i => BitVec.ofNat 8 (h / 2 ^ (8 * (63 - i)))).take 32

/-- The manufacturer's signature over the identity certificate (R346, R347). -/
opaque idSignature : List Byte

/-- The manufacturing CA's key: exponent and modulus (R347). -/
opaque caExp : Nat

opaque caModulus : List Byte

/-- VENDOR, PART and SERIAL of the manufacturing CA's certificate, and the root's signature over it (R346, R347). -/
opaque caVendor : BitVec 16

opaque caPart : BitVec 16

opaque caSerial : BitVec 64

opaque caSignature : List Byte

/-- The keys that the Seal reconstructs from its PUF and the helper data (R343): 0 the wrapping key, 1 the storage key. -/
opaque pufKey : Nat → BitVec 256

/-- SERIAL of the identity page, per part (R272). -/
opaque serial : BitVec 64

/-- A value the manual leaves undefined or unstated, of any width, by draw number (notes/assumptions/2.md). -/
opaque freeNat : Nat → Nat

/-- The calibrated transmit-path latency of a port's lane, 1/256 ns (R37). -/
opaque txPath : (port : Nat) → (lane : Nat) → Nat

/-- The calibrated receive-path latency of a port's lane, 1/256 ns (R37). -/
opaque rxPath : (port : Nat) → (lane : Nat) → Nat

/-- Whether a core-cycle increment of the Meridian, rounded to the 32-bit fraction of R32, is rounded up. -/
opaque merRoundUp : Nat → Bool

/-- The order in which the products of one press output element are accumulated in FP32 (R227 gives none): a sort key by job and product. -/
opaque accKey : (job : Nat) → (product : Nat) → Nat

/-- A choice that a library routine of the firmware makes within a step (R474): the order in which it adds, its random draws, by step draw
and number. -/
opaque opDraw : (step : Nat) → (n : Nat) → Nat

/-- Whether the first of two zeros of opposite sign is the one that VMAX (true) or VMIN gives: R210 names neither. -/
opaque zeroTie : (greater : Bool) → BitVec 32 → BitVec 32 → Bool

/-- The library program of a slot 0–31 in the TYPE 1 section that the offices hold (R233, R350, R474): the manual gives the format of one program
but not the place of each in the section. -/
opaque libraryProgram : (library : List Byte) → (slot : Nat) → Option Program

/-- The voted boot ROM's digest m of ledger slot 0 (R357). -/
opaque bootRom : List Byte

/-- The header of the firmware image of manufacture, which stands in slot 0 (R350, R352): 4,096 bytes. -/
opaque factoryHeader : List Byte

/-- The section of a TYPE of that image (R350). -/
opaque factorySection : (type : Nat) → List Byte

/-- A byte of that image behind its header, at an offset from image byte 4,096. -/
opaque factoryBody : Nat → Byte

/-- The tray firmware's inputs and outputs of a Round (R310): not specified by the manual. -/
opaque trayInputs : Nat → List Byte

opaque trayOutputs : Nat → List Byte

/-- The tray state that TRAY_STATE_READ serves (R310, R313), as the firmware holds it. -/
opaque trayState : Nat → List Byte

/-- Coefficients that link training chooses (R66, R68): lane, training number, tap. -/
opaque trainedTap : (lane training tap : Nat) → Int

/-- The ADC sample of a lane at a symbol, in ADC codes (R67, R68): lane, symbol number. -/
opaque adcSample : (lane symbol : Nat) → Int

/-- Whether a coefficient's update, rounded to the coefficient's unit, is rounded up (R68): lane, symbol number, tap. -/
opaque tapRoundUp : (lane symbol tap : Nat) → Bool

end Sys2Proof.Config
end

