-- ==== Sys2Proof/Machine/State.lean ====
section
/-! DEFINITION. The state of the LKZ-1024-A as plain data: every register, buffer, queue, counter, mode and pin that the manual gives the
module, and the queue of waiting commands. A field's default is its value after reset; State.reset is the record of all defaults. A table
that has a default for every index (lanes, ports, offices …) is a list of (index, value) pairs with rising indexes that lists no default. -/

namespace Sys2Proof.Machine

/-- A table by index in canonical form: indexes strictly rising, no entry equal to the table's default (Tbl.get, Tbl.set in Ops.lean). -/
abbrev Tbl (α : Type) := List (Nat × α)

/-- A byte memory in canonical form: addresses strictly rising, no entry equal to what an unlisted address reads as. -/
abbrev Memory := List Host.Cell

/-! ### Meridian time (02) -/

/-- Meridian states in the code order of MER_STATUS.STATE (R55). -/
inductive MerState where
  | free | acquire | locked | holdover | master | keeper
  deriving DecidableEq, Repr

/-- An announcement of a grandmaster or candidate (R472): grid reference, priority, hops. -/
structure Announce where
  ref : Nat
  prio : Nat
  steps : Nat
  deriving DecidableEq, Repr

/-- The chronicle exchange of one port (R36–R39). -/
structure ChronPort where
  /-- SEQ of the last CHRON accepted (R38); none before the first. -/
  lastSeq : Option Nat := none
  /-- SEQ of the next CHRON to send, +1 per flit (R38). -/
  txSeq : Nat := 0
  /-- T_SEND of the CHRONs sent and not yet answered: (SEQ, time in 1/256 ns) (R39). -/
  sent : List (Nat × Int) := []
  /-- Receive time of the last peer CHRON accepted, 1/256 ns, and its SEQ: RX_ECHO and SEQ_ECHO (R38). -/
  rxEcho : Int := 0
  /-- SEQ of the last peer CHRON accepted: SEQ_ECHO (R38). -/
  seqEcho : Nat := 0
  /-- Round in which the last CHRON was accepted (R46). -/
  lastRound : Option Nat := none
  /-- The link delays of the last 16 exchanges, newest first, 1/512 ns (R39). -/
  delays : List Int := []
  /-- What the peer last announced: RACK_TIME, LOCKED or MASTER, IS_MASTER, STEPS, GM_SEQ (R38). -/
  rackTime : Bool := false
  /-- The peer's LOCKED or MASTER bit (R38). -/
  peerLocked : Bool := false
  /-- The peer's IS_MASTER bit (R38). -/
  peerMaster : Bool := false
  /-- The peer's STEPS (R38). -/
  steps : Nat := 255
  /-- The peer's GM_SEQ (R38). -/
  gmSeq : Nat := 0
  /-- A CHRON waits for the next flit boundary (R36). -/
  due : Bool := false
  deriving DecidableEq, Repr

/-- The Meridian unit (R32–R55). θ is kept in 1/512,000 ns and rates in 1/512,000 ppb, so that R39 and R40 are exact. -/
structure Mer where
  /-- The Meridian: whole nanoseconds (64 bits) and the 32-bit fraction (R32). -/
  ns : Nat := 0
  /-- The 32-bit fraction of a nanosecond (R32). -/
  frac : Nat := 0
  /-- RATE_ADJ in force and the update that takes effect at the next boundary (R32, R40, R50 item 1). -/
  rate : Int := 0
  /-- RATE_ADJ that takes effect at the next boundary (R40, R50). -/
  rateNext : Int := 0
  /-- integ of R40. -/
  integ : Int := 0
  /-- A counter step waiting for the next boundary, 1/512,000 ns (R40, R42). -/
  pendingStep : Option Int := none
  /-- MER_STATUS.STATE (R41–R43, R46, R55). -/
  state : MerState := .free
  /-- Timed service (R47): MER_STATUS.TIMED. -/
  timed : Bool := false
  /-- RACK_TIME (R44): MER_STATUS.RACK_TIME. -/
  rackTime : Bool := false
  /-- The parent port (R44, R46): MER_STATUS.PARENT. -/
  parent : Option Nat := none
  /-- Hops from the grandmaster (R44): MER_STATUS.STEPS, 0xFF unknown. -/
  steps : Nat := 255
  /-- Grid reference of the grandmaster (R43): MER_GM.GM_REF. -/
  gmRef : Nat := 0
  /-- MER_PRIO of the grandmaster (R43): MER_GM.GM_PRIO. -/
  gmPrio : Nat := 255
  /-- GM_SEQ, which the grandmaster advances each Round (R46). -/
  gmSeq : Nat := 0
  /-- A grandmaster is known (R43). -/
  gmKnown : Bool := false
  /-- Round in which GM_SEQ last advanced on any link (R46). -/
  gmSeqRound : Nat := 0
  /-- Last θ (R39; MER_OFFSET). -/
  theta : Int := 0
  /-- MER_DEFERRED (R51). -/
  deferred : Nat := 0
  /-- Consecutive parent exchanges with |θ| < 0.5 ns (R41). -/
  lockRun : Nat := 0
  /-- What each port keeps of its CHRON exchanges (R38, R39). -/
  ports : Tbl ChronPort := []
  /-- The best announcement held in an election, whether the module announces itself, and the Round its window opened (R472). -/
  best : Option Announce := none
  /-- The module announces itself in an election (R472). -/
  announcing : Bool := false
  /-- The Round at which the election's window opened (R472). -/
  electionSince : Option Nat := none
  /-- A grandmaster has been settled since the window closed (R472: "After the window"). -/
  firstAdmission : Option Nat := none
  /-- Meridian time at which HOLDOVER's 1 s ends (R47). -/
  holdoverEnd : Option Nat := none
  /-- Standing routes have fallen back because |θ| > 64 ns (R47). -/
  routesFallen : Bool := false
  /-- MER_TIME_HI as latched by a read of MER_TIME_LO, until MER_TIME_HI is read (R55). -/
  timeHi : Option Nat := none
  /-- Core cycle within the Round, counted from the boundary cycle (R34). -/
  cycle : Nat := 0
  /-- The keeper counts: ST3 and ST4 (R35). -/
  keeperRuns : Bool := false
  /-- The crystal-to-REFCLK ratio measured in the last 10 µs before entry, as monitor 0's COUNT, 16,000 nominal (R35, R371). -/
  keeperScale : Nat := 16000
  /-- Round from which the parent has been the parent (R46). -/
  parentSince : Nat := 0
  /-- The grandmaster whose loss began the election under way (R46, R472). -/
  lostGm : Option Nat := none
  /-- The last Round whose boundary work has been done; a Round that a step repeats does periodic work only (R42). -/
  doneRound : Nat := 0
  /-- Timed actions executed with timed service off, the flag MER_HOLDOVER of R47: (opcode, Round), the last 1,024. -/
  holdoverLog : List (Nat × Nat) := []
  deriving DecidableEq, Repr

/-! ### Optical lanes and edge tiles (03) -/

/-- Holders of a lane ADC in the code order of LANE_STATUS.CLAIM (R72, R84). -/
inductive AdcClaim where
  | none | adapt | prbs | echo | capture
  deriving DecidableEq, Repr

/-- LANE_CFG of a lane (R84), committed or staged. -/
structure LaneCfg where
  precodePol : Nat := 0
  ctleMode : Bool := false
  ctleCode : Nat := 0x10
  muFfe : Nat := 4
  muDfe : Nat := 6
  deriving DecidableEq, Repr

/-- A lane (R56, R63–R78, R84). Powers in 0.01 dBm. -/
structure Lane where
  claim : AdcClaim := .none
  los : Bool := true
  cdrLock : Bool := false
  /-- Adaptation is running (its freeze causes aside): ADAPT_STATE 1 or 2 rather than 0. -/
  adaptOn : Bool := false
  /-- The freeze causes of R69: signal gap, SNR, FEC, FREEZE bit, ladder. -/
  fzGap : Bool := false
  /-- Frozen by SNR (R69). -/
  fzSnr : Bool := false
  /-- Frozen by uncorrectable flits (R69). -/
  fzFec : Bool := false
  /-- LANE_CTL.FREEZE (R69, R84). -/
  freeze : Bool := false
  /-- Frozen by the ladder (R69, R71). -/
  fzLadder : Bool := false
  /-- Round in which power came back above −13.0 dBm after a gap (R69). -/
  gapBack : Option Nat := none
  /-- Precoding on in the transmit direction (R66): LANE_STATUS.PRECODE_TX. -/
  precodeTx : Bool := false
  /-- y of the last symbol sent, 0 before the first after training (R65). -/
  yTx : Nat := 0
  /-- Precoding on in the receive direction (R66): LANE_STATUS.PRECODE_RX. -/
  precodeRx : Bool := false
  /-- The transmit ring is locked (R70): LANE_STATUS.RING_LOCK. -/
  ringLock : Bool := false
  /-- The transmitter is blanked (R70, R71). -/
  blank : Bool := false
  /-- The transmit ring is locked and lit (R70). -/
  lit : Bool := false
  /-- LANE_STATUS.SNR (R69, R84). -/
  snr : Nat := 0
  /-- LANE_POWER.RX_PWR, 0.01 dBm (R84). -/
  rxPwr : Int := -32768
  /-- LANE_POWER.TX_PWR, 0.01 dBm (R84). -/
  txPwr : Int := -32768
  /-- HEATER (R70, R84). -/
  heater : Nat := 0
  /-- The CTLE code in force (R68). -/
  ctle : Nat := 0x10
  /-- DFE taps d1–d4 and FFE taps c0–c31 (R67), by index; unlisted taps are 0. -/
  dfe : Tbl Int := []
  /-- FFE taps c0–c31 (R67), by index. -/
  ffe : Tbl Int := []
  /-- How often the lane has trained: the argument of its free coefficients (R68). -/
  trainings : Nat := 0
  /-- Round of the last ring search (R70). -/
  searchRound : Nat := 0
  /-- Round since which a lost lane's LOS has stayed clear (R108). -/
  losClearRound : Option Nat := none
  /-- PRBS_CTL.GEN_EN (R75, R84). -/
  genEn : Bool := false
  /-- PRBS_CTL.CHK_EN (R77, R84). -/
  chkEn : Bool := false
  /-- PRBS_CTL.PATTERN (R75, R84). -/
  pattern : Nat := 3
  /-- PRBS_CTL.CHK_LOCK (R77). -/
  chkLock : Bool := false
  /-- PRBS_CTL.SWAP_SEEN (R77, R84). -/
  swapSeen : Bool := false
  /-- PRBS_CTL.DURATION, 1,024 Rounds each (R84). -/
  duration : Nat := 0x3BA
  /-- PRBS_SEED (R76, R84). -/
  seed : Nat := 0x7FFFFFFF
  /-- The generator's register state (R76). -/
  lfsr : Nat := 0
  /-- Round at which the PRBS test ends (R74). -/
  testEnd : Option Nat := none
  /-- PRBS_ERRS (R78). -/
  errs : Nat := 0
  /-- PRBS_SYMERRS (R78). -/
  symErrs : Nat := 0
  /-- PRBS_BITS, 64 bits (R78). -/
  bits : Nat := 0
  /-- PRBS_BITS_HI, latched by a read of the low word (R84). -/
  bitsHi : Nat := 0
  /-- What the last ended claim reported, and whose claim it was (R74). -/
  claimResult : Option Status := none
  /-- The holder of the claim that ended last (R74). -/
  claimLast : AdcClaim := .none
  /-- y of the last symbol decided, 0 before the first after training (R65). -/
  yRx : Nat := 0
  /-- The checker: register state, bits taken for the seed, error-free bits in a row, and which of the last 1,024 bits were wrong (R77). -/
  chkReg : Nat := 0
  /-- Bits taken for the seed (R77). -/
  chkFill : Nat := 0
  /-- Error-free bits in a row (R77). -/
  chkRun : Nat := 0
  /-- Which of the last 1,024 bits were wrong, newest first (R77). -/
  chkErrs : List Bool := []
  /-- The symbols that the generator sent in the last core cycle (R75). -/
  line : List Nat := []
  /-- Round of the last uncorrectable flit on the lane's link (R69). -/
  fecRound : Option Nat := none
  /-- FEC corrections located on the lane in the present Round, and the Rounds in a row with more than 1 per 1,000 bytes (R105). -/
  fecErr : Nat := 0
  /-- Rounds in a row with more than 1 correction per 1,000 bytes (R105). -/
  fecBad : Nat := 0
  /-- Symbols over which the coefficients have adapted (R68). -/
  updates : Nat := 0
  /-- The levels decided for the last four symbols, newest first (R68). -/
  decided : List Int := []
  /-- What the updates of the present 256 symbols add to the FFE taps, by index, before rounding to the tap's unit (R68). -/
  accFfe : Tbl Int := []
  /-- What they add to the DFE taps d1–d4 (R68). -/
  accDfe : Tbl Int := []
  /-- Symbols of an Echo probe sent so far; none where the lane sends no probe (R79). -/
  probe : Option Nat := none
  /-- Heater code and coefficients are saved in tile retention (R71). -/
  saved : Bool := false
  deriving DecidableEq, Repr

/-- An Echo event as the result record reports it (R81, R82). -/
structure EchoResult where
  distCm : Nat
  refl : Int
  loss : Nat
  type : Nat
  inspect : Bool
  deriving DecidableEq, Repr

/-- An Echo correlator: ECHO_CTL and its result record (R79–R84). -/
structure Corr where
  portK : Nat := 0
  laneJ : Nat := 0
  busy : Bool := false
  done : Bool := false
  startCm : Nat := 10
  result : Nat := 0
  more : Bool := false
  portLane : Nat := 0
  groupIndex : Nat := 0
  doneTime : Nat := 0
  events : List EchoResult := []
  startNs : Nat := 0
  deriving DecidableEq, Repr

/-- An edge tile (R58–R61, R84). -/
structure Tile where
  /-- 0 working fibre, 1 spare fibre (TILE_LASER.ACTIVE). -/
  active : Nat := 0
  /-- TILE_LASER.WORK_OK, by wavelength (R59, R60). -/
  workOk : BitVec 4 := 0
  /-- TILE_LASER.SPARE_OK, by wavelength (R59, R60). -/
  spareOk : BitVec 4 := 0
  /-- TILE_LASER.SWAPS (R60, R84). -/
  swaps : Nat := 0
  /-- LASER_SELECT.SELECT (R61). -/
  select : Nat := 0
  /-- LASER_PWR[f][w] by 4f + w, 0.01 dBm; unlisted entries read 0x8000. -/
  pwr : Tbl Int := []
  /-- By 4f + w: since when the wavelength has been found below +6.0 dBm, ns (R60). -/
  lowSince : Tbl Nat := []
  /-- The tile's Echo correlators (R56, R79). -/
  corr : Tbl Corr := []
  deriving DecidableEq, Repr

/-! ### Flits, links and admission (04) -/

/-- Discovery states in the code order of LINK_STATUS.DISC (R111, R117). -/
inductive Disc where
  | dark | training | up | miswired | surveyed | admitting | admitted | refused
  deriving DecidableEq, Repr

/-- Training phases (R104, R106). -/
inductive Phase4 where
  | none | ts1 | ts2 | ts3 | reshape
  deriving DecidableEq, Repr

/-- A flit as the link layer handles it in the clear: header fields and 236 payload bytes (R85, R88). -/
structure Flit where
  type : Nat
  vc : Nat
  shared : Bool
  payload : List Byte
  deriving DecidableEq, Repr

/-- A sequenced flit held for replay (R97): its full number, the coded bytes as first sent, and when. -/
structure Held where
  seq : Nat
  coded : List Byte
  sentNs : Nat
  oldKey : Bool
  deriving DecidableEq, Repr

/-- The transmit side of a link (R92, R94, R97, R100–R102). -/
structure LinkTx where
  nextSeq : Nat := 0
  nextUnseq : Nat := 0
  replay : List Held := []
  /-- The coded flits still to be resent, in order (R97). -/
  resend : List Held := []
  /-- Dedicated credits left by VC, shared credits left, and whether INIT has arrived (R100, R101). -/
  ded : Tbl Nat := []
  /-- Shared credits left (R100, R101). -/
  shr : Nat := 0
  /-- INIT has arrived (R101). -/
  credInit : Bool := false
  /-- ACK and NAK flits waiting for the next flit boundary (R95, R96). -/
  control : List Flit := []
  /-- A ROLL record is due this Round, and whether it shows LEAVING (R304, R306). -/
  rollDue : Bool := false
  /-- The record due shows LEAVING (R306). -/
  leaving : Bool := false
  /-- SURVEY and ADMIT flits waiting, and whether the next VC7 turn is theirs (R155). -/
  mgmt : List Flit := []
  /-- The next VC7 turn is a SURVEY or ADMIT flit's (R155). -/
  mgmtTurn : Bool := false
  /-- A CREDIT flit is due (R102, R155). -/
  creditDue : Bool := false
  /-- The INIT CREDIT flit is due (R101). -/
  creditInitDue : Bool := false
  /-- The last VC served of the round robin of R155, item 6. -/
  lastVc : Nat := 5
  /-- The coded flit last put on the fibre, and its PAM4 symbols by global lane (R64, R65, R87). -/
  fibre : List Byte := []
  /-- PAM4 symbols of the flit or training frame last put on the fibre, by global lane (R64, R65, R103). -/
  line : List (Nat × List Nat) := []
  /-- The control words last sent in training frames, by global lane (R103). -/
  ctrl : List (Nat × Nat) := []
  /-- Sequenced and unsequenced flits sent under the present key (R114). -/
  flitsUnderKey : Nat := 0
  /-- Unsequenced flits sent under the present key (R92, R114). -/
  unseqUnderKey : Nat := 0
  deriving DecidableEq, Repr

/-- The receive side of a link (R93–R96, R102). -/
structure LinkRx where
  /-- ESEQ as a full number (R92, R96). -/
  eseq : Nat := 0
  /-- Discarding until the flit of ESEQ arrives (R96). -/
  discarding : Bool := false
  /-- When the last NAK was sent (R96). -/
  lastNak : Option Nat := none
  /-- Sequenced flits accepted since the last ACK, and when the first of them was (R95). -/
  ackCount : Nat := 0
  /-- When the first flit not yet acknowledged was accepted (R95). -/
  ackFirst : Option Nat := none
  /-- Number of the last unsequenced flit accepted (R92). -/
  lastUnseq : Option Nat := none
  /-- Rounds of the TAG_FAIL flits of the last 1,024 Rounds (R93). -/
  tagFails : List Nat := []
  /-- Credits to be returned: by VC, shared, and when the first became pending (R102). -/
  pendDed : Tbl Nat := []
  /-- Shared credits to be returned (R102). -/
  pendShr : Nat := 0
  /-- When the first credit to be returned became pending (R102). -/
  pendSince : Option Nat := none
  /-- Round since which every flit has been uncorrectable (R103). -/
  badSince : Option Nat := none
  /-- The flit last accepted, in the clear (R93). -/
  accepted : Option Flit := none
  deriving DecidableEq, Repr

/-- The keys of an admitted link (R112–R114). -/
structure LinkKeys where
  tx : BitVec 256 := 0
  rx : BitVec 256 := 0
  saltTx : BitVec 32 := 0
  saltRx : BitVec 32 := 0
  chain : List Byte := []
  oldTx : Option (BitVec 256 × BitVec 32) := none
  oldRx : Option (BitVec 256 × BitVec 32) := none
  nextTx : Option (BitVec 256 × BitVec 32) := none
  nextRx : Option (BitVec 256 × BitVec 32) := none
  /-- The own random n of a rekey in progress, when it began and how many tries have failed (R114). -/
  nOwn : List Byte := []
  /-- The peer's random n (R114). -/
  nPeer : List Byte := []
  /-- The module began the rekey (R114). -/
  initiator : Bool := false
  /-- When the rekey in progress began (R114). -/
  rekeySince : Option Nat := none
  /-- Tries of the rekey that have failed (R114). -/
  rekeyFails : Nat := 0
  /-- The Round of the last rekey (R114). -/
  lastRekey : Nat := 0
  /-- When the old keys go out of use, ns (R114). -/
  switchNs : Nat := 0
  /-- REKEY_LOG2 as the present key took it, whether REKEY_ACK has been sent and received, and C of the keys to come (R113, R114, R117). -/
  interval : Nat := 22
  /-- REKEY_ACK has been sent (R114). -/
  ackSent : Bool := false
  /-- REKEY_ACK has been received (R114). -/
  ackGot : Bool := false
  /-- C of the keys to come (R113, R114). -/
  nextChain : List Byte := []
  deriving DecidableEq, Repr

/-- Admission in progress (R112, R113). -/
structure Adm where
  /-- 0 none, 1 waits HELLO, 2 waits KEY, 3 waits FINISH. -/
  step : Nat := 0
  /-- When the present step of the admission began, ns (R112). -/
  stepNs : Nat := 0
  /-- The peer's chain: its leaf's key and the key digests it names (R363, R365). -/
  peerExp : Nat := 0
  /-- The peer's leaf key: modulus (R365). -/
  peerModulus : List Byte := []
  /-- The key digests that the peer's chain names (R363, R365). -/
  peerDigests : List (List Byte) := []
  /-- The own r of HELLO (R112). -/
  rOwn : List Byte := []
  /-- The peer's r (R112). -/
  rPeer : List Byte := []
  /-- The own s of KEY (R112). -/
  sOwn : List Byte := []
  /-- HELLO as sent (R112, R113). -/
  helloOwn : List Byte := []
  /-- HELLO as received (R112, R113). -/
  helloPeer : List Byte := []
  /-- KEY as sent (R112, R113). -/
  keyOwn : List Byte := []
  /-- The transcript digest that the FINISH flits carry. -/
  finish : List Byte := []
  /-- The TAG that the peer's FINISH flit must carry under the new receive key, once the flit has come (R112). -/
  finishTag : Option Nat := none
  deriving DecidableEq, Repr

/-- One port's link (R103–R117), with its roll-call view (R305, R306). -/
structure Link where
  disc : Disc := .dark
  phase : Phase4 := .none
  /-- Start of the training phase, ns, and the Round before which no retry is made (R104). -/
  phaseNs : Nat := 0
  /-- The Round before which no retry is made (R104). -/
  retryRound : Nat := 0
  /-- LINK_STATUS.WIDTH: the active lanes (R104, R107). -/
  width : BitVec 4 := 0
  /-- LINK_STATUS.RELEASED: lanes released by command (R108). -/
  released : BitVec 4 := 0
  /-- Lanes lost (R105, R108). -/
  lost : BitVec 4 := 0
  /-- LANES_OK as this end sends it in training (R103). -/
  lanesOk : BitVec 4 := 0
  /-- RX_READY by lane: the lanes whose receivers have adapted in TS1 (R103, R104). -/
  rxReady : BitVec 4 := 0
  /-- Symbols of the training frame under way at the last boundary (R103). -/
  frameSyms : Nat := 0
  /-- Lanes on their way back: the lane, when its return began, and the lane-return command that waits for it (R108). -/
  returning : List (Nat × Nat × Option Ctx) := []
  /-- LINK_STATUS.KEY_PHASE_TX (R114). -/
  keyPhaseTx : Bool := false
  /-- The KEY_PHASE of the receive key in force (R114). -/
  keyPhaseRx : Bool := false
  /-- KEY_PHASE of the last flit accepted: LINK_STATUS.KEY_PHASE_RX (R117). -/
  lastPhase : Bool := false
  /-- The next training is a fast one, on exit from ST3 (R71, R104). -/
  fast : Bool := false
  /-- LINK_STATUS.NO_CARD (R109). -/
  noCard : Bool := false
  /-- The Round in which the link reached UP (R109). -/
  upRound : Nat := 0
  /-- T_RT in 1/256 ns, and the shared grants (R98, R101, R117). -/
  rtt : Nat := 0
  /-- T_RT has been measured since full training (R98). -/
  delayKnown : Bool := false
  /-- LINK_GRANT.GRANT_TX (R101). -/
  grantTx : Nat := 0
  /-- LINK_GRANT.GRANT_RX (R101). -/
  grantRx : Nat := 0
  /-- The transmit direction (R92–R102, R155). -/
  tx : LinkTx := {}
  /-- The receive direction (R92–R102). -/
  rx : LinkRx := {}
  /-- The peer's survey card (R109, R110). -/
  card : Option SurveyCard := none
  /-- The own CARD_SEQ (R109). -/
  ownCardSeq : Nat := 0
  /-- The card last sent, its CARD_SEQ field as 0 (R109). -/
  cardSent : List Byte := []
  /-- A card is to be sent (R109). -/
  cardDue : Bool := false
  /-- The Round in which a card was last sent (R109). -/
  cardRound : Nat := 0
  /-- LINK_CFG.ADMIT_REQ (R112, R116). -/
  admitReq : Bool := true
  /-- The Round at which ADMIT_REQ is set again after a withdrawal (R116). -/
  reqRestore : Nat := 0
  /-- When the link was refused, ns (R111). -/
  refusedNs : Nat := 0
  /-- The admission under way (R112). -/
  adm : Adm := {}
  /-- The link's keys (R113, R114). -/
  keys : LinkKeys := {}
  /-- Round of the last ROLL accepted, roll-silent, parked, and the peer's last record (R305, R306). -/
  rollRound : Option Nat := none
  /-- Roll-silent (R305). -/
  silent : Bool := false
  /-- Parked by the peer's LEAVING or LADDER (R306). -/
  parked : Bool := false
  /-- To be parked at the next boundary (R306). -/
  parkDue : Bool := false
  /-- The peer's last roll record (R303, R305). -/
  peerRoll : Option RollRecord := none
  /-- The credits returned to the peer have been stopped (R439, step 1). -/
  creditStop : Bool := false
  /-- Round of the last event that puts the port in the recovery phase of R421. -/
  troubleRound : Option Nat := none
  deriving DecidableEq, Repr

/-! ### Letters, the switching core and routing (05, 06, 07) -/

/-- The letter header's fields (R123); `reserved` is 0 where every reserved field is. -/
structure Header where
  dest : Nat
  src : Nat
  plot : Nat
  cls : Nat
  vc : Nat
  reg : Bool
  mc : Bool
  spr : Bool
  copy : Bool
  sseq : Nat
  length : Nat
  raddr : Nat
  groupOp : Nat
  mline : Nat
  hcheck : Nat
  reserved : Nat
  deriving DecidableEq, Repr

/-- A cell of the shared buffer (R146): one received flit's payload, type and VC, whether it spent a shared credit. -/
structure BufCell where
  type : Nat
  vc : Nat
  shared : Bool
  payload : List Byte
  /-- No copy needs it any more: its credit has gone back (R148). -/
  freed : Bool := false
  deriving DecidableEq, Repr

/-- How far a letter has gone to one output (R151, R158, R166): `sess` is set for a copy; `sent`
counts the flits granted and `taken` those taken into the egress replay buffer. -/
structure Send where
  port : Nat
  vc : Nat
  sent : Nat
  taken : Nat
  done : Bool
  sess : Option Nat
  /-- The standing route whose slots carry it (R161); none for a letter in the Dispatcher queues. -/
  route : Option Nat
  /-- The Round in which the send was made (R186). -/
  since : Nat
  /-- The Meridian at which a copy was taken, as its capture record's TIME gives it (R429). -/
  ns : Nat := 0
  /-- Its place in the order in which sends joined their queues (R151); 0 before it has joined one. -/
  seq : Nat := 0
  /-- A copy of the first 256 letter bytes alone: TRUNC, of a letter longer than that (R165). -/
  trunc : Bool := false
  /-- Closed when its output went down: what arrives later for it is counted in LOST_ON_DOWN (R157). -/
  closed : Bool := false
  deriving DecidableEq, Repr

/-- Where a terminal letter goes (R173 steps 2 and 5). -/
inductive Target where
  | group (e : Nat)
  | box (n : Nat)
  | slowPost
  deriving DecidableEq, Repr

/-- What the Atlas lookup of R173 answers: a discard, counted under a port counter (R414) with the WHY of an UNREACHABLE notice where one
is due, a terminal letter, a standing route of an output, or the ports and VCs that the letter leaves on. -/
inductive Lookup where
  | discard (counter : Nat) (why : Option Nat)
  | terminal (t : Target)
  | route (out route : Nat)
  | ports (l : List (Nat × Nat))
  deriving DecidableEq, Repr

/-- A letter held in the shared buffer (R144–R148, R158). -/
structure Letter where
  ingress : Nat
  vc : Nat
  hdr : Header
  head : List Byte
  cells : List BufCell
  /-- Its END has been written and its letter check has passed (R144). -/
  complete : Bool
  /-- The CAUSE with which it is to be closed (R130, R156). -/
  spoilt : Option Nat
  /-- The letter is foreign here (R189). -/
  foreign : Bool
  /-- Where the letter goes, one by output, VC and copy session (R151, R158, R166). -/
  sends : List Send
  /-- Where a terminal letter ends (R31, R145); none for a transit letter. -/
  target : Option Target
  /-- The Round of its arrival. -/
  round : Nat
  /-- The reorder unit has taken a terminal letter (R145); the buffer keeps it for its copies alone. -/
  taken : Bool := false
  deriving DecidableEq, Repr

/-- A letter that the module itself originates, in the egress of its output (R145, R155). -/
structure OwnLetter where
  vc : Nat
  flits : List (List Byte)
  sent : Nat
  /-- The group it belongs to, for the fair share of R248; 0 for none. -/
  group : Nat
  /-- The Round in which it was queued. -/
  sinceRound : Nat
  /-- The slow-post notice that it is (R197), where it is one. -/
  notice : Option Nat := none
  deriving DecidableEq, Repr

/-- A crossbar flit staged at an egress, with the letter and the send it belongs to. -/
structure Staged where
  flit : Flit
  /-- The letter in the buffer and the index of its send; none for an office's letter on a standing route (R161). -/
  letter : Option Nat
  /-- The index of the letter's send; the ROUTE of an office's letter. -/
  send : Nat
  deriving DecidableEq, Repr

/-- The egress of a port (R151, R155): crossbar flits staged, own letters, and whose turn a VC is. -/
structure Egress where
  staged : List Staged := []
  own : List OwnLetter := []
  /-- By VC: true where the next letter of the VC is one the module originates (R155). -/
  ownTurn : Tbl Bool := []
  /-- By VC: an own letter is in progress (true), so no crossbar letter of the VC may start. -/
  ownOpen : Tbl Bool := []
  /-- By VC: a crossbar letter of the VC is in progress, so no own letter of the VC may start (R155). -/
  xbOpen : Tbl Bool := []
  /-- By VC: the input that holds the output's VC (R151), as 1 + input, or the standing route that does (R161), as 257 + ROUTE; 0 free. -/
  locks : Tbl Nat := []
  /-- By VC: the buffered letter whose flit left last, as 1 + its number; 0 one of the module's own (R130). -/
  lastOn : Tbl Nat := []
  /-- FOREIGN_CELLS of a trunk output (R190). -/
  foreign : Nat := 0
  /-- The Round in which the output last had a credit (R166, R186). -/
  creditRound : Nat := 0
  /-- VC5 of an access port: the group whose turn it is, and the letters left of its turn (R248). -/
  share5 : Nat × Nat := (0, 0)
  deriving DecidableEq, Repr

/-- A pair of a match (R150): input, output, VC. -/
structure Pair where
  inp : Nat
  out : Nat
  vc : Nat
  cells : Nat
  deriving DecidableEq, Repr

/-- A match in progress (R153): the slot it serves and the pairs made so far. -/
structure MatchState where
  slot : Nat
  pairs : List Pair
  routeIn : List Nat
  routeOut : List Nat
  deriving DecidableEq, Repr

/-- A Dispatcher channel (R154, R171). -/
structure DispCh where
  mode : Nat := 0
  retires : List Nat := []
  mismatch : Nat := 0
  /-- Slots outvoted in the present Round. -/
  slotMiss : Nat := 0
  /-- The channel is to be retired at the boundary (R154). -/
  retireDue : Bool := false
  deriving DecidableEq, Repr

/-- The switching core (R143–R171). -/
structure Sw where
  letters : Tbl Letter := []
  nextLetter : Nat := 0
  /-- The number of the last send that joined a queue (R151). -/
  nextSend : Nat := 0
  /-- The one-flit letter that an ingress VC received last, by 8 × port + VC, with its number, once it has left the buffer: an END_SPOILT that
  follows it is still its own (R129, R130). -/
  lastOne : Tbl (Nat × Letter) := []
  /-- The letter open on an ingress VC, by 8 × port + VC, as 1 + its id (R129). -/
  openAt : Tbl Nat := []
  /-- The egress ports (R151, R155). -/
  egress : Tbl Egress := []
  /-- Grant pointers, by output (R153). -/
  gptr : Tbl Nat := []
  /-- Accept pointers, by input (R153). -/
  aptr : Tbl Nat := []
  /-- By 256 × input + output: the VC last served (R152), as 1 + VC. -/
  lastVc : Tbl Nat := []
  /-- The matches under way, one for each of the four cell slots of a match (R153). -/
  matches4 : List MatchState := []
  /-- The Dispatcher's channels (R154). -/
  disp : Tbl DispCh := []
  /-- The copies a session has matched, by session (R164). -/
  copySeen : Tbl Nat := []
  /-- Ports of maintenance equipment held by TEST (R168). -/
  testPorts : List Nat := []
  /-- Standing routes in fallback, by their output and ROUTE (R162). -/
  fallen : List (Nat × Nat) := []
  /-- Route queues of office sources: (output, route, letters) (R161). -/
  officeRoutes : List (Nat × Nat × List OwnLetter) := []
  /-- Letters that a route's fallback put into the Dispatcher's queue and whose SLOW is not yet due or sent (R162, R197). -/
  slowDue : List Nat := []
  /-- The outputs whose standing route is in use in the present slot (R155 item 5). -/
  routeNow : List Nat := []
  /-- The outputs and VCs, as 8 × output + VC, over which shared returns are withheld until q falls below SLOW_HI (R199). -/
  stopped : List Nat := []
  deriving DecidableEq, Repr

/-- A letter held by the reorder unit (R192–R195). -/
structure RHeld where
  sseq : Nat
  letter : Letter
  round : Nat
  spilled : Bool
  deriving DecidableEq, Repr

/-- A stream context (R193). -/
structure Stream where
  src : Nat
  /-- The path key of R181 and its kind, as a LOSS notice carries them (R196). -/
  pathKey : Nat
  /-- The kind of the path key (R196). -/
  keyKind : Nat
  /-- The source's rack (R181, R196). -/
  rack : Nat
  /-- The group of a class 2 stream (R251). -/
  group : Option Nat
  /-- NEXT; none while the first arrivals are held for 1 Round (R193). -/
  next : Option Nat
  /-- Letters held until NEXT arrives (R194, R195): counted in REORDER_STATUS.HELD. -/
  held : List RHeld
  /-- SSEQs marked lost (R195). -/
  lost : List Nat
  /-- The Round in which the gap opened (R195). -/
  gapStart : Option Nat
  /-- The Round in which the context was created (R193). -/
  born : Nat
  /-- The Round of the stream's last arrival (R193). -/
  lastRound : Nat
  /-- Letters two or more steps ahead, held aside (R251). -/
  aside : List RHeld
  deriving DecidableEq, Repr

/-- A reorder unit (R192). -/
structure Reorder where
  /-- By SRC and stream key (R135), in the numbering of reorderKey. -/
  streams : Tbl Stream := []
  deriving DecidableEq, Repr

/-- A slow-post notice waiting to leave (R197). -/
structure Notice where
  port : Nat
  round : Nat
  letter : OwnLetter
  deriving DecidableEq, Repr

/-- A SLOW that the offices obey (R196, R198): its TARGET, SCOPE and RATE, the first Round in which it no longer holds, and the flits that the
offices began toward it in the Round named. -/
structure SlowScope where
  target : Nat
  scope : Nat
  rate : Nat
  till : Nat
  round : Nat
  sent : Nat
  deriving DecidableEq, Repr

/-- Routing state outside the committed tables (R172–R204). -/
structure Route where
  /-- SSEQ of the next letter that the module originates, by SRC and stream key (R135, reorderKey in Letters.lean). -/
  ownSseq : Tbl Nat := []
  /-- sptr, by 16 × port + direction (R180). -/
  sptr : Tbl Nat := []
  /-- UNREACHABLE notices of the last 64 Rounds: (SRC, rack, Round) (R177). -/
  unreach : List (Nat × Nat × Nat) := []
  /-- The holdoff table of 4,096 entries: (SRC, output, Round) (R197). -/
  holdoff : List (Nat × Nat × Nat) := []
  /-- SLOW and LOSS notices not yet sent (R196, R197). -/
  notices : Tbl Notice := []
  /-- The number of the next notice (R197). -/
  nextNotice : Nat := 0
  /-- SLOW scopes obeyed by the offices (R198). -/
  obeyed : List SlowScope := []
  /-- The hemispheres' reorder units (R192). -/
  reorder : Tbl Reorder := []
  /-- Round in which a letter was last looked up, by destination rack (R201). -/
  lookedRack : Tbl Nat := []
  /-- Round in which a letter was last looked up, by 2²⁴ × PLOT + DEST (R201). -/
  lookedPlot : Tbl Nat := []
  /-- RTE_DRAIN.DRAINING: a COMMIT has returned DRAIN_REQUIRED and the bank is not switched (R204). -/
  draining : Bool := false
  /-- A COMMIT has returned DRAIN_REQUIRED in this Round: from the next boundary each removal then staged is DRAINING (R202). -/
  drainArmed : Bool := false
  /-- The spray links that are DRAINING, as (direction, link) (R202). -/
  drainLinks : List (Nat × Nat) := []
  deriving DecidableEq, Repr

/-! ### Staged configuration (12, R333) and what it commits -/

/-- A rack table entry (R175). -/
structure RackEntry where
  valid : Bool := false
  dir : Nat := 0
  deriving DecidableEq, Repr

/-- OFF_CFG of an office (R239). -/
structure OffCfg where
  stealScope : Nat := 2
  bundleLimit : Nat := 0x10
  deriving DecidableEq, Repr

/-- The staged register fields that have one instance (R12, R55, R117, R171, R204, R287, R411). `merPrio` none is the default of R43. -/
structure Regs where
  chronInterval : Nat := 3
  merPrio : Option Nat := none
  gmTrim : Int := 0
  rekeyLog2 : Nat := 0x16
  copyCells : Nat := 0x4000
  gapTimeout : Nat := 0x40
  transitShare : Nat := 4
  drainQuiet : Nat := 0x10
  slowHoldoff : Nat := 8
  slowHi : Nat := 0x200
  slowStop : Nat := 0x800
  slowDuration : Nat := 0x10
  captureGib : Nat := 8
  captureHalf : Nat := 0
  captureTier : Nat := 0
  rampUp : Nat := 0x1A
  rampDown : Nat := 0x1A
  accRamp : Nat := 0xA
  smoothEn : Bool := true
  capAckTimeout : Nat := 0x40
  coolTMax : Nat := 0x2D
  deriving DecidableEq, Repr

/-- A bank of configuration: the Atlas, Plots, slot maps, sessions, windows, staged registers and loaded programs (R200, R333). Keys: rack
by DEST[23:12]; spray by 16 × direction + link (default weight 1); slot by 200 × output + slot. -/
structure Bank where
  rack : Tbl RackEntry := []
  spray : Tbl Nat := []
  mask : Tbl (BitVec 128) := []
  plot : Tbl PlotEntry := []
  slot : Tbl SlotEntry := []
  copy : Tbl CopySession := []
  window : Tbl WindowRec := []
  asym : Tbl Int := []
  lane : Tbl LaneCfg := []
  groupIndex : Tbl Nat := []
  off : Tbl OffCfg := []
  regs : Regs := {}
  /-- Loaded programs by first slot, 32–63 (R233). -/
  prog : Tbl (Option Program) := []
  deriving DecidableEq, Repr

/-- A staged group open with its placement (R244, R245). -/
structure StagedOpen where
  record : GroupRec
  members : List MemberEntry
  office : Nat
  pages : Nat
  entry : Nat
  deriving DecidableEq, Repr

/-- The staging bank (R333–R335). -/
structure Staging where
  holder : Option Box := none
  bank : Bank := {}
  items : Nat := 0
  opens : List StagedOpen := []
  /-- The close list: group and whether the close was made under member authority (R334). -/
  closes : List (Nat × Bool) := []
  /-- Of each program loaded or unloaded: INFO of the measurement log and the measurement m (R357, R358). -/
  progDigests : List (Nat × List Byte) := []
  /-- The Round in which an item was last staged (R333). -/
  lastRound : Nat := 0
  /-- The Round of a COMMIT that has returned OK for a boundary still to come (R335). -/
  sealed : Option Nat := none
  /-- The COMMIT named its Round (a timed action, R47) rather than asking for the next boundary. -/
  sealedTimed : Bool := false
  /-- The COMMIT was a COMMIT_FORCE (R203). -/
  forced : Bool := false
  deriving DecidableEq, Repr

/-! ### Sorting offices (08) -/

/-- A bundle descriptor (R212). -/
structure Bundle where
  group : Nat
  step : Nat
  index : Nat
  prog : Nat
  noRemote : Bool
  retry : Bool
  phase : Nat
  entry : Nat
  inBase : Nat
  inSize : Nat
  outBase : Nat
  outSize : Nat
  constBase : Nat
  s0 : BitVec 32
  s1 : BitVec 32
  s2 : BitVec 32
  s3 : BitVec 32
  /-- The global number of the clerk in whose queue the sequencer placed it (R214, R216). -/
  home : Nat
  deriving DecidableEq, Repr

/-- Clerk states in the code order of CLERK_STATUS.STATE (R239). -/
inductive ClerkState where
  | idle | own | foreign | stealing
  deriving DecidableEq, Repr

/-- A clerk (R208): V registers by number (lane 0 first, absent = zeros), M, A, S, loops and draws. -/
structure Clerk where
  state : ClerkState := .idle
  queue : List Bundle := []
  bundle : Option Bundle := none
  /-- The office whose SRAM the bundle works on (R218). -/
  home : Nat := 0
  /-- V registers, 64 lanes of 32 bits each (R208). -/
  v : Tbl (List (BitVec 32)) := []
  /-- What each lane of a V register was last written with: 0 nothing yet, 1 FP32, 2 INT32 (R210, R223). -/
  kind : Tbl (List Nat) := []
  /-- Mask registers M0–M3, 64 bits (R208). -/
  m : Tbl (BitVec 64) := []
  /-- Address registers A0–A7, 25 bits (R208). -/
  a : Tbl Nat := []
  /-- Scalar registers S0–S7, 32 bits (R208). -/
  s : Tbl (BitVec 32) := []
  /-- Open loops, innermost first: the body's first instruction and the runs left (R210). -/
  loops : List (Nat × Nat) := []
  /-- Random draws made, by lane (R210, R222). -/
  draws : Tbl Nat := []
  /-- The next instruction (R208). -/
  pc : Nat := 0
  /-- Issue cycles of the bundle (R215, R424). -/
  issued : Nat := 0
  /-- Issue cycles since the last period sample (R425). -/
  sinceSample : Nat := 0
  /-- Press jobs outstanding (R229). -/
  outstanding : Nat := 0
  /-- Waits for the press (R210, R229). -/
  waiting : Bool := false
  /-- Since when it waits in PWAIT or DONE, ns: such a wait is part of the bundle's issue cycles (R210). -/
  waitSince : Option Nat := none
  /-- Cycles that the bundle has waited in PWAIT and DONE (R210, R215). -/
  waited : Nat := 0
  /-- The OUT window as it was when the bundle began: what a bundle that parity stops goes back to (R214). -/
  saved : List Byte := []
  /-- When the 16 cycles of the last steal end, ns (R217, R239). -/
  stealUntil : Nat := 0
  /-- The instruction last issued: its bundle, its index from the first slot, and whether the bundle was stolen from another office (R427). -/
  last : Option (Bundle × Nat × Bool) := none
  deriving DecidableEq, Repr

/-- A press job (R228), with the clerk that submitted it and its bundle. -/
structure Job where
  mode : Nat
  fmtA : Nat
  fmtOut : Nat
  rnd : Nat
  accum : Bool
  resid : Bool
  rank : Nat
  rows : Nat
  inner : Nat
  outer : Nat
  aAddr : Nat
  bAddr : Nat
  cAddr : Nat
  blockSeed : BitVec 64
  clerk : Nat
  bundle : Bundle
  deriving DecidableEq, Repr

/-- Office states in the code order of OFF_STATUS.STATE (R239). -/
inductive OffState where
  | gated | ready | running | closed
  deriving DecidableEq, Repr

/-- A sorting office (R205–R218, R229, R239). -/
structure Office where
  state : OffState := .gated
  sram : Memory := []
  /-- The queue filled last (R216), and the group turn of R248 as (entry, bundles left). -/
  lastQueue : Nat := 31
  /-- The group turn of R248: entry and bundles left. -/
  turn : Nat × Nat := (0, 0)
  /-- The press's queue of 32 jobs (R229). -/
  jobs : List Job := []
  /-- The press job under way (R229). -/
  running : Option Job := none
  /-- DUMMY work asked for by the smoother ends, ns (R229, R239). -/
  dummyUntil : Nat := 0
  /-- Data pages held by groups: (group entry, first page, pages), in the order of their placement (R206, R245). -/
  regions : List (Nat × Nat × Nat) := []
  /-- Program slots 0–31 are being loaded again from firmware (R238, R366). -/
  reloading : Bool := false
  /-- When the office was last sampled (R425). -/
  sampleNs : Option Nat := none
  /-- Events counted toward the next event sample (R425). -/
  eventCount : Nat := 0
  /-- Since when the office's queues have been empty, ns; none while one holds a descriptor (R217). -/
  emptySince : Option Nat := some 0
  deriving DecidableEq, Repr

/-! ### Groups (09) -/

/-- Group states in the code order of GRP_STATUS.STATE (R246, R266). -/
inductive GState where
  | free | staged | running | closing | closed
  deriving DecidableEq, Repr

/-- What is known of one axis pass of the present step (R253, R254, R261). -/
structure Pass where
  /-- Bytes of the pass received, by offset, and the offsets and lengths of the letters that brought them. -/
  data : Memory := []
  /-- Offsets and lengths of the letters that brought the pass (R254). -/
  parts : List (Nat × Nat) := []
  /-- The STEP_MARK of the pass has arrived (R254). -/
  mark : Bool := false
  /-- The Round in which the pass's first input arrived (R261). -/
  timer : Option Nat := none
  /-- This module's own STEP_MARK of the pass has been sent. -/
  sent : Bool := false
  /-- The STEP_MARK received carried a failing status, or the wait has expired: own input stands for the line so far (R262). -/
  failed : Bool := false
  deriving DecidableEq, Repr

/-- A missing or late entry of a notice (R256, R263). -/
structure Named where
  ref : Nat
  lateness : Nat
  missing : Bool
  host : Bool
  deriving DecidableEq, Repr

/-- A group table entry (R240–R266). -/
structure Group where
  state : GState := .free
  record : Option GroupRec := none
  members : List (Nat × MemberEntry) := []
  pendingMembers : List (Nat × MemberEntry) := []
  office : Nat := 0
  pages : Nat := 0
  inBase : Nat := 0
  outBase : Nat := 0
  step : Nat := 0
  /-- 0 waiting, 1 in-rack, 2 x, 3 y, 4 z, 5 distributing (R266). -/
  level : Nat := 0
  /-- A step is launched and has not ended; a step has been launched since the open (R252). -/
  launched : Bool := false
  /-- A step has been launched since the open (R252). -/
  began : Bool := false
  /-- The present step has made progress (R252). -/
  progress : Bool := false
  /-- The Round of the launch (R252, R264). -/
  launchRound : Nat := 0
  /-- Lines of the shard arrived, by slot (R251), and the Round of the member's last line (R264). -/
  lines : Tbl (List Nat) := []
  /-- The Round of each member's last line (R264). -/
  lastLine : Tbl Nat := []
  /-- The Round in which the level's first input arrived (R261). -/
  timer : Option Nat := none
  /-- The in-rack level is complete (R253). -/
  inRackDone : Bool := false
  /-- Contributions to the next step written to the spill area: slot, byte offset in the step's data, bytes (R251). -/
  spillBytes : List (Nat × Nat × List Byte) := []
  /-- The data of the level reached, as this module holds it (R253, R254). -/
  levelData : List Byte := []
  /-- The in-rack level's own result, kept for SCAN and the residual (R232, R253). -/
  rackData : List Byte := []
  /-- Chain letters sent by direction: the next takes the next link of ROUTE_LINKS (R254). -/
  linkTurn : Tbl Nat := []
  /-- Phase under way, bundles of it issued and done (R213). -/
  phase : Nat := 0
  /-- Bundles of the phase issued (R213). -/
  bundlesIssued : Nat := 0
  /-- Bundles of the phase done (R213). -/
  bundlesDone : Nat := 0
  /-- Passes of the chain levels, by pass (R253, R254). -/
  passes : Tbl Pass := []
  /-- Step outcome so far: status, CAUSE, missing entries, results withheld (R256, R262). -/
  status : Status := .ok
  /-- The CAUSE of the outcome (R262). -/
  cause : Nat := 0
  /-- The members named in the notice (R263). -/
  named : List Named := []
  /-- Members missing (R262). -/
  missing : Nat := 0
  /-- Results are withheld (R262). -/
  withheld : Bool := false
  /-- The step's end is due at the boundary (R252). -/
  endDue : Bool := false
  /-- Tokens that a DISPATCH step dropped, by their source member (R258, R263). -/
  dropped : Tbl Nat := []
  /-- The slot map of a DISPATCH step: (destination, slot, source, token, gate) (R259). -/
  slotMap : List (Nat × Nat × Nat × Nat × BitVec 32) := []
  /-- The step whose slot map it is (R259). -/
  slotStep : Option Nat := none
  /-- STEP_BYTES as opened; the record in force holds CAP × TOK_BYTES for a COMBINE (R242, R260). -/
  stepBytesGiven : Nat := 0
  /-- Chain letters and STEP_MARKs delivered for a step still to launch, in their order of arrival (R139, R254). -/
  chainAhead : List (Header × List Byte) := []
  /-- The next axis level waits for timed service (R265). -/
  axisHeld : Bool := false
  /-- The Round of the last late report (R264). -/
  lateReport : Option Nat := none
  deriving DecidableEq, Repr

/-! ### CXL port and memory (10) -/

/-- A UIO request outstanding (R277). -/
structure Uio where
  window : Nat
  /-- The ring unit it writes, as the absolute position of its first byte; none for the ring header. -/
  unit : Option Nat
  /-- It repeats a unit with BAD set (R429). -/
  rewrite : Bool
  /-- When the request was made, ns (R276). -/
  startNs : Nat
  deriving DecidableEq, Repr

/-- The state bits of a second-tier window (R276). -/
structure Window where
  disabledLink : Bool := true
  disabledTimeout : Bool := false
  fails : Nat := 0
  deriving DecidableEq, Repr

/-- A record of the capture ring that the published index has not passed (R278, R429). Positions are absolute: ring offset plus RING_BYTES
times the wraps so far. -/
structure CapRec where
  kind : Nat
  at_ : Nat
  len : Nat
  bad : Bool
  /-- REC_SEQ; 0 for a PAD. -/
  seq : Nat
  deriving DecidableEq, Repr

/-- The function that the port presents (R268): BAR0's width in bits, its bytes and whether it is prefetchable, how many other BARs and MSI-X
vectors there are, and which of CXL.io, CXL.cache, CXL.mem, HDM decoders, virtual functions and link encryption its DVSECs offer. -/
structure CxlFunction where
  bar0Bits : Nat := 64
  bar0Bytes : Nat := 65536
  bar0Prefetch : Bool := false
  otherBars : Nat := 0
  vectors : Nat := 8
  io : Bool := true
  cache : Bool := false
  mem : Bool := false
  hdm : Bool := false
  virtual : Bool := false
  ide : Bool := false
  deriving DecidableEq, Repr

/-- The CXL port and the host window (R267–R279). -/
structure Cxl where
  /-- What the port presents to the host (R268). -/
  func : CxlFunction := {}
  /-- CXL_PERST_N is asserted. -/
  perst : Bool := false
  /-- RESET_UNIT holds the port in reset (R383). -/
  unitHeld : Bool := false
  training : Bool := true
  /-- The link is in L1, as in ST3 (R386). -/
  l1 : Bool := false
  /-- The trained mode of R267; 0 while the link is down. -/
  mode : Nat := 0
  /-- STATUS_SEQ of the status page (R273). -/
  statusSeq : Nat := 0
  /-- The status page as last rewritten (R273), by word offset. -/
  page : Tbl Word := [(5, 0x3E8)]
  /-- The link has not reached L0 since the last reset, of the module or of the port: the page stands still (R274). -/
  pageHeld : Bool := true
  /-- HB_PRODUCE, by box (R275, R327). -/
  produce : Tbl Nat := []
  /-- EVENT_CONSUME (R275, R340). -/
  eventConsume : Nat := 0
  /-- TELE_CONSUME (R275, R427). -/
  teleConsume : Nat := 0
  /-- MSI-X table entries by vector (R275); unlisted entries are 0 with the mask bit set. -/
  msix : Tbl (BitVec 128) := []
  /-- The pending bit array (R275). -/
  pba : BitVec 8 := 0
  /-- Vectors raised in the present Round (R275). -/
  raised : BitVec 8 := 0
  /-- The four second-tier windows (R276). -/
  windows : Tbl Window := []
  /-- UIO requests outstanding (R277). -/
  uio : Tbl Uio := []
  /-- The number of the next UIO request (R277). -/
  nextUio : Nat := 0
  deriving DecidableEq, Repr

/-- A memory test's claim (R285): lo and length, or the whole half. -/
structure MemClaim where
  whole : Bool
  lo : Nat
  len : Nat
  deriving DecidableEq, Repr

/-- A request that waits in a half (R283): its class, 0 protection, 1 data service, 2 diagnostics; of a data-service request its owner, 0 letter spill
or 1 + the table entry of a group; and the bytes still to move. -/
structure MemReq where
  cls : Nat
  owner : Nat
  bytes : Nat
  deriving DecidableEq, Repr

/-- A half of the GDDR7 controller (R280–R287). State codes: 0 training, 1 active, 2 self-refresh, 3 off. -/
structure MemHalf where
  state : Nat := 0
  claims : List MemClaim := []
  mem : Memory := []
  /-- Mailbag spill reserved, bytes, by group (R245). -/
  mspill : Tbl Nat := []
  /-- A line of the diagnostics failed parity twice: the next MEM_READ answers with the parity flag (R282). -/
  diagParity : Bool := false
  /-- Requests that wait, in order of arrival (R283). -/
  waiting : List MemReq := []
  /-- The owner of the 4 KiB unit of data service under way, and the bytes left of it (R283). -/
  unit : Nat × Nat := (1, 0)
  /-- The group, as an owner, whose turn it is in mailbag spill, and the units left of its turn (R248). -/
  mailTurn : Nat × Nat := (0, 0)
  deriving DecidableEq, Repr

/-- The capture ring and its writer (R284, R429, R430). -/
structure Capture where
  records : List CapRec := []
  /-- Absolute positions of the next record and of the published index. -/
  place : Nat := 0
  /-- Absolute position of the published index (R278). -/
  published : Nat := 0
  /-- The writer's queue: bytes placed and not yet written, and the position of the first. -/
  queue : List Byte := []
  /-- Position of the queue's first byte (R284). -/
  queueAt : Nat := 0
  /-- Units written for records that the index has not passed, by position: what a rewrite with BAD set repeats. -/
  units : Tbl (List Byte) := []
  /-- Units that are to be rewritten with BAD set (R429). -/
  rewrites : List Nat := []
  /-- Since when a unit of the ring is part-filled (R429). -/
  partialSince : Option Nat := none
  /-- The ring header as last written; empty before the first publication. -/
  header : List Byte := []
  /-- Units written (R429). -/
  written : Nat := 0
  /-- Records dropped (R284, R429). -/
  dropped : Nat := 0
  /-- REC_SEQ of the next record (R429). -/
  seq : Nat := 0
  /-- Copies dropped, by session (R284). -/
  sessionDropped : Tbl Nat := []
  /-- The Round in which the writer's queue last offered a credit (R166, R284). -/
  creditRound : Nat := 0
  /-- ADC_CAP: lane, BURSTS, claim held, bursts left, bursts written, first sample of the burst under way (ns), and a burst that waits for
  queue space with the Round since which it waits (R430). -/
  adcLane : Nat := 0
  /-- ADC_CAP.BURSTS (R430, R431). -/
  adcBursts : Nat := 0
  /-- The ADC claim is held (R72, R430). -/
  adcBusy : Bool := false
  /-- Bursts left (R430). -/
  adcLeft : Nat := 0
  /-- Bursts written: DONE_BURSTS (R430, R431). -/
  adcDone : Nat := 0
  /-- First sample of the burst under way, ns (R430). -/
  adcSince : Nat := 0
  /-- A burst that waits for room (R430). -/
  adcWait : Option (Nat × List Byte) := none
  deriving DecidableEq, Repr

/-! ### Postmaster (11) -/

/-- Voter modes in the code order of TRIAD_STATUS.MODE (R290, R319). -/
inductive Triad where
  | triplex | duplex | simplex | none
  deriving DecidableEq, Repr

/-- What an input word of the Triad tells (R289): the non-maskable event of a failover with the failed source (R375), the expiry of a timer,
a command that a box has taken, or a pin that changed, ACC_ERR_N[i]. -/
inductive TriadInput where
  | nmi (src : Nat)
  | timer (t : Nat)
  | box (b : Nat)
  | pin (i : Nat)
  deriving DecidableEq, Repr

/-- An input word as the replicator delivers it (R289): what it tells, and one parity bit for each of its bytes. -/
structure InputWord where
  what : TriadInput
  parity : List Bool
  deriving DecidableEq, Repr

/-- A Triad channel (R291–R295). Reintegration stage: 0 none, 1 self-test, 2 copy, 3 waits for the boundary,
4 the pause. -/
structure Chan where
  /-- The input words delivered since the last boundary (R289). -/
  inputs : List InputWord := []
  /-- The Round in which the present reintegration stage was entered (R295). -/
  stageRound : Nat := 0
  inService : Bool := true
  verified : Bool := true
  forGood : Bool := false
  retires : List Nat := []
  stage : Nat := 0
  deriving DecidableEq, Repr

/-- A postmaster timer (R317). -/
structure Timer where
  cls : ClaimClass
  expiry : Nat
  order : Nat
  deriving DecidableEq, Repr

/-- A self-test item's record in the health report (R300): last Round, result code 0 PASS, 1 FAIL, 2 NOT_RUN, failures. -/
structure TestItem where
  last : Nat := 0
  result : Nat := 2
  fails : Nat := 0
  deriving DecidableEq, Repr

/-- Tray roles in the code order of R300. -/
inductive Role where
  | lead | standby | sole
  deriving DecidableEq, Repr

/-- A command waiting in a post box (R328). -/
structure Waiting where
  ctx : Ctx
  opcode : Nat
  /-- A letter's class, PLOT and REPLY_ADDR, for its completion (R325). -/
  cls : Nat
  /-- The letter's PLOT (R325). -/
  plot : Nat
  /-- The letter's REPLY_ADDR (R325). -/
  replyAddr : Nat
  /-- The first part's header, the whole body and the signature, for the checks at acceptance (R330 step 5, R364). -/
  env : Option Envelope := none
  body : List Byte := []
  sig : List Byte := []
  deriving DecidableEq, Repr

/-- The postmaster's Triad, roll call, tray duties and timers (R288–R319). -/
structure Pm where
  chans : Tbl Chan := []
  /-- The private RAM of a channel (R288), 8 MiB: the code that the boot chain has loaded (R349); what the firmware writes there is its own. -/
  rams : Tbl Memory := []
  /-- A channel's architectural registers (R288), as the last pause of R295 copied them; their number and use are the core's own. -/
  cores : Tbl (List (BitVec 64)) := []
  /-- The word that the input replicator latched last (R289). -/
  latch : Option InputWord := none
  holding : Bool := false
  diagnosing : Bool := false
  /-- The Triad has entered NONE (R290). -/
  noneMode : Bool := false
  /-- PM_STATUS.RESTARTS (R296, R319). -/
  restarts : Nat := 0
  /-- Rounds of the restarts within 60 s (R298). -/
  restartRounds : List Nat := []
  /-- POSTMASTER_ABSENT (R297, R303). -/
  absent : Bool := false
  /-- ABSENT clears at the next boundary (R297). -/
  absentClearDue : Bool := false
  /-- A restart is due (R296). -/
  restartDue : Bool := false
  /-- The first Round in which it may begin (R296, R337). -/
  restartFrom : Nat := 0
  /-- The boot chain has passed in the restart under way (R296, R349). -/
  chainDone : Bool := false
  /-- Single-bit errors that RAM_SCRUB has corrected (R299). -/
  scrubErrors : Nat := 0
  /-- The Round of the watchdog's last service (R296). -/
  aliveRound : Nat := 0
  /-- TRIAD_MISMATCH (R291, R319). -/
  mismatch : Nat := 0
  /-- The self-test items (R299, R300). -/
  tests : Tbl TestItem := []
  /-- HEALTH_SEQ (R300). -/
  healthSeq : Nat := 0
  /-- The health report last built (R301). -/
  lastHealth : List Byte := []
  /-- The Round in which it was last sent (R301). -/
  healthSentRound : Nat := 0
  /-- The report is to be sent (R301). -/
  healthDue : Bool := false
  /-- LEAD, STANDBY or SOLE (R309, R312): TRAY_ROLE.ROLE. -/
  role : Role := .lead
  /-- LEAD_EPOCH (R312, R313). -/
  epoch : Nat := 0
  /-- ACC_LOST by home accelerator (R311, R319). -/
  accLost : BitVec 16 := 0
  /-- Home accelerators whose ACC_ERR pin is asserted (R300, R311). -/
  accErr : BitVec 16 := 0
  /-- The last Round in which a condition of R311 held for a home accelerator. -/
  accBad : Tbl Nat := []
  /-- PATH1_SILENT (R312). -/
  path1 : Bool := false
  /-- PATH2_SILENT (R312). -/
  path2 : Bool := false
  /-- PARTNER_LOST (R312). -/
  partnerLost : Bool := false
  /-- The Round of the last partner heartbeat on path 1 (R312). -/
  hb1Round : Nat := 0
  /-- The Round of the last partner heartbeat on path 2 (R312). -/
  hb2Round : Nat := 0
  /-- TRAY_HB_OUT, which changes at each boundary (R302, R307). -/
  hbOut : Bool := false
  /-- The standby takes the lead at the next boundary (R312). -/
  takeoverDue : Bool := false
  /-- The boundary at which the partner was last declared lost (R312). -/
  lostRound : Nat := 0
  /-- The partner's last roll record on the P links (R312). -/
  partnerRoll : Option RollRecord := none
  /-- The partner's last roll record on the sideband (R307, R312). -/
  partnerSideRoll : Option RollRecord := none
  /-- The partner's last roll record on either path (R44, R312). -/
  partnerLast : Option RollRecord := none
  /-- The Round since which the lead's record shows POSTMASTER_ABSENT (R312). -/
  absentSince : Option Nat := none
  /-- STANDBY_DIVERGED (R310). -/
  diverged : Bool := false
  /-- Consecutive reports that did not match (R310). -/
  mismatches : Nat := 0
  /-- The Round of the first of them (R310). -/
  firstMismatch : Nat := 0
  /-- Consecutive reports that matched (R310). -/
  matches_ : Nat := 0
  /-- The Round by which the lead copies its tray state to the standby (R310, R313). -/
  copyDue : Option Nat := none
  /-- TRAY_STATE_READ has gone to the lead's PM0 for it (R310, R325). -/
  copyAsked : Bool := false
  /-- The lead's tray state as copied (R310). -/
  trayCopy : List Byte := []
  /-- The partner's health report (R301). -/
  partnerHealth : Option (List Byte) := none
  /-- The ACC_NOTEs of the home accelerators (R311). -/
  accNotes : Tbl (List Byte) := []
  /-- TRAY_CAPs unanswered: (record, last sent Round, the command's box) (R394). -/
  trayCaps : List (TrayCap × Nat × Option Ctx) := []
  /-- STANDING_ORDERS (R314, R315). -/
  standing : Bool := false
  /-- Meridian time of the last arrival counted by R314 from the rack manager and from the fabric manager. -/
  rackHeard : Nat := 0
  /-- Meridian time of the last arrival counted by R314 from the fabric manager. -/
  fabHeard : Nat := 0
  /-- The manager whose arrival ends standing orders, 0 rack and 1 fabric (R316). -/
  standingExitDue : Option Nat := none
  /-- The Round of that arrival; standing orders end at the first boundary after it (R316). -/
  standingRound : Nat := 0
  /-- The 64 timers (R317). -/
  timers : Tbl Timer := []
  /-- The order of the next timer claim (R317). -/
  timerOrder : Nat := 0
  /-- What the last timer claim was told: status, OWNER_KIND and OWNER_ID (R317, R332). -/
  timerAns : Option (Status × Nat × Nat) := none
  /-- What the holder of the timer last pre-empted was told: status, OWNER_KIND and OWNER_ID (R317, R332). -/
  timerTold : Option (Status × Nat × Nat) := none
  /-- The timers whose expiries the last timer tick delivered, in Round order (R297, R317). -/
  expired : List Nat := []
  deriving DecidableEq, Repr

/-! ### Post boxes and the Geardo Mailbox Interface (12) -/

/-- A completion record and its response (R324). -/
structure Completion where
  tag : Nat
  opcode : Nat
  status : Status
  auth : Auth
  partAck : Bool
  cached : Bool
  ownerKind : Nat
  ownerId : Nat
  round : Nat
  detail : Nat
  response : List Byte
  deriving DecidableEq, Repr

/-- An assembly of parts (R323). -/
structure Assembly where
  tag : Nat
  src : Nat
  next : Nat
  count : Nat
  first : Envelope
  body : List Byte
  lastRound : Nat
  deriving DecidableEq, Repr

/-- An output word that the voter holds, a completion with where it goes (R292). -/
structure HeldOut where
  box : Box
  record : Completion
  src : Nat
  cls : Nat
  plot : Nat
  replyAddr : Nat
  deriving DecidableEq, Repr

/-- A post box (R320–R329). HB state codes: 0 IDLE, 1 ARRIVED, 2 ACCEPTED, 3 ASSEMBLING. -/
structure BoxState where
  waiting : List Waiting := []
  assembly : Option Assembly := none
  /-- An assembly was abandoned, by TAG and SRC: its next part completes with BAD_ARGUMENT (R323). -/
  abandoned : Option (Nat × Nat) := none
  /-- Completions kept, with their Rounds (R329). -/
  kept : List (Nat × Completion) := []
  /-- The box's last completion record (R324, R326). -/
  last : Option Completion := none
  /-- COMPLETE of a host box (R326, R327). -/
  complete : Nat := 0
  /-- STATE of a host box (R326). -/
  hbState : Nat := 0
  /-- BUFFER of a host box (R326). -/
  buffer : List Byte := []
  deriving DecidableEq, Repr

/-- An event record (R340). -/
structure Event where
  seq : Nat
  code : Nat
  severity : Nat
  status : Status
  round : Nat
  subject : Nat
  id : Nat
  detail : List Byte
  deriving DecidableEq, Repr

/-- The post-box engine, the event ring and the manager list (R320–R342). Boxes are keyed by number. -/
structure Gmi where
  boxes : Tbl BoxState := []
  /-- Alternation of R328: commands taken from HB, SB and FM boxes since the last AP or PM0 command. -/
  servedMain : Nat := 0
  /-- The HB, SB or FM box served last, from which the rotation goes on; 255 before the first (R328). -/
  lastMain : Nat := 255
  /-- The AP or PM0 box served last (R328). -/
  lastSmall : Nat := 255
  /-- The command accepted and not completed (R297, R328). -/
  executing : Option Waiting := none
  /-- Completions that the voter holds, oldest first (R292, R295, R318). -/
  held : List HeldOut := []
  /-- The manager list of at most 16 keys' boxes (R321). -/
  managers : List Nat := []
  /-- LAST_SEQ of signed commands (R364). -/
  lastSeq : Nat := 0
  /-- SEQ_FLOOR, kept in the persistent store (R364). -/
  seqFloor : Nat := 0
  /-- The SEQ of the next event (R340). -/
  eventSeq : Nat := 0
  /-- EVENT_PRODUCE (R340). -/
  eventProduce : Nat := 0
  /-- The events in the ring (R340). -/
  ring : List Event := []
  /-- The event log of the last 1,024 events (R340). -/
  log : List Event := []
  /-- Alerts raised and not acknowledged: (code, Round) (R342). -/
  alerts : List (Nat × Nat) := []
  /-- Signed administration: the grid assignment waiting for its boundary (R475). -/
  gridPending : Option (List Nat) := none
  /-- The Round in which it was accepted (R475). -/
  gridRound : Nat := 0
  deriving DecidableEq, Repr

/-! ### Seal (13) -/

/-- Firmware slot states (R352). -/
inductive FwState where
  | empty | written | verified | trial | active | failed
  deriving DecidableEq, Repr

/-- A firmware slot of the boot control record (R352), with the bytes written. -/
structure FwSlot where
  state : FwState := .empty
  tries : Nat := 0
  /-- The end of the bytes written since the erase, and the bytes. -/
  written : Nat := 0
  /-- The bytes of the slot (R351). -/
  bytes : Memory := []
  /-- The slot holds the image of manufacture (Config.factoryHeader), but for the ranges written since, by offset and length. -/
  factory : Bool := false
  /-- Those ranges (R351). -/
  patched : List (Nat × Nat) := []
  deriving DecidableEq, Repr

/-- A measurement log entry (R358). -/
structure LogEntry where
  seq : Nat
  slot : Nat
  round : Nat
  info : Nat
  m : BitVec 512
  deriving DecidableEq, Repr

/-- The Seal (R343–R367). -/
structure SealUnit where
  halt : Bool := false
  keysPresent : Bool := false
  /-- The wrapping key and the storage key, once this boot has reconstructed them (R343). -/
  wrapKey : Option (BitVec 256) := none
  storeKey : Option (BitVec 256) := none
  /-- Generation numbers of the two copies of a Seal area record (R345): 0 boot control, 1 authority, 2 anchors and revocations. -/
  copies : Tbl (Nat × Nat) := []
  /-- What the boot has loaded into offices and tiles and as defaults, by section TYPE 1 to 3 (R349, R350). -/
  sections : Tbl (List Byte) := []
  /-- SHA-512 of the TYPE 0 section measured at boot (R366). -/
  codeDigest : List Byte := []
  /-- The Round in which a runtime check last ran (R366): 0 known-answer tests, 1 code, 2 program stores. -/
  checks : Tbl Nat := []
  slot0 : FwSlot := { state := .active, factory := true }
  slot1 : FwSlot := {}
  bootSlot : Nat := 0
  fwVersion : Nat := 0
  step : Nat := 0
  /-- F, the fuses that read as blown (R356). -/
  fuses : Nat := 0
  /-- Blown cells of a fuse's group of three (R356). -/
  cells : Tbl Nat := []
  /-- A burn under way, up to this count (R356). -/
  burning : Option Nat := none
  /-- A burn is not complete (R356). -/
  burnDue : Bool := false
  burnRound : Nat := 0
  serviceSince : Nat := 0
  ledger : Tbl (BitVec 512) := []
  log : List LogEntry := []
  logCount : Nat := 0
  romMismatch : Bool := false
  /-- The enrolled fabric authority key: exponent and modulus (R361, R362). -/
  authority : Option (Nat × List Byte) := none
  /-- The anchors, at most 8 (R361, R362). -/
  anchors : List Anchor := []
  /-- The revocation list, at most 256 key digests (R363). -/
  revoked : List (List Byte) := []
  /-- Sequence floor log entries appended (R364). -/
  floorEntries : Nat := 0
  /-- The sequence floor log: 32,768 entries of 32 bytes, written round-robin (R364). -/
  floorLog : Tbl Nat := []
  /-- The model's own count of the random values drawn (Config.random32). -/
  draws : Nat := 0
  deriving DecidableEq, Repr

/-! ### Clocks and reset (14) -/

/-- A clock source's monitor record (R372–R374). -/
structure Src where
  ready : Bool := false
  failed : Bool := false
  lostEdges : Bool := false
  /-- The loss of edges lies in the window under way. -/
  fresh : Bool := false
  /-- Windows of 10 µs in a row with edges in which the source has not been failed, up to 16 (R374). -/
  good : Nat := 0
  deriving DecidableEq, Repr

/-- A monitor (R371, R384). -/
structure Mon where
  count : Nat := 0
  fails : Nat := 0
  pass : Bool := false
  deriving DecidableEq, Repr

/-- The clock unit and the reset pins (R368–R384). Sources: 0 REFCLK, 1 crystal, 2 FBO, 3 CXL_REFCLK. Domain codes as CLK_STATUS. -/
structure Clk where
  srcs : Tbl Src := []
  mons : Tbl Mon := []
  coreSrc : Nat := 1
  xtalSrc : Nat := 1
  holdCore : Bool := false
  holdXtal : Bool := false
  coreChosen : Bool := false
  xtalChosen : Bool := false
  ambiguous : Bool := false
  halt : Bool := false
  xtalOk : Bool := false
  xtalFailed : Bool := false
  /-- The sources that the verdict of the last window named (R372, R373). -/
  suspects : List Nat := []
  /-- RESET_CAUSE (R384). -/
  cause : Nat := 0
  /-- RESET_CAUSE.WARM_COUNT (R384). -/
  warmCount : Nat := 0
  /-- Held in reset by PWR_OK or RST_N; the RST_N reset has become cold (R380). -/
  pwrReset : Bool := false
  /-- RST_N is low (R380). -/
  rstLow : Bool := false
  /-- The RST_N reset has become cold (R380). -/
  rstCold : Bool := false
  /-- REFCLK did not start in time after the reset (R379). -/
  refTimeout : Bool := false
  /-- POS_ID as read at the reset (R24, R380; DESIGN CHOICE 0x80: log 12). -/
  posId : BitVec 8 := 0x80
  /-- POS_ID failed its parity check (R24). -/
  posBad : Bool := false
  /-- A unit reset in progress: 1 tile, 2 GDDR7 half, 3 CXL port, and its index (R383). -/
  unitReset : Option (Nat × Nat) := none
  /-- The TAP is held by TRST_N (R381). -/
  tapReset : Bool := true
  deriving DecidableEq, Repr

/-! ### Power (15) -/

/-- The commanded cap terms (R390), permille. -/
structure Terms where
  rack : Nat := 1000
  fabric : Nat := 1000
  host : Nat := 1000
  deriving DecidableEq, Repr

/-- A home accelerator (R390, R398–R400, R411). -/
structure AccCap where
  terms : Terms := {}
  drawW : Nat := 0xFFFF
  capSeq : Nat := 0
  acked : Bool := false
  ackedSeq : Nat := 0
  unacked : Bool := false
  resends : Nat := 0
  sentRound : Nat := 0
  refreshRound : Nat := 0
  /-- The payload of the current cap letter (R398). -/
  letter : List Byte := []
  /-- A letter is due: the link has been admitted, or the module has taken the lead. -/
  due : Bool := false
  /-- The effective cap last told, the schedule entry last announced (its AT_ROUND) and the cap announced for it (R398). -/
  known : Nat := 1000
  /-- The schedule entry last announced, by its AT_ROUND (R398). -/
  announced : Nat := 0
  /-- The cap announced for it (R398). -/
  pendingCap : Nat := 1000
  deriving DecidableEq, Repr

/-- A CAP_SET held for its boundary (R394): `timed` where it named its Round itself (R47). -/
structure TimedCap where
  round : Nat
  timed : Bool
  term : Nat
  scope : Nat
  index : Nat
  permille : Nat
  deriving DecidableEq, Repr

/-- A ladder change on its way (R387, R408): the state, the boundary from which it runs, the Round in which LEAVING was sent, and whether a
protective condition asks for it. -/
structure LadderMove where
  target : Nat
  atRound : Nat
  leavingRound : Option Nat
  protective : Bool
  deriving DecidableEq, Repr

/-- The power and sideband unit's governor (R385–R411). Power in W; `ceil`, `level` and the band in 1/1,000,000 W, in which
a W per ms is 1,024 per Round. -/
structure Pow where
  ladder : Nat := 0
  terms : Terms := {}
  rampMod : Nat := 1000
  rampAcc : Nat := 1000
  protect : Nat := 1000
  /-- The ceiling C, its target, and the rate at which it moves, W per ms (0 at once) (R391). -/
  ceil : Nat := 260000000
  /-- The rate at which C moves, W per ms; 0 at once (R391). -/
  moveRate : Nat := 0
  /-- L of the band (R395). -/
  level : Int := 260000000
  /-- lo of the band (R395). -/
  lo : Int := 0
  /-- hi of the band (R395). -/
  hi : Int := 260000000
  /-- C was changed at once at the last boundary (R395). -/
  jumped : Bool := false
  /-- The Round at whose boundary a protective term was last lowered (R53). -/
  protRound : Option Nat := none
  /-- The Round at which the present ramp step's window ends (R53, R403). -/
  stepWindowEnd : Nat := 0
  /-- OFFICE_DUTY, sixteenths withheld (R392). -/
  duty : Nat := 0
  /-- SUPPRESS, sixteenths of slots (R392). -/
  suppress : Nat := 0
  /-- Smoother fill, W (R397). -/
  fillW : Nat := 0
  /-- PIN_W: input power over the last Round, W (R411). -/
  pinW : Nat := 0
  /-- Since when the draw has been 26 W below hi, ns; since which Round it has been 26 W above C with every lever at its limit; CAP_UNMET has
  been raised for that (R392, R393). -/
  belowSince : Option Nat := none
  /-- The Round since which the draw has been 26 W above C with every lever at its limit (R393). -/
  overSince : Option Nat := none
  /-- CAP_UNMET has been alerted (R393). -/
  unmet : Bool := false
  /-- The Round in which the smoother last fell short (R397). -/
  shortRound : Option Nat := none
  /-- The home accelerators' caps (R390, R398). -/
  acc : Tbl AccCap := []
  /-- CAP_SETs held for their Round (R394). -/
  timedCaps : List TimedCap := []
  /-- SCHED_ID of the ramp schedule (R401). -/
  schedId : Nat := 0
  /-- The ramp schedule's entries not yet due (R401–R404). -/
  sched : List RampEntry := []
  /-- Index in its posting of the next entry, and the accelerators' RAMP term on the move: from, rate, and the Round it began (R403, R404). -/
  schedIndex : Nat := 0
  /-- The accelerators' RAMP term is moving (R403). -/
  schedMoving : Bool := false
  /-- The RAMP term from which it moves (R403). -/
  accFrom : Nat := 1000
  /-- Its rate, permille per ms (R403). -/
  accRate : Nat := 0
  /-- The Round in which the move began (R403). -/
  accStart : Nat := 0
  /-- A ladder move under way (R387, R388). -/
  move : Option LadderMove := none
  /-- A LADDER_SET held for its Round: the Round and the target (R408). -/
  timedLadder : Option (Nat × Nat) := none
  /-- The ladder state before a protective entry (R405). -/
  priorLadder : Nat := 0
  /-- The protective conditions in force and when each cleared (R405). -/
  droop52 : Bool := false
  /-- VIN_60 has been below 48 V and the condition has not cleared (R405). -/
  droop48 : Bool := false
  /-- Coolant causes in force, one bit each (R405, R443). -/
  coolant : BitVec 4 := 0
  /-- A die temperature above its limit (R405, R442). -/
  thermal : Bool := false
  /-- The thermal trip has acted (R405, R442). -/
  tripped : Bool := false
  /-- The orderly stop has begun: VIN_60 has fallen below 44 V, or PWR_EN has fallen (R405, R451). -/
  stopping : Bool := false
  /-- It began with PWR_EN alone, so that an exit needs no start sequence (R451). -/
  stopByEn : Bool := false
  /-- Rounds of the last detection of a droop, a coolant fault and an excess temperature. -/
  droopRound : Nat := 0
  /-- The Round of the last detection of a coolant fault (R405). -/
  coolRound : Nat := 0
  /-- The Round of the last detection of an excess temperature (R405). -/
  thermRound : Nat := 0
  /-- 0 dry, 1 wet, 2 SENSOR_FAULT (R443). -/
  leak : Nat := 0
  /-- LEAK is blocked until the line reads dry (R443). -/
  leakBlock : Bool := false
  /-- The leak holds the module in its protective state (R443). -/
  leakHold : Bool := false
  /-- LAD_STATUS.FROZEN: skeleton service holds the caps at 400 or below (R407). -/
  frozen : Bool := false
  /-- The smoother is filling (R397). -/
  smooth : Bool := false
  deriving DecidableEq, Repr

/-- Sensor readings and die sensors that have left the vote (R411, R442, R443). -/
structure Sensors where
  /-- The level of VIN_60 in mV (DESIGN CHOICE: log 12). -/
  vinMv : Nat := 60000
  /-- VIN_60 as LAD_INPUT shows it, in 10 mV, read at each boundary (DESIGN CHOICE: log 12). -/
  vinRead : Nat := 0
  /-- Input current, 10 mA: LAD_INPUT.IIN (R411). -/
  iin : Nat := 0
  /-- Voted West die temperature, °C (R442). -/
  dieWest : Int := 0
  /-- Voted East die temperature, °C (R442). -/
  dieEast : Int := 0
  /-- COOL_T, °C (R411, R460). -/
  coolT : Int := 0
  /-- LEAK_SNS, mV (R443, R459). -/
  leakMv : Nat := 0
  /-- FLOW_OK (R443). -/
  flowOk : Bool := false
  /-- Die sensors that have left the vote: hemisphere and index (R442). -/
  stuck : List (Nat × Nat) := []
  deriving DecidableEq, Repr

/-! ### Telemetry (16) -/

/-- A programmable counter (R417, R418, R431). -/
structure Pcnt where
  value : Nat := 0
  ctl : BitVec 64 := 0
  pendingValue : Option Nat := none
  pendingCtl : Option (BitVec 64) := none
  ovf : Bool := false
  wraps : Nat := 0
  ovfRound : Option Nat := none
  deriving DecidableEq, Repr

/-- A detail engine (R421, R422, R431). -/
structure Detail where
  port : Nat := 0
  running : Bool := false
  startDue : Bool := false
  stopDue : Bool := false
  phase : Nat := 0
  started : Nat := 0
  duration : Nat := 0
  order : Nat := 0
  deriving DecidableEq, Repr

/-- A telemetry record (R427). -/
structure TeleRec where
  seq : Nat
  kind : Nat
  round : Nat
  data : List Byte
  deriving DecidableEq, Repr

/-- A contour record (R420). Levels by 8 × port + VC; unlisted levels are 0. -/
structure Contour where
  round : Nat
  gridRef : Nat
  absent : Bool
  skeleton : Bool
  partialPeriod : Bool
  seq : Nat
  rounds : Nat
  slowSent : Nat
  levels : Tbl Nat
  deriving DecidableEq, Repr

/-- Telemetry and counters (R412–R432). -/
structure Tele where
  /-- Named and detail counters by ID (R413, R414). -/
  cnt : Tbl Nat := []
  /-- The snapshot bank of the named counters (R416). -/
  snap : Tbl Nat := []
  /-- PCNT values in the snapshot bank (R416, R431). -/
  snapPcnt : Tbl Pcnt := []
  /-- The Round for which a snapshot is armed (R416). -/
  snapArmed : Option Nat := none
  /-- CNT_SNAP.VALID (R416, R431). -/
  snapValid : Bool := false
  /-- SNAP_ROUND (R416, R431). -/
  snapRound : Nat := 0
  /-- The programmable counters (R417). -/
  pcnt : Tbl Pcnt := []
  /-- The contour records, newest last (R420). -/
  contours : List Contour := []
  /-- CONTOUR_SEQ (R420). -/
  contourSeq : Nat := 0
  /-- Peaks of q(p, v) in the present period (R419). -/
  peaks : Tbl Nat := []
  /-- Rounds counted in the present period (R420). -/
  periodRounds : Nat := 0
  /-- SLOW_SENT as the last period closed (R420). -/
  slowAtClose : Nat := 0
  /-- TELE_CFG in force (R428). -/
  cfg : TeleCfg := ⟨false, false, 32, 1024, 0, 0, [0, 0, 0, 0, 0, 0], true⟩
  /-- TELE_CFG that takes effect at the next boundary (R428). -/
  cfgNext : Option TeleCfg := none
  /-- The detail engines (R421). -/
  details : Tbl Detail := []
  /-- The order of the next detail phase (R421, R422). -/
  detailOrder : Nat := 0
  /-- SAMPLE_CFG.MODE (R425). -/
  sampleMode : Nat := 0
  /-- SAMPLE_CFG.EVENT (R425). -/
  sampleEvent : Nat := 0
  /-- SAMPLE_CFG.OFFICES (R425). -/
  sampleOffices : BitVec 8 := 0
  /-- SAMPLE_CFG's destination: the capture ring (R425). -/
  sampleCapture : Bool := false
  /-- SAMPLE_CFG.PERIOD (R425). -/
  samplePeriod : Nat := 1024
  /-- SAMPLE_CFG that takes effect at the next boundary (R425). -/
  sampleNext : Option (Nat × Nat × BitVec 8 × Bool × Nat) := none
  /-- TELE_PRODUCE (R427). -/
  produce : Nat := 0
  /-- TELE_LOST (R427). -/
  lost : Nat := 0
  /-- The SEQ of the next telemetry record (R427). -/
  seq : Nat := 0
  /-- The records in the telemetry ring (R427). -/
  ring : List TeleRec := []
  deriving DecidableEq, Repr

/-! ### Tray integration and faults (17, 18) -/

/-- Start states in the code order of PERMIT_STATE (R452, R454). -/
inductive Start where
  | keep | charging | starting | running | absent
  deriving DecidableEq, Repr

/-- A sideband frame waiting for a transmit opportunity (R457, R458). -/
structure Frame where
  kind : Nat
  box : Nat
  body : List Byte
  deriving DecidableEq, Repr

/-- A laser unit (R462, R463). -/
structure LaserUnit where
  /-- The dynamic address on the I3C bus, 0x10 + u by SETDASA; 0 before (R462). -/
  addr : Nat := 0
  /-- ENABLE as last written: a bit for each fibre (R462, R463). -/
  enable : BitVec 8 := 0
  /-- POWER_SET has been written (R462, R463). -/
  powerSet : Bool := false
  /-- Polls in a row not acknowledged (R463). -/
  nacks : Nat := 0
  /-- LASER_UNIT_FAULT has been raised and the cause lasts (R463). -/
  fault : Bool := false
  /-- STATUS as last polled (R462, R463). -/
  status : BitVec 16 := 0
  deriving DecidableEq, Repr

/-- The tray interface: input stage, permits, sideband, laser units and the persistent store (R439–R471). -/
structure Tray where
  /-- IDCODE, which the IEEE 1149.1 port reports (R470). -/
  idcode : BitVec 32 := 0x11024E2B
  /-- The start state (R452). -/
  start : Start := .running
  pwrEn : Bool := true
  pwrOk : Bool := true
  switchOpen : Bool := false
  /-- Hold-up capacitance in 10 µF units, measured (R453). -/
  holdup : Nat := 200
  /-- The PERMIT_ID in force (R454). -/
  permitId : Nat := 0
  /-- A grant waiting for PWR_EN: its PERMIT_ID and its end, ns (R454). -/
  permitWait : Option (Nat × Nat) := none
  /-- Frames waiting to be sent (R457, R458). -/
  frames : List Frame := []
  /-- The frames put on the segment in the last transmit opportunity (R458). -/
  sentFrames : List (List Byte) := []
  /-- FRAME_SEQ (R457). -/
  frameSeq : Nat := 0
  /-- A roll frame is due (R307, R458). -/
  rollDue : Bool := false
  /-- When a roll frame was last sent, ns (R307). -/
  rollNs : Nat := 0
  /-- When an alive frame was last sent, ns (R457). -/
  aliveNs : Nat := 0
  /-- The laser units on the I3C bus (R462, R463). -/
  units : Tbl LaserUnit := []
  /-- Journal: JSEQ and the bytes, and of each write to come its CAUSE and the Round and ladder state of its trigger (R465). -/
  jseq : Nat := 0
  /-- The journal's bytes (R465). -/
  journal : Memory := []
  /-- Journal writes to come: CAUSE, Round and ladder state of the trigger (R465). -/
  journalPending : List (Nat × Nat × Nat) := []
  /-- BB_SEQ (R466). -/
  bbSeq : Nat := 0
  /-- Events gathered for the next black-box block (R466). -/
  bbGathered : List Event := []
  /-- Since when they have been gathered (R466). -/
  bbSince : Nat := 0
  /-- The black box's bytes (R466). -/
  blackbox : Memory := []
  /-- 0 none, 1 taken, 2 first boundary done, 3 dark until cold reset (R439, R440). -/
  pull : Nat := 0
  /-- The Round in which the pull warning was taken. -/
  pullRound : Nat := 0
  /-- PULL_WARN_N is asserted, as R452 and R454 read it. -/
  pullWarn : Bool := false
  /-- Events that arose in KEEP or CHARGING (R471). -/
  deferredEvents : List Event := []
  deriving DecidableEq, Repr

/-- Identity and module-wide modes. -/
structure Ident where
  /-- X, Y, Z learned (R28, R121), axis lengths minus 1 and date lines (R204). -/
  learned : Bool := false
  /-- X (R28, R475). -/
  x : Nat := 0
  /-- Y (R28, R475). -/
  y : Nat := 0
  /-- Z (R28, R475). -/
  z : Nat := 0
  /-- LEN_X, axis length minus 1 (R204). -/
  lenX : Nat := 0
  /-- LEN_Y, axis length minus 1 (R204). -/
  lenY : Nat := 0
  /-- LEN_Z, axis length minus 1 (R204). -/
  lenZ : Nat := 0
  /-- DL_X, the date line of x (R183, R204). -/
  dlX : Nat := 0
  /-- DL_Y, the date line of y (R183, R204). -/
  dlY : Nat := 0
  /-- DL_Z, the date line of z (R183, R204). -/
  dlZ : Nat := 0
  /-- Skeleton service and its pending and present cause (R444). -/
  skeleton : Bool := false
  /-- The cause for which skeleton service begins at the next boundary (R444). -/
  skeletonDue : Option Nat := none
  /-- The present cause (R444, R446). -/
  skeletonCause : Nat := 0
  /-- The boot chain's progress: 0 in reset, 1 stages 1–5 passed, 2 stage 6 complete (R349). -/
  boot : Nat := 0
  /-- The boot under way follows a warm reset (R382). -/
  warmBoot : Bool := false
  /-- FAULT_N is asserted (R380, R446). -/
  fault : Bool := true
  /-- Every link is dark (R380, R440). -/
  dark : Bool := true
  deriving DecidableEq, Repr

/-- The state of the module and the commands that wait. -/
structure State where
  mer : Mer := {}
  lanes : Tbl Lane := []
  tiles : Tbl Tile := []
  links : Tbl Link := []
  sw : Sw := {}
  route : Route := {}
  bank : Bank := {}
  staging : Staging := {}
  offices : Tbl Office := []
  clerks : Tbl Clerk := []
  groups : Tbl Group := []
  cxl : Cxl := {}
  mem : Tbl MemHalf := []
  capture : Capture := {}
  pm : Pm := {}
  gmi : Gmi := {}
  trust : SealUnit := {}
  clk : Clk := {}
  pow : Pow := {}
  sens : Sensors := {}
  tele : Tele := {}
  tray : Tray := {}
  ident : Ident := {}
  /-- The model's own draw counter: which free value a step takes next (notes/assumptions/2.md). -/
  draw : Nat := 0
  /-- The commands waiting, first in, first out. -/
  pending : List Instr := []
  deriving DecidableEq, Repr

/-- What a command's own checks and action answer (R324, R330 step 8): its status and response, and the state it leaves. `later` says that
the completion comes with a later event (LANE_RETURN, R108); `lenAt` is the DETAIL of a response that does not fit its box. -/
structure Ans where
  status : Status := .ok
  ownerKind : Nat := 0
  ownerId : Nat := 0
  detail : Nat := 0
  response : List Byte := []
  lenAt : Nat := 0
  later : Bool := false
  post : State
  deriving DecidableEq, Repr

/-- Who answers a command now (R330 step 3, R343, R377, R389, R452): it runs, it is refused, or no box is there to take it. -/
inductive Gate where
  | run
  | refuse (st : Status)
  | silent
  deriving DecidableEq, Repr

/-- Why the machine stops. No command of the manual stops it, so no meaning raises a fault; the type is kept for the host's interface. -/
inductive Fault where
  /-- An access outside the address space of a memory of the module; raised by no meaning of this model (safe). -/
  | noSuchAddress
  deriving DecidableEq, Repr

/-- Why a command has no meaning. -/
inductive Refusal where
  /-- The command has no meaning yet in this model; raised by exec's arms only (safe). -/
  | notModelled (mnemonic : String)
  deriving DecidableEq, Repr

/-- The module right after reset: every field at its reset value. -/
def State.reset : State := {}

end Sys2Proof.Machine
end

