-- ==== Sys2Proof/Machine/Ops.lean ====
section
/-! DEFINITION. The named operations that the meanings share: tables, byte strings and memories, Meridian and Round arithmetic, draws of
free values, named and programmable counters, and the per-unit accessors of State. -/

namespace Sys2Proof.Machine

/-! ### Tables -/

variable {α : Type}

/-- The entry listed at an index. -/
def tfind : Tbl α → Nat → Option α
  | [], _ => none
  | (i, v) :: r, k => if i = k then some v else tfind r k

/-- The table with its entry at an index put in, the indexes kept rising. -/
def tput : Tbl α → Nat → α → Tbl α
  | [], k, v => [(k, v)]
  | (i, w) :: r, k, v =>
    if k < i then (k, v) :: (i, w) :: r else if k = i then (k, v) :: r else (i, w) :: tput r k v

/-- The table without any entry at an index. -/
def tdel : Tbl α → Nat → Tbl α
  | [], _ => []
  | (i, w) :: r, k => if i = k then tdel r k else (i, w) :: tdel r k

/-- What a table with default `d` holds at an index. -/
def tget (d : α) (t : Tbl α) (k : Nat) : α := (tfind t k).getD d

/-- The table with the value at an index set; an entry equal to the default is not listed. -/
def tset [DecidableEq α] (d : α) (t : Tbl α) (k : Nat) (v : α) : Tbl α :=
  if v = d then tdel t k else tput t k v

/-- The table with the value at an index changed by `f`. -/
def tmod [DecidableEq α] (d : α) (t : Tbl α) (k : Nat) (f : α → α) : Tbl α := tset d t k (f (tget d t k))

/-- The canonical form of a table: indexes strictly rising, no entry equal to the default. -/
def tblWf [DecidableEq α] (d : α) : Tbl α → Bool
  | [] => true
  | [(_, v)] => decide (v ≠ d)
  | (i, v) :: (j, w) :: r => decide (v ≠ d) && decide (i < j) && tblWf d ((j, w) :: r)

/-- The indexes strictly rise. -/
def tblRising : Tbl α → Bool
  | [] => true
  | [_] => true
  | (i, _) :: (j, w) :: r => decide (i < j) && tblRising ((j, w) :: r)

/-- `f` folded over the indexes 0 to n − 1. -/
def forIdx {σ : Type} (n : Nat) (f : σ → Nat → σ) (s : σ) : σ := (List.range n).foldl f s

/-! ### Byte strings and memories (R7: little-endian) -/

/-- The low `n` bytes of a number, least significant first (R7). -/
def leBytes : Nat → Nat → List Byte
  | 0, _ => []
  | n + 1, v => BitVec.ofNat 8 v :: leBytes n (v / 256)

/-- The number that a little-endian byte string spells (R7). -/
def leNat : List Byte → Nat
  | [] => 0
  | b :: r => b.toNat + 256 * leNat r

/-- The number that a big-endian byte string spells. -/
def beNat (l : List Byte) : Nat := l.foldl (fun a b => 256 * a + b.toNat) 0

/-- `n` zero bytes. -/
def zeros (n : Nat) : List Byte := List.replicate n 0

/-- The byte string cut or filled with zeros to `n` bytes. -/
def fit (n : Nat) (l : List Byte) : List Byte := (l ++ zeros (n - l.length)).take n

/-- `n` bytes of `l` from offset `a`, as zeros beyond its end. -/
def sliceAt (l : List Byte) (a n : Nat) : List Byte := fit n (l.drop a)

/-- The number in `n` bytes from offset `a` (R7). -/
def fieldAt (l : List Byte) (a n : Nat) : Nat := leNat (sliceAt l a n)

/-- Bits [hi:lo] of a number (R7). -/
def bitsOf (v hi lo : Nat) : Nat := v / 2 ^ lo % 2 ^ (hi + 1 - lo)

/-- One bit of a number. -/
def bitOf (v i : Nat) : Bool := v.testBit i

/-- 1 for true. -/
def bit (b : Bool) : Nat := if b then 1 else 0

/-- A signed value's two's complement in `w` bits. -/
def toSigned (w : Nat) (i : Int) : Nat := (i % (2 ^ w : Nat)).toNat

/-- The signed value of a `w`-bit two's complement field. -/
def ofSigned (w v : Nat) : Int := if v % 2 ^ w < 2 ^ (w - 1) then (v % 2 ^ w : Nat) else (v % 2 ^ w : Nat) - (2 ^ w : Nat)

/-- A byte memory in canonical form. -/
def Memory.wf (m : Memory) : Bool := tblWf (0 : Byte) m

/-- One byte of a memory; an unlisted address reads 0 (notes/assumptions/7.md). -/
def mget (m : Memory) (a : Nat) : Byte := tget (0 : Byte) m a

/-- One byte written. -/
def mset (m : Memory) (a : Nat) (v : Byte) : Memory := tset (0 : Byte) m a v

/-- `n` bytes from address `a`. -/
def mread (m : Memory) (a n : Nat) : List Byte := (List.range n).map fun i => mget m (a + i)

/-- Bytes written from address `a` upwards. -/
def mwrite (m : Memory) (a : Nat) : List Byte → Memory
  | [] => m
  | b :: r => mwrite (mset m a b) (a + 1) r

/-- The sum of a list of numbers. -/
def sumNat (l : List Nat) : Nat := l.foldl (· + ·) 0

/-- The least number of a list, where it has one. -/
def minNat? : List Nat → Option Nat
  | [] => none
  | a :: r => some (r.foldl min a)

/-- An element put before the first that it may precede. -/
def insertBy {α : Type} (le : α → α → Bool) (a : α) : List α → List α
  | [] => [a]
  | b :: r => if le a b then a :: b :: r else b :: insertBy le a r

/-- A list in the order of `le`; elements that precede each other keep their order. -/
def sortBy {α : Type} (le : α → α → Bool) : List α → List α
  | [] => []
  | a :: r => insertBy le a (sortBy le r)

/-- A signed value held within ±`m`. -/
def clampInt (m v : Int) : Int := if v > m then m else if v < -m then -m else v

/-- An integer quotient rounded to nearest, ties away from zero. -/
def divNear (a : Int) (b : Nat) : Int :=
  if a ≥ 0 then (2 * a + b) / (2 * b) else -((2 * (-a) + b) / (2 * b))

/-! ### Time (R32–R34) -/

/-- The present Round: Meridian[63:10] (R33). -/
def roundNo (s : State) : Nat := s.mer.ns / 1024

/-- One core cycle of the Meridian, 0.64 ns at RATE_ADJ 0, in units of 2⁻³² ns: numerator and denominator (R32, R40). Rates are in
1/512,000 ppb. -/
def cycleNum (rate : Int) : Nat := (64 * 2 ^ 32 * (512000000000000 + rate)).toNat

def cycleDen : Nat := 100 * 512000000000000

/-- The rate in force: none while the keeper counts (R35). -/
def rateNow (s : State) : Int := if s.mer.keeperRuns then 0 else s.mer.rate

/-- The Meridian in units of 2⁻³² ns. -/
def merTotal (s : State) : Nat := s.mer.ns * 2 ^ 32 + s.mer.frac

/-- The next boundary in the same units (R33). -/
def merNext (s : State) : Nat := (roundNo s + 1) * 1024 * 2 ^ 32

/-- The Meridian set, modulo its 64 bits and 32-bit fraction (R32). -/
def setMeridian (t : Nat) (m : Mer) : Mer := { m with ns := t / 2 ^ 32 % 2 ^ 64, frac := t % 2 ^ 32 }

/-- The core cycles left until the boundary cycle, the first on which the counter reaches the next Round (R33). -/
def cyclesLeft (s : State) : Nat := ((merNext s - merTotal s) * cycleDen + (cycleNum (rateNow s) - 1)) / cycleNum (rateNow s)

/-- The core cycles of the present Round, 1,598 to 1,602 (R33). -/
def roundCycles (s : State) : Nat := s.mer.cycle + cyclesLeft s

/-- The next boundary, or the one after it where the next is fewer than 128 cycles away (R51). -/
def nextSlotted (s : State) : Nat := if cyclesLeft s < 128 then roundNo s + 2 else roundNo s + 1

/-! ### Draws of free values -/

/-- The next free value, and the state with the draw counter advanced (notes/assumptions/2.md). -/
def drawFree (s : State) : Nat × State := (Config.freeNat s.draw, { s with draw := s.draw + 1 })

/-- A fresh random 32-byte value of the Seal (R112, R114). -/
def drawRandom (s : State) : List Byte × State :=
  (fit 32 (Config.random32 s.trust.draws), { s with trust := { s.trust with draws := s.trust.draws + 1 } })

/-! ### Units of State -/

def laneOf (s : State) (l : Nat) : Lane := tget {} s.lanes l
def setLane (s : State) (l : Nat) (v : Lane) : State := { s with lanes := tset {} s.lanes l v }
def modLane (s : State) (l : Nat) (f : Lane → Lane) : State := setLane s l (f (laneOf s l))
def monOf (s : State) (k : Nat) : Mon := tget {} s.clk.mons k

/-- REFCLK's COUNT over the last 10 µs window of the crystal (R35, R371); 16,000 before the first. -/
def crystalRatio (s : State) : Nat := if (monOf s 0).count = 0 then 16000 else (monOf s 0).count

def tileOf (s : State) (t : Nat) : Tile := tget {} s.tiles t
def modTile (s : State) (t : Nat) (f : Tile → Tile) : State := { s with tiles := tset {} s.tiles t (f (tileOf s t)) }
def linkOf (s : State) (p : Nat) : Link := tget {} s.links p
def setLink (s : State) (p : Nat) (v : Link) : State := { s with links := tset {} s.links p v }
def modLink (s : State) (p : Nat) (f : Link → Link) : State := setLink s p (f (linkOf s p))
def modTx (s : State) (p : Nat) (f : LinkTx → LinkTx) : State := modLink s p fun l => { l with tx := f l.tx }
def modRx (s : State) (p : Nat) (f : LinkRx → LinkRx) : State := modLink s p fun l => { l with rx := f l.rx }
/-- The flit type at position `i` of `n` (R89). -/
def flitType (i n : Nat) : Nat := if i = 0 then 1 else if i + 1 = n then 3 else 2

/-- SHARE in force: 0 means 4 (R242). -/
def groupShare (r : GroupRec) : Nat := if r.share = 0 then 4 else r.share

def egressOf (s : State) (p : Nat) : Egress := tget {} s.sw.egress p
def modEgress (s : State) (p : Nat) (f : Egress → Egress) : State :=
  { s with sw := { s.sw with egress := tset {} s.sw.egress p (f (egressOf s p)) } }
def chronOf (s : State) (p : Nat) : ChronPort := tget {} s.mer.ports p
def modChron (s : State) (p : Nat) (f : ChronPort → ChronPort) : State :=
  { s with mer := { s.mer with ports := tset {} s.mer.ports p (f (chronOf s p)) } }
def officeOf (s : State) (o : Nat) : Office := tget {} s.offices o
def modOffice (s : State) (o : Nat) (f : Office → Office) : State := { s with offices := tset {} s.offices o (f (officeOf s o)) }
def clerkOf (s : State) (k : Nat) : Clerk := tget {} s.clerks k
def setClerk (s : State) (k : Nat) (c : Clerk) : State := { s with clerks := tset {} s.clerks k c }
def modClerk (s : State) (k : Nat) (f : Clerk → Clerk) : State := setClerk s k (f (clerkOf s k))
def groupOf (s : State) (e : Nat) : Group := tget {} s.groups e
def setGroup (s : State) (e : Nat) (g : Group) : State := { s with groups := tset {} s.groups e g }
def modGroup (s : State) (e : Nat) (f : Group → Group) : State := setGroup s e (f (groupOf s e))
def memOf (s : State) (h : Nat) : MemHalf := tget {} s.mem h
def modMem (s : State) (h : Nat) (f : MemHalf → MemHalf) : State := { s with mem := tset {} s.mem h (f (memOf s h)) }
def chanOf (s : State) (c : Nat) : Chan := tget {} s.pm.chans c
def modChan (s : State) (c : Nat) (f : Chan → Chan) : State := { s with pm := { s.pm with chans := tset {} s.pm.chans c (f (chanOf s c)) } }
def dispOf (s : State) (c : Nat) : DispCh := tget {} s.sw.disp c
def modDisp (s : State) (c : Nat) (f : DispCh → DispCh) : State := { s with sw := { s.sw with disp := tset {} s.sw.disp c (f (dispOf s c)) } }

/-- The bytes of an input word as the model lays them out (R289 gives no layout; notes/assumptions/147.md). -/
def inputBytes : TriadInput → List Byte
  | .nmi i => 0 :: leBytes 3 i
  | .timer t => 1 :: leBytes 3 t
  | .box b => 2 :: leBytes 3 b
  | .pin i => 3 :: leBytes 3 i

/-- The parity bit of a byte (R289): set where an odd number of its bits are. -/
def parityOf (b : Byte) : Bool := (sumNat ((List.range 8).map fun i => bit (b.getLsbD i))) % 2 = 1

/-- An input is latched once and delivered to each channel in service (R289). -/
def deliverInput (i : TriadInput) (s : State) : State :=
  let w : InputWord := { what := i, parity := (inputBytes i).map parityOf }
  let s := { s with pm := { s.pm with latch := some w } }
  [0, 1, 2].foldl (fun s c => if (chanOf s c).inService then modChan s c fun x => { x with inputs := x.inputs ++ [w] } else s) s

def srcOf (s : State) (i : Nat) : Src := tget {} s.clk.srcs i
def modSrc (s : State) (i : Nat) (f : Src → Src) : State := { s with clk := { s.clk with srcs := tset {} s.clk.srcs i (f (srcOf s i)) } }
def accOf (s : State) (i : Nat) : AccCap := tget {} s.pow.acc i
def modAcc (s : State) (i : Nat) (f : AccCap → AccCap) : State := { s with pow := { s.pow with acc := tset {} s.pow.acc i (f (accOf s i)) } }
def boxOf (s : State) (b : Nat) : BoxState := tget {} s.gmi.boxes b
def modBox (s : State) (b : Nat) (f : BoxState → BoxState) : State := { s with gmi := { s.gmi with boxes := tset {} s.gmi.boxes b (f (boxOf s b)) } }
def reorderOf (s : State) (h : Nat) : Reorder := tget {} s.route.reorder h
def modReorder (s : State) (h : Nat) (f : Reorder → Reorder) : State :=
  { s with route := { s.route with reorder := tset {} s.route.reorder h (f (reorderOf s h)) } }
def windowOf (s : State) (w : Nat) : Window := tget {} s.cxl.windows w
def modWindow (s : State) (w : Nat) (f : Window → Window) : State := { s with cxl := { s.cxl with windows := tset {} s.cxl.windows w (f (windowOf s w)) } }
def unitOf (s : State) (u : Nat) : LaserUnit := tget {} s.tray.units u
def modUnit (s : State) (u : Nat) (f : LaserUnit → LaserUnit) : State := { s with tray := { s.tray with units := tset {} s.tray.units u (f (unitOf s u)) } }
def pcntOf (s : State) (k : Nat) : Pcnt := tget {} s.tele.pcnt k
def setPcnt (s : State) (k : Nat) (c : Pcnt) : State := { s with tele := { s.tele with pcnt := tset {} s.tele.pcnt k c } }

/-! ### The module's own places (R20–R28) -/

/-- Hemisphere of a port: that of its tile (R16, R20, R21). -/
def tileOfPort (p : Nat) : Nat := if p < 128 then p / 8 else p % 16

def hemOfPort (p : Nat) : Nat := tileOfPort p / 8

/-- Local index k of a port within its tile (R21). -/
def localOfPort (p : Nat) : Nat := if p < 128 then p % 8 else 8 + (p - 128) / 16

/-- Global lane number of lane j of a port (R22). -/
def laneOfPort (p j : Nat) : Nat := 64 * tileOfPort p + 4 * localOfPort p + j

/-- The port that a lane belongs to (R21, R22). -/
def portOfLane (l : Nat) : Nat :=
  let t := l / 64
  let k := l % 64 / 4
  if k < 8 then 8 * t + k else 128 + 16 * (k - 8) + t

/-- Direction of a port: 0 access, 1–6 E W N S U D, 7 P, 8 M (R20). -/
def dirOfPort (p : Nat) : Nat := if p < 128 then 0 else 1 + (p - 128) / 16

/-- The port of a direction's link (R20). -/
def portOfDir (dir link : Nat) : Nat := 128 + 16 * (dir - 1) + link

def isAccess (p : Nat) : Bool := p < 128
def isTrunk (p : Nat) : Bool := 128 ≤ p && p < 224
def isPeer (p : Nat) : Bool := 224 ≤ p && p < 240
def isMaint (p : Nat) : Bool := 240 ≤ p && p < 256

/-- The CXL port is in reset: its pin, or RESET_UNIT (R269, R383). -/
def cxlInReset (s : State) : Bool := s.cxl.perst || s.cxl.unitHeld

/-- Module index m: POS_ID[3:0] (R24). -/
def modIndex (s : State) : Nat := s.clk.posId.toNat % 16

/-- A grid reference from its parts: X [23:20], Y [19:16], Z [15:12], Slot [11:5], Unit [4:0] (R118, R119). -/
def gridOf (x y z slot unit : Nat) : Nat := x * 2 ^ 20 + y * 2 ^ 16 + z * 2 ^ 12 + slot * 32 + unit

/-- The library section that the offices hold (R349, R350). -/
def libraryOf (s : State) : List Byte := tget [] s.trust.sections 1

/-- The module's grid reference (R28). -/
def ownRef (s : State) : Nat := gridOf s.ident.x s.ident.y s.ident.z (112 + modIndex s) 31

/-- The rack part of a grid reference, DEST[23:12] (R118). -/
def rackOf (ref : Nat) : Nat := ref / 4096

def slotOf (ref : Nat) : Nat := ref / 32 % 128
def unitPart (ref : Nat) : Nat := ref % 32

def ownRack (s : State) : Nat := rackOf (ownRef s)

/-- Hemisphere of an office (R15). -/
def hemOfOffice (o : Nat) : Nat := o / 4

/-- The first accelerator slot of the home tray (R26). -/
def homeBase (s : State) : Nat := 16 * (modIndex s / 2)

end Sys2Proof.Machine
end

