-- ==== Sys2Proof/Machine/Flags.lean ====
section
/-! DEFINITION. The flags and reports that every family raises: MSI-X vectors (R275), FAULT_N and ALERT_N (R342), named and programmable
counters (R412–R418), detail counters (R422), events (R340), the hold-up check (R467) and the persistent store's reports. -/

namespace Sys2Proof.Machine

/-- The CXL link is in L0 and not in reset (R269). -/
def cxlUp (s : State) : Bool := s.cxl.mode ≠ 0 && !s.cxl.perst

/-- The mask bit of an MSI-X entry: bit 96, 1 at reset (R275). The table lists entries as written, with the reset mask bit inverted. -/
def msixMasked (s : State) (v : Nat) : Bool := !(tget 0 s.cxl.msix v).getLsbD 96

/-- MSI-X vector v is raised, at most once per Round (R275); a masked vector sets its pending bit. -/
def raiseVec (v : Nat) (s : State) : State :=
  if !cxlUp s || s.cxl.raised.getLsbD v then s
  else
    let one : BitVec 8 := BitVec.ofNat 8 (2 ^ v)
    { s with cxl := { s.cxl with raised := s.cxl.raised ||| one, pba := if msixMasked s v then s.cxl.pba ||| one else s.cxl.pba } }

/-- FAULT_N asserts (R275, vector 7). -/
def assertFault (s : State) : State :=
  if s.ident.fault then s else raiseVec 7 { s with ident := { s.ident with fault := true } }

/-- ALERT_N is asserted while an alert raised is not acknowledged (R342). -/
def alertN (s : State) : Bool := !s.gmi.alerts.isEmpty

/-- An alert raised: ALERT_N asserts until its code is acknowledged (R342). -/
def raiseAlert (code : Nat) (s : State) : State :=
  let s' := { s with gmi := { s.gmi with alerts := s.gmi.alerts.filter (·.1 ≠ code) ++ [(code, roundNo s)] } }
  if alertN s then s' else raiseVec 7 s'

/-! ### Counter IDs (R413) -/

def idPort (n p : Nat) : Nat := 0x10000 + 256 * n + p
def idHem (n h : Nat) : Nat := 0x20000 + 2 * n + h
def idOffice (n o : Nat) : Nat := 0x30000 + 8 * n + o
def idClerk (n k : Nat) : Nat := 0x40000 + 256 * n + k
def idGroup (n e : Nat) : Nat := 0x50000 + 64 * n + e
def idDetail (n e : Nat) : Nat := 0x70000 + 16 * n + e

/-- A named or detail counter's value. -/
def cntOf (s : State) (id : Nat) : Nat := tget 0 s.tele.cnt id

/-- A named counter alone, modulo 2⁶⁴ (R412). -/
def cntRaw (id n : Nat) (s : State) : State :=
  { s with tele := { s.tele with cnt := tset 0 s.tele.cnt id ((cntOf s id + n) % 2 ^ 64) } }

/-- A record put into the event ring and log (R340); the ring drops it when 63 records are unread. Answers whether it was dropped. -/
def putEvent (e : Event) (s : State) : Bool × State :=
  let g := s.gmi
  let e := { e with seq := g.eventSeq }
  let lost := decide ((g.eventProduce + 2 ^ 32 - s.cxl.eventConsume % 2 ^ 32) % 2 ^ 32 ≥ 63)
  let g := { g with eventSeq := (g.eventSeq + 1) % 2 ^ 32,
                    log := (g.log ++ [e]).drop ((g.log.length + 1) - 1024),
                    ring := if lost then g.ring else (g.ring ++ [e]).drop ((g.ring.length + 1) - 63),
                    eventProduce := if lost then g.eventProduce else (g.eventProduce + 1) % 2 ^ 32 }
  let t := { s.tray with bbGathered := s.tray.bbGathered ++ [e],
                         bbSince := if s.tray.bbGathered.isEmpty then roundNo s else s.tray.bbSince }
  let s := { s with gmi := g, tray := t }
  let s := if lost then s else raiseVec 4 s
  (lost, if e.severity = 0 then s else raiseAlert e.code s)

/-- An event record of a code, before its EVENT_SEQ is given (R340). -/
def mkEvent (s : State) (code sev : Nat) (st : Status) (subject id : Nat) (detail : List Byte) : Event :=
  { seq := 0, code := code, severity := sev, status := st, round := roundNo s, subject := subject, id := id, detail := fit 40 detail }

/-- Bits of a programmable counter's control word (R431). -/
def pcEn (c : Pcnt) : Bool := c.ctl.getLsbD 0
def pcChain (c : Pcnt) : Bool := c.ctl.getLsbD 1
def pcOvfEvent (c : Pcnt) : Bool := c.ctl.getLsbD 3
def pcSel (c : Pcnt) : Nat := bitsOf c.ctl.toNat 7 4
def pcArg (c : Pcnt) : Nat := bitsOf c.ctl.toNat 15 8
def pcVc (c : Pcnt) : Nat := bitsOf c.ctl.toNat 18 16
def pcId (c : Pcnt) : Nat := bitsOf c.ctl.toNat 51 32

/-- Counter k is the odd half of a chained pair (R418). -/
def pcOddChained (k : Nat) (c : Pcnt) : Bool := k % 2 = 1 && pcChain c

/-- One programmable counter counts `n`; answers whether it must post COUNTER_OVF (R418). -/
def pcntCount (k n : Nat) (s : State) : Bool × State :=
  let c := pcntOf s k
  let v := c.value + n
  let s1 := setPcnt s k { c with value := v % 2 ^ 32 }
  if v < 2 ^ 32 then (false, s1)
  else
    let odd := pcntOf s (k + 1)
    if k % 2 = 0 && pcChain odd then
      (false, if pcEn odd then setPcnt s1 (k + 1) { odd with value := (odd.value + v / 2 ^ 32) % 2 ^ 32 } else s1)
    else
      let post := pcOvfEvent c && c.ovfRound ≠ some (roundNo s)
      let c1 := { c with value := v % 2 ^ 32, ovf := true, wraps := c.wraps + v / 2 ^ 32,
                         ovfRound := if post then some (roundNo s) else c.ovfRound }
      (post, setPcnt s k c1)

/-- Counting on a named counter: SEL 15 counters that name it count with it, and COUNTER_OVF events follow; `fuel` bounds the chain of
EVENT_LOST counts that a full ring's COUNTER_OVF events make (each counter posts at most once per Round). -/
def cntFuel : Nat → Nat → Nat → State → State
  | 0, id, n, s => cntRaw id n s
  | fuel + 1, id, n, s =>
    let s := cntRaw id n s
    (s.tele.pcnt.map (·.1)).foldl (fun s k =>
      let c := pcntOf s k
      if pcEn c && !pcOddChained k c && pcSel c = 15 && pcId c = id then
        let (post, s) := pcntCount k n s
        if post then
          let (lost, s) := putEvent (mkEvent s 0x0321 0 .ok 0 k []) s
          if lost then cntFuel fuel 20 1 s else s
        else s
      else s) s

/-- `n` events on a named counter (R412, R414, R417 SEL 15). -/
def cntAdd (id n : Nat) (s : State) : State := if n = 0 then s else cntFuel 65 id n s

/-- One event on a named counter. -/
def cnt1 (id : Nat) (s : State) : State := cntAdd id 1 s

/-- An event is posted: written to the ring and log, counted in EVENT_LOST where the ring is full, its alert raised (R340–R342). In KEEP
and CHARGING it waits until the post boxes open (R471). -/
def postFull (code sev : Nat) (st : Status) (subject id : Nat) (detail : List Byte) (s : State) : State :=
  let e := mkEvent s code sev st subject id detail
  if s.tray.start = .keep || s.tray.start = .charging then
    { s with tray := { s.tray with deferredEvents := s.tray.deferredEvents ++ [e] } }
  else
    let (lost, s) := putEvent e s
    if lost then cnt1 20 s else s

/-- A report (SEVERITY 0). -/
def report (code id : Nat) (detail : List Byte) (s : State) : State := postFull code 0 .ok 0 id detail s

/-- A report with a status. -/
def reportSt (code id : Nat) (st : Status) (detail : List Byte) (s : State) : State := postFull code 0 st 0 id detail s

/-- An alert (SEVERITY 1). -/
def alert (code id : Nat) (detail : List Byte) (s : State) : State := postFull code 1 .ok 0 id detail s

/-- A fault event (SEVERITY 2). -/
def faultEvent (code id : Nat) (detail : List Byte) (s : State) : State := postFull code 2 .ok 0 id detail s

/-- Counters of the programmable kinds other than NAMED (R417): every enabled counter with this SEL that `which` accepts counts `n`. -/
def pcntSel (sel n : Nat) (which : Pcnt → Bool) (s : State) : State :=
  if n = 0 then s else
  (s.tele.pcnt.map (·.1)).foldl (fun s k =>
    let c := pcntOf s k
    if pcEn c && !pcOddChained k c && pcSel c = sel && which c then
      let (post, s) := pcntCount k n s
      if post then report 0x0321 k [] s else s
    else s) s

/-- The running detail engine of a port (R422: one at most). -/
def detailOn (s : State) (p : Nat) : Option Nat := (s.tele.details.find? fun x => x.2.running && x.2.port = p).map (·.1)

/-- `n` events on detail counter `k` of a port (R422). -/
def detailAdd (p k n : Nat) (s : State) : State :=
  match detailOn s p with
  | some e => cntAdd (idDetail k e) n s
  | none => s

/-- A GMI status code (R331). -/
def statusCode : Status → Nat
  | .ok => 0 | .busyClaimed => 1 | .drainRequired => 2 | .notReady => 3 | .refusedSignature => 4 | .staleSequence => 5 | .badArgument => 6
  | .notPermitted => 7 | .skeleton => 8 | .noHoldup => 9 | .memberMissing => 10 | .incomplete => 11 | .overflowReturned => 12
  | .lateDiscard => 13

/-- R467: E_avail ≥ 1.5 × E_need and the measured capacitance is at least 1.6 mF, in units of 1/26,214,400 nJ, so that the comparison is
exact: E_avail is (V² − 40²)/1,000 J with V in mV, and E_need is P × 12 µs + 25 W × (bytes / 26,214,400 B/s + 200 µs). -/
def holdupOk (s : State) (bytes : Nat) : Bool :=
  let avail : Int := ((s.sens.vinMv * s.sens.vinMv : Nat) : Int) - 1600000000
  decide (2 * avail * 26214400 ≥ 3 * ((s.pow.pinW * 12000 * 26214400 + 25000000000 * bytes + 5000000 * 26214400 : Nat) : Int))
    && decide (s.tray.holdup ≥ 160)

/-- A box's number (R320). -/
def boxNo : Box → Nat
  | .hb b => b
  | .sb b => 4 + b
  | .fm b => 8 + b
  | .pm => 16
  | .ap a => 128 + a

end Sys2Proof.Machine
end

