-- ==== Sys2Proof/Machine/Capture.lean ====
section
/-! DEFINITION. The capture ring and its writer (R276–R279, R284, R429): records placed in the ring, written in units of 256 bytes to GDDR7 or
by UIO to a second-tier window, marked bad and published. -/

namespace Sys2Proof.Machine

/-- 1 GiB. -/
def gib : Nat := 2 ^ 30

/-- A second-tier window's record in the committed bank (R276). -/
def windowRec (b : Bank) (w : Nat) : WindowRec := tget ⟨0, 0, false, true⟩ b.window w

/-- A window that is enabled and not disabled (R276). -/
def windowUsable (s : State) (w : Nat) : Bool := (windowRec s.bank w).enable && !(windowOf s w).disabledLink && !(windowOf s w).disabledTimeout

/-- The second-tier window that holds the capture ring; none while it lies in GDDR7 (R279). -/
def ringTier (s : State) : Option Nat := if s.bank.regs.captureTier = 0 then none else some (s.bank.regs.captureTier - 1)

/-- The four state bits of a window (R276). -/
def tierBits (s : State) (w : Nat) : Nat :=
  bit (windowRec s.bank w).enable + 2 * bit (ringTier s = some w) + 4 * bit (windowOf s w).disabledLink + 8 * bit (windowOf s w).disabledTimeout

/-- Size of the region that holds the ring (R276, R281). -/
def ringRegion (s : State) : Nat :=
  match ringTier s with
  | none => s.bank.regs.captureGib * gib
  | some w => (windowRec s.bank w).sizeGib * gib

/-- RING_BYTES (R429). -/
def ringBytes (s : State) : Nat := ringRegion s - 4096

/-- Where the ring's region begins in its half: after the letter-spill area and the mailbag spill region (R281). -/
def ringBase : Nat := 5 * gib

/-- A half that serves the capture class: active, and not held by a whole-half memory test (R285, R286). -/
def halfServes (s : State) (h : Nat) : Bool := (memOf s h).state = 1 && !(memOf s h).claims.any (·.whole)

/-! ### Requests of a half (R283) -/

/-- A request of a half waits from now on. -/
def memRequest (h cls owner bytes : Nat) (s : State) : State :=
  if bytes = 0 then s else modMem s h fun m => { m with waiting := m.waiting ++ [⟨cls, owner, bytes⟩] }

/-- The half with its unit of data service chosen: the one under way while its owner waits; else letter spill and mailbag spill by turns, and within
mailbag spill up to SHARE units of a group by turns (R248, R283). Letter spill goes first where both begin to wait (notes/assumptions/60.md). -/
def nextUnit (share : Nat → Nat) (m : MemHalf) : MemHalf :=
  let owners := (m.waiting.filter (·.cls = 1)).map (·.owner)
  let mails := owners.filter (· ≠ 0)
  if m.unit.2 > 0 && owners.contains m.unit.1 then m
  else if !mails.isEmpty && (m.unit.1 = 0 || !owners.contains 0) then
    if m.mailTurn.2 > 0 && mails.contains m.mailTurn.1 then { m with unit := (m.mailTurn.1, 4096), mailTurn := (m.mailTurn.1, m.mailTurn.2 - 1) }
    else
      let o := ((minNat? (mails.filter (· > m.mailTurn.1))).or (minNat? mails)).getD 0
      { m with unit := (o, 4096), mailTurn := (o, share (o - 1) - 1) }
  else { m with unit := (0, 4096) }

/-- Up to `n` bytes of the request whose turn it is: of the highest class that waits, the earliest of its class or of the unit's owner. What is left of
`n`, and the half afterwards. -/
def serveOne (share : Nat → Nat) (n : Nat) (m : MemHalf) : Nat × MemHalf :=
  match minNat? (m.waiting.map (·.cls)) with
  | none => (n, m)
  | some c =>
    let m := if c = 1 then nextUnit share m else m
    match m.waiting.find? fun r => r.cls = c && (c ≠ 1 || r.owner = m.unit.1) with
    | none => (n, m)
    | some r =>
      let k := min n (if c = 1 then min r.bytes m.unit.2 else r.bytes)
      let rest := if r.bytes ≤ k then m.waiting.erase r else m.waiting.replace r { r with bytes := r.bytes - k }
      (n - k, { m with waiting := rest, unit := if c = 1 then (m.unit.1, m.unit.2 - k) else m.unit })

/-- A half serves `n` bytes, one request after the other. -/
def serveBytes (share : Nat → Nat) : Nat → Nat → MemHalf → MemHalf
  | 0, _, m => m
  | f + 1, n, m => if n = 0 || m.waiting.isEmpty then m else let (k, m') := serveOne share n m; serveBytes share f k m'

/-- MEM_BUSY of a half (R417): the cycles, of so many, in which it serves what waits. -/
def memBusy (cycles h : Nat) (s : State) : State :=
  let m := memOf s h
  if m.state ≠ 1 then s else pcntSel 6 (min cycles ((sumNat (m.waiting.map (·.bytes)) + 927) / 928)) (fun c => pcArg c = h) s

/-- A half in service serves 928 bytes in a core cycle, 1.45 TB/s (R280; notes/assumptions/60.md). -/
def serveHalf (cycles h : Nat) (s : State) : State :=
  let m := memOf s h
  if m.waiting.isEmpty || m.state ≠ 1 then s
  else
    let n := 928 * cycles
    modMem s h fun m => serveBytes (fun e => ((groupOf s e).record.map groupShare).getD 1) (2 * m.waiting.length + n / 4096 + 2) n m

/-- A half serves the capture writer now: no request of a higher class waits, and no capture read made before (R283). -/
def captureTurn (s : State) (h : Nat) : Bool := halfServes s h && (memOf s h).waiting.isEmpty

/-- Letter spill that waits in a half, in bytes. -/
def spillWaiting (s : State) (h : Nat) : Nat := sumNat (((memOf s h).waiting.filter fun r => r.cls = 1 && r.owner = 0).map (·.bytes))

/-- Letter spill demands more than a half sustains (R283): more of it waits than the half serves in a Round (DESIGN CHOICE,
notes/assumptions/60.md). -/
def spillBehind (s : State) (h : Nat) : Bool := decide (spillWaiting s h > 928 * 1600)

/-! ### The writer's queue -/

/-- The queue of the capture writer of a half (R284): only the writer of the half that MEM_CFG names has work, and a change of it empties the
queue (R287). -/
def writerQueue (s : State) (h : Nat) : List Byte := if s.bank.regs.captureHalf = h then s.capture.queue else []

/-- The bytes free of the writer's 256 KiB (R284); none is offered while the named window is disabled (R279). -/
def captureFree (s : State) : Nat :=
  let off := match ringTier s with | none => decide (ringBytes s = 0) | some w => !windowUsable s w
  if off then 0 else 262144 - (writerQueue s s.bank.regs.captureHalf).length

/-- The ring is empty, in a new place (R286, R287): nothing is queued and the positions start anew. Requests still outstanding go on (R277), but
hold none of its records. -/
def restartRing (s : State) : State :=
  let c := s.capture
  { s with
    capture := { c with
      records := [], place := 0, published := 0, queue := [], queueAt := 0, units := [], rewrites := [], partialSince := none, header := [],
      written := 0, dropped := 0, seq := 0 },
    cxl := { s.cxl with uio := s.cxl.uio.map fun x => (x.1, { x.2 with unit := none, rewrite := false }) } }

/-! ### Units (R277, R429) -/

/-- The unit that holds a position. -/
def unitAt (pos : Nat) : Nat := pos / 256 * 256

/-- A UIO write of a unit, or of the header, is outstanding from now on. -/
def sendUio (w : Nat) (unit : Option Nat) (rewrite : Bool) (s : State) : State :=
  let u : Uio := { window := w, unit := unit, rewrite := rewrite, startNs := s.mer.ns }
  { s with cxl := { s.cxl with uio := tput s.cxl.uio s.cxl.nextUio u, nextUio := s.cxl.nextUio + 1 } }

/-- A UIO request may be made now: at most 256 are outstanding (R277). -/
def uioRoom (s : State) (w : Nat) : Bool := windowUsable s w && cxlUp s && decide (s.cxl.uio.length < 256)

/-- Ring bytes written to the ring's half. -/
def ringStore (pos : Nat) (l : List Byte) (s : State) : State :=
  modMem s s.bank.regs.captureHalf fun m => { m with mem := mwrite m.mem (ringBase + 4096 + pos % max 1 (ringBytes s)) l }

/-- The writer writes the queue's first unit, where the ring's place serves it. -/
def writeUnit (s : State) : Option State :=
  let c := s.capture
  if c.queue.length < 256 then none
  else
    let l := c.queue.take 256
    let s' := { s with capture := { c with queue := c.queue.drop 256, queueAt := c.queueAt + 256, units := tput c.units c.queueAt l } }
    match ringTier s with
    | none => if captureTurn s s.bank.regs.captureHalf then some (ringStore c.queueAt l s') else none
    | some w => if uioRoom s w then some (sendUio w (some c.queueAt) false s') else none

/-- Units that wait to be rewritten go out first. -/
def sendRewrites (s : State) : State :=
  s.capture.rewrites.foldl (fun s u =>
    match ringTier s with
    | some w => if uioRoom s w then sendUio w (some u) true { s with capture := { s.capture with rewrites := s.capture.rewrites.erase u } } else s
    | none => s) s

/-- The queue is written as far as its place serves it. -/
def drainUnits : Nat → State → State
  | 0, s => s
  | n + 1, s => match writeUnit s with | some s' => drainUnits n s' | none => s

def drainQueue (s : State) : State := drainUnits (s.capture.queue.length / 256) (sendRewrites s)

/-! ### Records -/

/-- A record's bytes enter the queue at the next place; a unit begun and not filled waits for more (R429). -/
def placeRecord (kind seq : Nat) (bytes : List Byte) (s : State) : State :=
  let c := s.capture
  let stop := c.place + bytes.length
  let since := if stop % 256 = 0 then none else if stop / 256 = c.place / 256 && c.partialSince.isSome then c.partialSince else some (roundNo s)
  { s with capture := { c with
      records := c.records ++ [{ kind := kind, at_ := c.place, len := bytes.length, bad := false, seq := seq }], place := stop,
      queue := c.queue ++ bytes, partialSince := since } }

/-- A PAD of `n` bytes, and of at least 8 (R429). -/
def placePad (n : Nat) (s : State) : State := if n = 0 then s else placeRecord 0 0 (leBytes 4 (max 8 n) ++ zeros (max 8 n - 4)) s

/-- The 64 bytes of a record header (R429). -/
def recordHeader (len kind : Nat) (trunc : Bool) (session time where_ dataLen droppedBefore seq : Nat) : List Byte :=
  leBytes 4 len ++ leBytes 1 kind ++ leBytes 1 (2 * bit trunc) ++ leBytes 1 session ++ [0] ++ leBytes 8 time ++ leBytes 2 where_ ++
  leBytes 4 dataLen ++ leBytes 2 droppedBefore ++ leBytes 8 seq ++ zeros 32

/-- A record enters the writer's queue: it starts on an 8-byte boundary and never wraps (R429). -/
def putRecord (kind session : Nat) (trunc : Bool) (where_ droppedBefore time : Nat) (data : List Byte) (s : State) : State :=
  let len := (64 + data.length + 7) / 8 * 8
  let rb := max 1 (ringBytes s)
  let off := s.capture.place % rb
  let s := if off + len > rb then placePad (rb - off) s else s
  let seq := s.capture.seq
  let s := placeRecord kind seq (fit len (recordHeader len kind trunc session time where_ data.length droppedBefore seq ++ data)) s
  drainQueue (cnt1 21 { s with capture := { s.capture with written := s.capture.written + 1, seq := (seq + 1) % 2 ^ 64 } })

/-- BAD set in the header of a record that the index has not passed (R278, R282): in the queue, in GDDR7, or by a rewrite of its unit. -/
def markBad (r : CapRec) (s : State) : State :=
  if r.kind = 0 || r.bad then s
  else
    let c := s.capture
    let s := cnt1 22 { s with capture := { c with records := c.records.map fun (x : CapRec) => if x.at_ = r.at_ then { x with bad := true } else x } }
    let c := s.capture
    let setBad := fun (l : List Byte) (k : Nat) => l.take k ++ ((l.drop k).head?.toList.map (· ||| 1#8)) ++ l.drop (k + 1)
    if r.at_ ≥ c.queueAt then { s with capture := { c with queue := setBad c.queue (r.at_ + 5 - c.queueAt) } }
    else
      let u := unitAt r.at_
      let l := setBad (tget [] c.units u) (r.at_ + 5 - u)
      let s := { s with capture := { c with units := tput c.units u l } }
      match ringTier s with
      | none => ringStore u l s
      | some w => if windowUsable s w && !c.rewrites.contains u then { s with capture := { s.capture with rewrites := s.capture.rewrites ++ [u] } } else s

/-- The records that have bytes in a unit. -/
def recordsIn (s : State) (u : Nat) : List CapRec := s.capture.records.filter fun r => r.at_ < u + 256 && u < r.at_ + r.len

/-- Every write of a record has completed, or has been abandoned and marked (R278). -/
def recordDone (s : State) (r : CapRec) : Bool :=
  decide (r.at_ + r.len ≤ s.capture.queueAt) &&
  !s.cxl.uio.any (fun x => match x.2.unit with | some u => r.at_ < u + 256 && u < r.at_ + r.len | none => false) &&
  !(r.bad && s.capture.rewrites.contains (unitAt r.at_))

/-! ### Second-tier requests (R277) -/

/-- A window's state has changed: vector 6 (R275). -/
def windowChanged (s : State) : State := raiseVec 6 s

/-- A request has failed: its records are bad, or its rewrite is due again; 16 in a row disable the window (R277, R429). -/
def uioFailed (u : Uio) (s : State) : State :=
  let w := windowOf s u.window
  let n := w.fails + 1
  let s := modWindow s u.window fun x => { x with fails := n }
  let s := if n ≥ 16 && !w.disabledTimeout then
      windowChanged (alert 0x0109 u.window [] (modWindow s u.window fun x => { x with disabledTimeout := true }))
    else s
  match u.unit with
  | none => s
  | some p =>
    if u.rewrite then
      (if windowUsable s u.window then { s with capture := { s.capture with rewrites := s.capture.rewrites ++ [p] } } else s)
    else (recordsIn s p).foldl (fun s r => markBad r s) s

/-- A disabled window takes no rewrites (R429). -/
def dropRewrites (s : State) : State :=
  match ringTier s with
  | some w => if windowUsable s w then s else { s with capture := { s.capture with rewrites := [] } }
  | none => s

/-! ### Publishing (R429) -/

/-- The ring header's 64 bytes; bytes 64–4,095 are 0. -/
def ringHeader (s : State) : List Byte :=
  let rb := ringBytes s
  let c := s.capture
  leBytes 4 0x4C4B4352 ++ leBytes 4 1 ++ leBytes 8 rb ++ leBytes 8 (c.published % max 1 rb) ++ leBytes 8 (c.published / max 1 rb) ++
  leBytes 8 (roundNo s) ++ leBytes 8 c.written ++ leBytes 8 c.dropped ++ zeros 8

/-- The header is written to the ring's first bytes. -/
def writeHeader (s : State) : State :=
  let l := ringHeader s
  let s := { s with capture := { s.capture with header := l } }
  match ringTier s with
  | none => modMem s s.bank.regs.captureHalf fun m => { m with mem := mwrite m.mem ringBase l }
  | some w => if uioRoom s w then sendUio w none false s else s

/-- The published index passes the leading records that are done; where it can advance, the header is rewritten. -/
def publish (s : State) : State :=
  let passed := s.capture.records.takeWhile (recordDone s)
  match passed.getLast? with
  | none => s
  | some r =>
    let c := s.capture
    let c' := { c with records := c.records.drop passed.length, published := r.at_ + r.len, units := c.units.filter fun x => x.1 + 256 > r.at_ + r.len }
    writeHeader { s with capture := c' }

end Sys2Proof.Machine
end

