-- ==== Sys2Proof/Machine/Fec.lean ====
section
/-! DEFINITION. The codes of the line: CRC-64 (R90) and CRC-16 (R125), the interleaved RS(144,128) code (R86), the striping, Gray map and
precoding of a coded flit (R64, R65, R87) and the PRBS generators (R75, R76). -/

namespace Sys2Proof.Machine

/-! ### CRCs, most significant bit first -/

/-- One bit into a CRC register of width `w` with polynomial `poly`. -/
def crcBit (w poly : Nat) (reg : Nat) (b : Bool) : Nat :=
  let out := Nat.testBit reg (w - 1)
  let sh := (reg * 2) % 2 ^ w
  if out != b then sh ^^^ poly else sh

/-- One byte into a CRC register, bit 7 first. -/
def crcByte (w poly : Nat) (reg : Nat) (b : Byte) : Nat :=
  [7, 6, 5, 4, 3, 2, 1, 0].foldl (fun r i => crcBit w poly r (b.getLsbD i)) reg

/-- CRC-64 with the ECMA-182 polynomial, initial value and final XOR all ones (R90). -/
def crc64 (l : List Byte) : Nat := (l.foldl (crcByte 64 0x42F0E1EBA9EA3693) (2 ^ 64 - 1)) ^^^ (2 ^ 64 - 1)

/-- CRC-16 with polynomial x¹⁶ + x¹² + x⁵ + 1, initial value all ones, no final XOR (R125). -/
def crc16 (l : List Byte) : Nat := l.foldl (crcByte 16 0x1021) 0xFFFF

/-! ### GF(2⁸) with x⁸ + x⁴ + x³ + x² + 1 (R86) -/

def gfDouble (a : Nat) : Nat := if 2 * a ≥ 256 then (2 * a) ^^^ 0x11D else 2 * a

def gfMulAux : Nat → Nat → Nat → Nat
  | 0, _, _ => 0
  | n + 1, a, b => (if b % 2 = 1 then a else 0) ^^^ gfMulAux n (gfDouble a) (b / 2)

/-- The product in the field. -/
def gfMul (a b : Nat) : Nat := gfMulAux 8 a b

def gfPow (a : Nat) : Nat → Nat
  | 0 => 1
  | n + 1 => gfMul a (gfPow a n)

/-- α to the power n. -/
def alpha : Nat → Nat
  | 0 => 1
  | n + 1 => gfDouble (alpha n)

/-- The inverse: a²⁵⁴. -/
def gfInv (a : Nat) : Nat :=
  let a2 := gfMul a a
  let a4 := gfMul a2 a2
  let a8 := gfMul a4 a4
  let a16 := gfMul a8 a8
  let a32 := gfMul a16 a16
  let a64 := gfMul a32 a32
  let a128 := gfMul a64 a64
  gfMul a128 (gfMul a64 (gfMul a32 (gfMul a16 (gfMul a8 (gfMul a4 a2)))))

/-! ### Polynomials over the field, lowest power first -/

def polyAdd : List Nat → List Nat → List Nat
  | [], q => q
  | p, [] => p
  | a :: p, b :: q => (a ^^^ b) :: polyAdd p q

def polyScale (c : Nat) (p : List Nat) : List Nat := p.map (gfMul c)

def polyShift (n : Nat) (p : List Nat) : List Nat := List.replicate n 0 ++ p

def polyMul : List Nat → List Nat → List Nat
  | [], _ => []
  | a :: p, q => polyAdd (polyScale a q) (0 :: polyMul p q)

/-- The value at a point, by Horner's rule. -/
def polyEval (x : Nat) : List Nat → Nat
  | [] => 0
  | a :: p => a ^^^ gfMul x (polyEval x p)

/-- The formal derivative: the odd coefficients. -/
def polyDeriv (p : List Nat) : List Nat :=
  ((p.drop 1).zip (List.range p.length)).map fun x => if x.2 % 2 = 0 then x.1 else 0

/-- g(x) = (x − α⁰)…(x − α¹⁵), lowest power first (R86). -/
def rsGen : List Nat := (List.range 16).foldl (fun p i => polyMul [alpha i, 1] p) [1]

/-! ### RS(144,128); symbol position 0 is the highest power (notes/assumptions/8.md) -/

/-- One symbol into the division by g; the register holds the remainder, highest power first. -/
def rsStep (gHigh : List Nat) (reg : List Nat) (m : Nat) : List Nat :=
  match reg with
  | [] => []
  | r :: rest =>
    let f := m ^^^ r
    (rest ++ [0]).zipWith (fun a g => a ^^^ gfMul f g) gHigh

/-- The 16 parity symbols of 128 message symbols (R86). -/
def rsParity (msg : List Nat) : List Nat :=
  let gHigh := (rsGen.take 16).reverse
  msg.foldl (rsStep gHigh) (List.replicate 16 0)

/-- The 16 syndromes of a received word. -/
def rsSyndromes (word : List Nat) : List Nat :=
  (List.range 16).map fun i => word.foldl (fun acc c => gfMul acc (alpha i) ^^^ c) 0

/-- Berlekamp–Massey: the locator polynomial and its length, after `n` of the syndromes. -/
def bmLoop (syn : List Nat) : Nat → Nat → List Nat → List Nat → Nat → Nat → Nat → List Nat × Nat
  | 0, _, c, _, l, _, _ => (c, l)
  | fuel + 1, n, c, b, l, m, bb =>
    let d := (List.range (l + 1)).foldl (fun acc i => acc ^^^ gfMul (c.getD i 0) (syn.getD (n - i) 0)) 0
    if d = 0 then bmLoop syn fuel (n + 1) c b l (m + 1) bb
    else
      let c' := polyAdd c (polyShift m (polyScale (gfMul d (gfInv bb)) b))
      if 2 * l ≤ n then bmLoop syn fuel (n + 1) c' c (n + 1 - l) 1 d
      else bmLoop syn fuel (n + 1) c' b l (m + 1) bb

/-- A received word corrected: the 144 symbols and how many were wrong; none where more than 8 are (R86). -/
def rsCorrect (word : List Nat) : Option (List Nat × Nat) :=
  let syn := rsSyndromes word
  if syn.all (· = 0) then some (word, 0)
  else
    let (loc, l) := bmLoop syn 16 0 [1] [1] 0 1 1
    if l > 8 then none
    else
      let omega := (polyMul syn loc).take 16
      let dloc := polyDeriv loc
      let fixed := (word.zip (List.range 144)).map fun (c, j) =>
        let x := alpha (143 - j)
        let xi := gfInv x
        if polyEval xi loc = 0 then
          (c ^^^ gfMul x (gfMul (polyEval xi omega) (gfInv (polyEval xi dloc))), true)
        else (c, false)
      let out := fixed.map (·.1)
      let n := (fixed.filter (·.2)).length
      if n = l && (rsSyndromes out).all (· = 0) then some (out, n) else none

/-- Codeword c (0 or 1) of a coded flit: the bytes i with i mod 2 = c (R86). -/
def codeword (c : Nat) (coded : List Byte) : List Nat :=
  ((coded.zip (List.range 288)).filter fun x => x.2 % 2 = c).map (·.1.toNat)

/-- Two codewords interleaved (R86). -/
def interleave : List Nat → List Nat → List Byte
  | a :: p, b :: q => BitVec.ofNat 8 a :: BitVec.ofNat 8 b :: interleave p q
  | _, _ => []

/-- The coded flit of a 256-byte body: the body, then 32 bytes of parity (R85, R86). -/
def fecEncode (body : List Byte) : List Byte :=
  let b := fit 256 body
  b ++ interleave (rsParity ((codeword 0 b).take 128)) (rsParity ((codeword 1 b).take 128))

/-- The body of a coded flit and the codewords corrected; none where a codeword is uncorrectable (R86). -/
def fecDecode (coded : List Byte) : Option (List Byte × Nat) :=
  let l := fit 288 coded
  match rsCorrect (codeword 0 l), rsCorrect (codeword 1 l) with
  | some (a, n), some (b, m) => some (interleave (a.take 128) (b.take 128), bit (n != 0) + bit (m != 0))
  | _, _ => none

/-- The 288 bytes of a coded flit as corrected (R86). -/
def fecFixed (coded : List Byte) : List Byte :=
  let l := fit 288 coded
  match rsCorrect (codeword 0 l), rsCorrect (codeword 1 l) with
  | some (a, _), some (b, _) => interleave a b
  | _, _ => l

/-- How many corrections the FEC located on the i-th of w active lanes (R86, R87, R105). -/
def fecOnLane (coded : List Byte) (w i : Nat) : Nat :=
  let l := fit 288 coded
  (((l.zip (fecFixed coded)).zip (List.range 288)).filter fun x => x.2 % w = i && x.1.1 ≠ x.1.2).length

/-- How many of the two codewords are uncorrectable (FEC_UNCORRECTABLE, R414). -/
def fecBad (coded : List Byte) : Nat :=
  let l := fit 288 coded
  bit (rsCorrect (codeword 0 l)).isNone + bit (rsCorrect (codeword 1 l)).isNone

/-! ### Symbols (R64, R65, R87) -/

/-- The Gray map: 00, 01, 11, 10 to 0, 1, 2, 3 (R64). -/
def grayMap (b1 b0 : Bool) : Nat := match b1, b0 with
  | false, false => 0
  | false, true => 1
  | true, true => 2
  | true, false => 3

/-- The four symbols of a byte, bits [7:6] first (R87). -/
def byteSymbols (b : Byte) : List Nat :=
  [grayMap (b.getLsbD 7) (b.getLsbD 6), grayMap (b.getLsbD 5) (b.getLsbD 4), grayMap (b.getLsbD 3) (b.getLsbD 2), grayMap (b.getLsbD 1) (b.getLsbD 0)]

/-- Precoding: y_n = (x_n − y_{n−1}) mod 4, from y_{−1}; the symbols and the last one (R65). -/
def precode (y : Nat) : List Nat → List Nat × Nat
  | [] => ([], y)
  | x :: r =>
    let y' := (x + 4 - y) % 4
    let (l, z) := precode y' r
    (y' :: l, z)

/-- Decoding: x_n = (y_n + y_{n−1}) mod 4 (R65). -/
def decodePre (y : Nat) : List Nat → List Nat
  | [] => []
  | z :: r => (z + y) % 4 :: decodePre z r

/-- The symbols of the i-th of w active lanes, before precoding (R87). -/
def laneSymbols (coded : List Byte) (w i : Nat) : List Nat :=
  ((coded.zip (List.range 288)).filter fun x => x.2 % w = i).flatMap fun x => byteSymbols x.1

/-- The two bits of a symbol value, b1 and b0 (R64). -/
def grayBits (x : Nat) : Bool × Bool := (decide (x % 4 ≥ 2), decide (x % 4 = 1 ∨ x % 4 = 2))

/-- The bytes that symbols carry, four symbols each (R87). -/
def symbolBytes : List Nat → List Byte
  | a :: b :: c :: d :: r =>
    let two := fun (x : Nat) => 2 * bit (grayBits x).1 + bit (grayBits x).2
    BitVec.ofNat 8 (64 * two a + 16 * two b + 4 * two c + two d) :: symbolBytes r
  | _ => []

/-! ### PRBS (R75, R76) -/

/-- Degree and feedback taps of a pattern: the powers below the degree that the polynomial holds, 0 aside (R75). -/
def prbsPoly (pattern : Nat) : Nat × List Nat :=
  match pattern with
  | 0 => (7, [6])
  | 1 => (13, [12, 2, 1])
  | _ => (31, [28])

/-- The generator's register at start: the seed's low n bits, all ones in place of all zeros (R76). -/
def prbsStart (pattern seed : Nat) : Nat :=
  let n := (prbsPoly pattern).1
  if seed % 2 ^ n = 0 then 2 ^ n - 1 else seed % 2 ^ n

/-- One bit of the generator: the register's state and the bit sent. -/
def prbsNext (pattern reg : Nat) : Nat × Bool :=
  let (n, taps) := prbsPoly pattern
  let fb := taps.foldl (fun b t => b != Nat.testBit reg (t - 1)) (Nat.testBit reg (n - 1))
  ((reg * 2) % 2 ^ n + bit fb, fb)

/-- A pattern goes out as NRZ on the outer levels rather than in Gray-mapped pairs (R75). -/
def prbsNrz (pattern : Nat) : Bool := pattern = 0 || pattern = 2

/-- One symbol of the generator, before precoding (R75). -/
def prbsSymbol (pattern reg : Nat) : Nat × Nat :=
  let (r1, b1) := prbsNext pattern reg
  if prbsNrz pattern then (r1, 3 * bit b1)
  else
    let (r0, b0) := prbsNext pattern r1
    (r0, grayMap b1 b0)

/-- The register after `n` symbols, and the symbols. -/
def prbsRun (pattern : Nat) : Nat → Nat → Nat × List Nat
  | 0, reg => (reg, [])
  | n + 1, reg =>
    let (r, x) := prbsSymbol pattern reg
    let (z, l) := prbsRun pattern n r
    (z, x :: l)

/-! ### Training frames (R103) -/

/-- The bits that a CRC takes, most significant first, from bit `n` − 1 of a number down. -/
def bitsDown (v : Nat) : Nat → List Bool
  | 0 => []
  | n + 1 => Nat.testBit v n :: bitsDown v n

/-- CHECK of a control word: CRC-16 over its bits [47:0], most significant first (R103; notes/assumptions/119.md). -/
def ctrlCheck (low : Nat) : Nat := (bitsDown (low % 2 ^ 48) 48).foldl (crcBit 16 0x1021) 0xFFFF

/-- A training control word (R103): PHASE 0 TS1, 1 TS2, 2 TS3, 3 RESHAPE. -/
def ctrlWord (lane phase : Nat) (precodeReq rxReady : Bool) (lanesOk : Nat) (fast release : Bool) : Nat :=
  let low := lane % 4 + 4 * (phase % 4) + 16 * bit precodeReq + 32 * bit rxReady + 64 * (lanesOk % 16) + 1024 * bit fast + 2048 * bit release
  low + 2 ^ 48 * ctrlCheck low

/-- A control word passes its CHECK (R103). -/
def ctrlOk (w : Nat) : Bool := w / 2 ^ 48 % 2 ^ 16 = ctrlCheck (w % 2 ^ 48)

/-- LANES_OK of a control word (R103). -/
def ctrlLanes (w : Nat) : BitVec 4 := BitVec.ofNat 4 (w / 64)

/-- A frame of 4,096 symbols: the marker, the control word as NRZ, bit 63 first, and PRBS31Q going on from a register state (R103). -/
def trainFrame (word reg : Nat) : Nat × List Nat :=
  let (r, l) := prbsRun 3 3968 reg
  (r, List.replicate 32 3 ++ List.replicate 32 0 ++ (bitsDown word 64).map (fun b => 3 * bit b) ++ l)

end Sys2Proof.Machine
end

