-- ==== Sys2Proof/Machine/Meridian.lean ====
section
/-! DEFINITION. Meridian time and the Round (spec/02): the chronicle exchange, the rate loop, the states and the election. Times of an
exchange are in 1/256 ns, θ in 1/512,000 ns and rates in 1/512,000 ppb, so that R39 and R40 are exact. -/

namespace Sys2Proof.Machine

/-- One nanosecond of θ, and one ppb of a rate. -/
def thetaUnit : Int := 512000

/-- CHRON_INTERVAL in Rounds; 7 is treated as 6 (R36, R55). -/
def chronInterval (s : State) : Nat := 2 ^ (min s.bank.regs.chronInterval 6)

/-- MER_PRIO in force: 128 for modules 0 and 1, 255 for the others, unless committed otherwise (R43). -/
def merPrio (s : State) : Nat := s.bank.regs.merPrio.getD (if modIndex s ≤ 1 then 0x80 else 0xFF)

/-- g: the grandmaster's module index (R44). -/
def plane (s : State) : Nat := slotOf s.mer.gmRef % 16

/-- A port's link is ADMITTED. -/
def admitted (s : State) (p : Nat) : Bool := (linkOf s p).disc = .admitted

/-- The ports with admitted links. -/
def admittedPorts (s : State) : List Nat := (s.links.filter fun x => x.2.disc = .admitted).map (·.1)

/-- The lane on which a port's time stamps are taken: the lowest-numbered that its link holds (R37). -/
def stampLane (s : State) (p : Nat) : Nat := ((List.range 4).find? fun j => (linkOf s p).width.getLsbD j).getD 0

/-- The Meridian in 1/256 ns. -/
def merStamp (s : State) : Nat := s.mer.ns * 256 + s.mer.frac / 2 ^ 24

/-- The receive time of a flit whose first symbol came out of the receive path `lag` (1/256 ns) ago: at the fibre, which is earlier by the path's
calibrated latency (R37). -/
def receiveTime (s : State) (p lag : Nat) : Int := (merStamp s : Int) - lag - Config.rxPath p (stampLane s p)

/-- The order of R43: lower MER_PRIO, ties broken by the lower grid reference. -/
def better (a b : Announce) : Bool := a.prio < b.prio || (a.prio = b.prio && a.ref < b.ref)

/-- A port offers time: admitted, its last CHRON recent (R46), the peer LOCKED or MASTER and at a known distance. -/
def offersTime (s : State) (p : Nat) : Bool :=
  let c := chronOf s p
  admitted s p && c.peerLocked && decide (c.steps < 255) &&
    (match c.lastRound with | some r => decide (roundNo s < r + 2 * chronInterval s) | none => false)

/-- The lowest-numbered of the ports with the fewest hops. -/
def nearest (s : State) (ps : List Nat) : Option Nat :=
  ps.foldl (fun b p => match b with
    | none => some p
    | some q =>
      let cp := (chronOf s p).steps
      let cq := (chronOf s q).steps
      if cp < cq || (cp = cq && p < q) then some p else some q) none

/-- The parent of R44. A time lead (module g, or g XOR 1 in its place) looks to its trunks, where path cost rises with the peer's hops; the
lead's partner to its lowest peer link; every other module to the lowest access port whose accelerator is nearest the lead. -/
def chooseParent (s : State) : Option Nat :=
  let g := plane s
  let m := modIndex s
  let able := (admittedPorts s).filter (offersTime s)
  if m = g || s.mer.rackTime then nearest s (able.filter isTrunk)
  else if m ^^^ 1 = g then minNat? ((admittedPorts s).filter isPeer)
  else nearest s (able.filter isAccess)

/-- STEPS in hops: one more than the parent's (R38). -/
def stepsFrom (s : State) (p : Option Nat) : Nat :=
  match p with
  | some q => min 255 ((chronOf s q).steps + 1)
  | none => 255

/-- The parent is taken anew by R44. -/
def reparent (s : State) : State :=
  let p := chooseParent s
  { s with mer := { s.mer with parent := p, steps := stepsFrom s p, lockRun := 0, parentSince := roundNo s } }

/-- Live causes of a standing route's fallback: timed service off, θ beyond its bound, skeleton service, the output link down (R47, R162). -/
def routeCause (s : State) (out : Nat) : Bool := !s.mer.timed || s.mer.routesFallen || s.ident.skeleton || !admitted s out

/-- The standing routes of the committed slot map: (output, ROUTE) (R159). -/
def routesIn (b : Bank) : List (Nat × Nat) := ((b.slot.filter fun x => x.2.valid).map fun x => (x.1 / 200, x.2.route)).eraseDups

/-- The SOURCE of a standing route of an output (R159). -/
def routeSource (b : Bank) (out route : Nat) : Option Nat :=
  (b.slot.find? fun x => x.1 / 200 = out && x.2.valid && x.2.route = route).map (·.2.source)

/-- The office letters of a standing route of an output that wait for its slots (R161). -/
def officeQueue (s : State) (out route : Nat) : List OwnLetter :=
  ((s.sw.officeRoutes.find? fun x => x.1 = out && x.2.1 = route).map (·.2.2)).getD []

/-- What is left of an office's letter, as crossbar flits of VC6. -/
def officeFlits (route : Nat) (l : OwnLetter) : List Staged :=
  ((List.range l.flits.length).drop l.sent).map fun i =>
    { flit := { type := flitType i l.flits.length, vc := 6, shared := false, payload := l.flits.getD i [] }, letter := none, send := route }

/-- A send that waits in a route's queue of an output. -/
def waitsFor (out route : Nat) (x : Send) : Bool := x.route = some route && x.port = out && x.sent = 0 && x.seq ≠ 0 && !x.done

/-- The letters that wait in a route's queue of an output, in its order. -/
def routeWaiting (out route : Nat) (s : State) : List Nat :=
  (sortBy (fun (a b : Nat × Nat) => decide (a.1 ≤ b.1))
    (s.sw.letters.filterMap fun x => (x.2.sends.find? (waitsFor out route)).map fun y => (y.seq, x.1))).map (·.2)

/-- The waiting letters of a route join the Dispatcher's queue of its input in their order, behind what waits there (R151, R162). -/
def joinDispatcher (out route : Nat) (s : State) : State :=
  (routeWaiting out route s).foldl (fun s id =>
    let n := s.sw.nextSend + 1
    let move := fun (l : Letter) => { l with sends := l.sends.map fun x => if waitsFor out route x then { x with seq := n } else x }
    { s with sw := { s.sw with nextSend := n, slowDue := s.sw.slowDue ++ [id], letters := s.sw.letters.map fun x => if x.1 = id then (id, move x.2) else x } }) s

/-- A route falls back (R162): its queued letters join the Dispatcher's queue in order; the one in progress goes on, its input holding VC6 of
the output as the Dispatcher's inputs do; an office's letter in progress is finished, and those that wait join the output's egress in their
order. -/
def fallBack (out route : Nat) (s : State) : State :=
  let s := joinDispatcher out route s
  let q := officeQueue s out route
  let begun := q.filter fun l => l.sent ≠ 0
  let free := match routeSource s.bank out route with | some i => if i < 256 && begun.isEmpty then i + 1 else 0 | none => 0
  let s := modEgress s out fun e => { e with
    staged := e.staged ++ begun.flatMap (officeFlits route), own := e.own ++ q.filter fun l => l.sent = 0,
    locks := if tget 0 e.locks 6 = 257 + route then tset 0 e.locks 6 free else e.locks }
  { s with sw := { s.sw with fallen := s.sw.fallen ++ [(out, route)], officeRoutes := s.sw.officeRoutes.filter fun x => !(x.1 = out && x.2.1 = route) } }

/-- Every route with a live cause falls back, and stays so until ROUTE_RETURN (R162). -/
def latchFallback (s : State) : State :=
  ((routesIn s.bank).filter fun x => routeCause s x.1 && !s.sw.fallen.contains x).foldl (fun s x => fallBack x.1 x.2 s) s

/-- A standing route is in fallback. -/
def routeFallen (s : State) (out route : Nat) : Bool := routeCause s out || s.sw.fallen.contains (out, route)

/-- A timed action cancelled is reported with its status (R42): SUBJECT_ID the opcode, DETAIL its AT_ROUND. -/
def reportCancelled (st : Status) (opcode at_ : Nat) (s : State) : State := reportSt 0x0201 opcode st (leBytes 8 at_) s

/-- A timed action that executes with timed service off is logged with MER_HOLDOVER (R47). -/
def logTimed (opcode : Nat) (s : State) : State :=
  if s.mer.timed then s
  else { s with mer := { s.mer with holdoverLog := ((opcode, roundNo s) :: s.mer.holdoverLog).take 1024 } }

/-- Every timed action pending in the module is cancelled, each reported with the status given (R42): a timed COMMIT, timed caps, a timed
LADDER_SET, ramp entries not yet due and an armed snapshot. -/
def cancelTimed (st : Status) (s : State) : State :=
  let s := match s.staging.sealed with
    | some r =>
      if s.staging.sealedTimed then
        reportCancelled st 0x0102 r { s with staging := { s.staging with sealed := none, sealedTimed := false } }
      else s
    | none => s
  let caps := s.pow.timedCaps.filter (·.timed)
  let s := { s with pow := { s.pow with timedCaps := s.pow.timedCaps.filter fun c => !c.timed } }
  let s := caps.foldl (fun s c => reportCancelled st 0x0600 c.round s) s
  let s := match s.pow.timedLadder with
    | some (_, r) => reportCancelled st 0x0604 r { s with pow := { s.pow with timedLadder := none } }
    | none => s
  let es := s.pow.sched
  let s := { s with pow := { s.pow with sched := [] } }
  let s := es.foldl (fun s e => reportCancelled st 0x0602 e.atRound s) s
  match s.tele.snapArmed with
  | some r => reportCancelled st 0x0702 r { s with tele := { s.tele with snapArmed := none } }
  | none => s

/-- R39: θ of one exchange, in 1/512,000 ns, from times in 1/256 ns and ASYM in ps. -/
def thetaOf (a1 b1 b2 a2 asym : Int) : Int := ((a2 - b2) - (b1 - a1)) * 1000 - asym * 256

/-- R39: the link delay of one exchange, in 1/512 ns. -/
def delayOf (a1 b1 b2 a2 : Int) : Int := (a2 - b2) + (b1 - a1)

/-- DELAY of MER_LINK: the mean of the last 16 exchanges, in 1/256 ns (R39, R55). -/
def meanDelay (c : ChronPort) : Int := if c.delays = [] then 0 else divNear (c.delays.foldl (· + ·) 0) (2 * c.delays.length)

/-- R40: one update of the rate loop; RATE_ADJ takes effect at the next boundary (R50 item 1). -/
def rateLoop (theta : Int) (m : Mer) : Mer :=
  if m.state = .acquire && decide (theta.natAbs > 64 * 512000) then { m with pendingStep := some (-theta), integ := 0 }
  else if m.state = .acquire || m.state = .locked then
    let integ := clampInt (1000000 * thetaUnit) (m.integ + 610 * theta)
    { m with integ := integ, rateNext := clampInt (1000000 * thetaUnit) (-(12207 * theta) - integ) }
  else m

/-- R41 and the state table: 16 parent exchanges within 0.5 ns declare lock; more than 1,024 ns declares it lost. -/
def lockDeclare (theta : Int) (m : Mer) : Mer :=
  let run := if theta.natAbs < 256000 then m.lockRun + 1 else 0
  let m := { m with lockRun := min run 16 }
  if (m.state = .locked || m.state = .holdover) && decide (theta.natAbs > 1024 * 512000) then
    { m with state := .acquire, timed := false, lockRun := 0, holdoverEnd := none }
  else if (m.state = .acquire || m.state = .holdover) && decide (run ≥ 16) then
    { m with state := .locked, timed := true, holdoverEnd := none }
  else m

/-- Standing routes fall back beyond 64 ns and return below 8 ns (R47). -/
def thetaFallback (theta : Int) (m : Mer) : Mer :=
  if theta.natAbs > 64 * 512000 then { m with routesFallen := true }
  else if theta.natAbs < 8 * 512000 then { m with routesFallen := false } else m

/-- Module g of the rack sets RACK_TIME once it is LOCKED on a trunk parent in ST0 or ST1 (R44). -/
def takeRackTime (s : State) : State :=
  if s.mer.gmKnown && plane s = modIndex s && s.mer.state = .locked && decide (s.pow.ladder ≤ 1) then
    { s with mer := { s.mer with rackTime := true } }
  else s

/-- R40, R41 and R47 on an accepted parent exchange. -/
def parentExchange (theta : Int) (s : State) : State :=
  takeRackTime { s with mer := thetaFallback theta (lockDeclare theta (rateLoop theta { s.mer with theta := theta })) }

/-- R472, adopting: the best announcement accepted is kept, with the lowest STEPS it came with; a candidate that hears a better one stops
announcing itself. The grandmaster whose loss began the election is no candidate in it (notes/assumptions/115.md). -/
def adoptBest (a : Announce) (m : Mer) : Mer :=
  if m.lostGm = some a.ref then m
  else match m.best with
  | none => { m with best := some a }
  | some b =>
    if better a b then { m with best := some a, announcing := false }
    else if a.ref = b.ref && a.prio = b.prio && decide (a.steps < b.steps) && !m.announcing then { m with best := some { b with steps := a.steps } }
    else m

/-- The grandmaster that a CHRON offers as known (R472): its sender is the grandmaster, or is LOCKED to it. -/
def offersKnown (c : Chron) : Bool := (c.isMaster || c.locked) && decide (c.steps < 255)

/-- GM_SEQ of the known grandmaster has advanced (R46). -/
def gmSeqSeen (c : Chron) (s : State) : State :=
  let m := s.mer
  let d := (c.gmSeq + 65536 - m.gmSeq) % 65536
  if m.gmKnown && c.gmRef = m.gmRef && 1 ≤ d && d < 32768 then { s with mer := { m with gmSeq := c.gmSeq, gmSeqRound := roundNo s } } else s

/-- A module in FREE, and one in ACQUIRE or HOLDOVER that knows no grandmaster, follows the one it is offered (R45, R472): with a parent by R44, FREE
to ACQUIRE, the others by their state table. -/
def followKnown (p : Nat) (c : Chron) (s : State) : State :=
  if (s.mer.state = .free || ((s.mer.state = .acquire || s.mer.state = .holdover) && !s.mer.gmKnown)) && s.mer.electionSince.isNone && offersKnown c then
    reparent { s with mer := { s.mer with gmKnown := true, gmRef := c.gmRef, gmPrio := c.gmPrio, gmSeq := c.gmSeq, gmSeqRound := roundNo s,
                                          best := none, announcing := false,
                                          state := if s.mer.state = .free then .acquire else s.mer.state } }
  else if s.mer.electionSince.isNone && s.mer.gmKnown && s.mer.parent.isNone && s.mer.state ≠ .master && offersKnown c
      && c.gmRef = s.mer.gmRef then reparent s
  else if s.mer.parent = some p && c.gmRef = s.mer.gmRef then { s with mer := { s.mer with steps := min 255 (c.steps + 1) } }
  else s

/-- CHRON_RECEIVE (R38, R39): a CHRON whose SEQ is not newer is ignored; an accepted one gives the exchange of R39, and on the parent link
an update of the rate loop, lock and standing-route fallback. -/
def chronAccept (p : Nat) (c : Chron) (rx : Int) (s : State) : State :=
  let cp := chronOf s p
  let newer := match cp.lastSeq with
    | none => true
    | some q => let d := (c.seq + 65536 - q) % 65536; 1 ≤ d && d < 32768
  if !admitted s p || !newer then s
  else
    -- a peer that has accepted no CHRON echoes nothing, RX_ECHO 0 (notes/assumptions/116.md)
    let a1 := if c.rxEcho = 0 && c.rxEchoFrac = 0 then none else (cp.sent.find? fun x => x.1 = c.seqEcho).map (·.2)
    let b1 : Int := c.rxEcho * 256 + c.rxEchoFrac
    let b2 : Int := c.tSend * 256 + c.tSendFrac
    let delays := match a1 with
      | some a => (delayOf a b1 b2 rx :: cp.delays).take 16
      | none => cp.delays
    let s := modChron s p fun cp => { cp with
      lastSeq := some c.seq, rxEcho := rx, seqEcho := c.seq, lastRound := some (roundNo s), delays := delays,
      sent := cp.sent.filter fun x => x.1 ≠ c.seqEcho,
      rackTime := c.rackTime, peerLocked := c.locked, peerMaster := c.isMaster, steps := c.steps, gmSeq := c.gmSeq }
    let s := gmSeqSeen c s
    let s := if s.mer.electionSince.isSome || (s.mer.state = .free && !s.mer.gmKnown) then
        (if c.gmPrio < 255 then { s with mer := adoptBest ⟨c.gmRef, c.gmPrio, min 255 (c.steps + 1)⟩ s.mer } else s)
      else s
    let s := followKnown p c s
    match a1 with
    | some a =>
      if s.mer.parent = some p && s.mer.state ≠ .master && s.mer.state ≠ .free && s.mer.state ≠ .keeper then
        parentExchange (thetaOf a b1 b2 rx (tget 0 s.bank.asym p)) s
      else s
    | none => s

/-- CHRON_RECEIVE (R37 to R39): the command comes `lagNs` ns and `lagFrac` / 256 ns after the flit's first symbol left the receive path. -/
def execChronReceive (p : Nat) (c : Chron) (lagNs lagFrac : Nat) (s : State) : Host.Outcome State Fault Refusal :=
  .next (latchFallback (chronAccept p c (receiveTime s p (256 * lagNs + lagFrac)) s))

/-! ### A step and what is measured across it (R42) -/

/-- A time noted before a step of `d`, in the counter's new reckoning. -/
def movedBy (d : Int) (t : Nat) : Nat := ((t : Int) + d).toNat

/-- The times that a link notes: `d` in ns, `r` in Rounds. -/
def moveLink (d r : Int) (l : Link) : Link :=
  { l with
    phaseNs := movedBy d l.phaseNs, retryRound := movedBy r l.retryRound, upRound := movedBy r l.upRound, cardRound := movedBy r l.cardRound,
    reqRestore := movedBy r l.reqRestore, refusedNs := movedBy d l.refusedNs, rollRound := l.rollRound.map (movedBy r),
    troubleRound := l.troubleRound.map (movedBy r), returning := l.returning.map fun x => (x.1, movedBy d x.2.1, x.2.2),
    tx := { l.tx with
      replay := l.tx.replay.map fun h => { h with sentNs := movedBy d h.sentNs },
      resend := l.tx.resend.map fun h => { h with sentNs := movedBy d h.sentNs } },
    rx := { l.rx with
      lastNak := l.rx.lastNak.map (movedBy d), ackFirst := l.rx.ackFirst.map (movedBy d), pendSince := l.rx.pendSince.map (movedBy d),
      badSince := l.rx.badSince.map (movedBy r), tagFails := l.rx.tagFails.map (movedBy r) },
    keys := { l.keys with
      rekeySince := l.keys.rekeySince.map (movedBy d), lastRekey := movedBy r l.keys.lastRekey, switchNs := movedBy d l.keys.switchNs },
    adm := { l.adm with stepNs := movedBy d l.adm.stepNs } }

/-- The times that a lane notes. -/
def moveLane (r : Int) (x : Lane) : Lane :=
  { x with
    gapBack := x.gapBack.map (movedBy r), searchRound := movedBy r x.searchRound, losClearRound := x.losClearRound.map (movedBy r),
    testEnd := x.testEnd.map (movedBy r), fecRound := x.fecRound.map (movedBy r) }

/-- The times that the Meridian unit notes; those of an exchange under way in 1/256 ns. -/
def moveMer (d r : Int) (m : Mer) : Mer :=
  { m with
    gmSeqRound := movedBy r m.gmSeqRound, parentSince := movedBy r m.parentSince, electionSince := m.electionSince.map (movedBy r),
    firstAdmission := m.firstAdmission.map (movedBy r), holdoverEnd := m.holdoverEnd.map (movedBy d),
    ports := m.ports.map fun x => (x.1, { x.2 with
      lastRound := x.2.lastRound.map (movedBy r), rxEcho := if x.2.lastSeq.isSome then x.2.rxEcho + 256 * d else x.2.rxEcho,
      sent := x.2.sent.map fun y => (y.1, y.2 + 256 * d) }) }

/-- The times that the postmaster and the tray interface note. -/
def movePm (d r : Int) (m : Pm) : Pm :=
  { m with
    chans := m.chans.map fun x => (x.1, { x.2 with stageRound := movedBy r x.2.stageRound, retires := x.2.retires.map (movedBy r) }),
    restartFrom := movedBy r m.restartFrom,
    standingRound := movedBy r m.standingRound, accBad := m.accBad.map fun x => (x.1, movedBy r x.2), aliveRound := movedBy r m.aliveRound, hb1Round := movedBy r m.hb1Round, hb2Round := movedBy r m.hb2Round,
    restartRounds := m.restartRounds.map (movedBy r), lostRound := movedBy r m.lostRound, absentSince := m.absentSince.map (movedBy r),
    firstMismatch := movedBy r m.firstMismatch, copyDue := m.copyDue.map (movedBy r), rackHeard := movedBy d m.rackHeard,
    fabHeard := movedBy d m.fabHeard, healthSentRound := movedBy r m.healthSentRound }

def moveTray (d r : Int) (x : Tray) : Tray :=
  { x with
    rollNs := movedBy d x.rollNs, aliveNs := movedBy d x.aliveNs, bbSince := movedBy d x.bbSince, pullRound := movedBy r x.pullRound,
    permitWait := x.permitWait.map fun y => (y.1, movedBy d y.2) }

/-- What is timed by differences of the Meridian, silences, time limits and periods, runs on across a step of `d` ns and `r` Rounds as if there were
none (DEDUCED: notes/assumptions/137.md); Rounds that a command or record names stand as they are. -/
def moveTimes (d r : Int) (s : State) : State :=
  { s with
    trust := { s.trust with burnRound := movedBy r s.trust.burnRound, serviceSince := movedBy r s.trust.serviceSince,
                            checks := s.trust.checks.map fun x => (x.1, movedBy r x.2) },
    links := s.links.map fun x => (x.1, moveLink d r x.2), lanes := s.lanes.map fun x => (x.1, moveLane r x.2), mer := moveMer d r s.mer,
    pm := movePm d r s.pm, tray := moveTray d r s.tray }

/-- A pending step is applied on a boundary cycle and every timed action pending is cancelled with NOT_READY (R42); a module that has left
ACQUIRE applies none (R40). -/
def applyStep (s : State) : State :=
  match s.mer.pendingStep with
  | none => s
  | some d =>
    if s.mer.state ≠ .acquire then { s with mer := { s.mer with pendingStep := none } }
    else
      let t := (((merTotal s : Nat) : Int) + divNear (d * (2 ^ 32 : Nat)) 512000) % (2 ^ 96 : Nat)
      let u : State := { s with mer := { setMeridian t.toNat s.mer with pendingStep := none } }
      cancelTimed .notReady (moveTimes ((u.mer.ns : Int) - s.mer.ns) ((roundNo u : Int) - roundNo s) u)

/-- MERIDIAN_STEP (R42), on a boundary cycle; ROUND_BOUNDARY applies the step that is pending as the boundary comes (R50 item 1). -/
def execMeridianStep (s : State) : Host.Outcome State Fault Refusal := .next (if s.mer.cycle = 0 then applyStep s else s)

/-- On exit to ST2 or above, once REFCLK is ready, the Meridian unit takes the counter over from the keeper, which kept it in the same place of
State, and the module is in ACQUIRE (R35); timed service is off until it locks again (R47). -/
def keeperReload (s : State) : State :=
  if s.mer.state = .keeper && decide (s.pow.ladder ≤ 2) && (srcOf s 0).ready then
    latchFallback (reparent { s with mer := { s.mer with
      state := .acquire, timed := false, keeperRuns := false, holdoverEnd := none } })
  else s

/-- KEEPER_RELOAD (R35), on the first boundary cycle after REFCLK is ready. -/
def execKeeperReload (s : State) : Host.Outcome State Fault Refusal := .next (if s.mer.cycle = 0 then keeperReload s else s)

/-- The parent link is down, or no CHRON has been accepted on it for 2 × CHRON_INTERVAL Rounds (R46). -/
def parentGone (s : State) : Bool :=
  match s.mer.parent with
  | none => false
  | some p => !admitted s p || decide (roundNo s ≥ max ((chronOf s p).lastRound.getD 0) s.mer.parentSince + 2 * chronInterval s)

/-- To HOLDOVER from LOCKED, timed service on for 1 s more (state table of R45). -/
def enterHoldover (m : Mer) : Mer :=
  if m.state = .locked || m.state = .master then
    { m with state := .holdover, holdoverEnd := some (m.ns + 1000000000), rateNext := m.rate, lockRun := 0 }
  else if m.state = .acquire then { m with state := .holdover, rateNext := m.rate, lockRun := 0 }
  else m

/-- PARENT_LOST (R46): to HOLDOVER, with a new parent chosen by R44 at once. -/
def execParentLost (s : State) : Host.Outcome State Fault Refusal :=
  if parentGone s then .next (reparent { s with mer := enterHoldover s.mer }) else .next s

/-- An election begins (R472): a candidate announces itself, with STEPS 0 and GM_SEQ unchanged, unless it holds a better announcement
already (notes/assumptions/117.md). -/
def startElection (s : State) : State :=
  let own : Announce := ⟨ownRef s, merPrio s, 0⟩
  let cand := decide (merPrio s < 255) && (match s.mer.best with | some b => !better b own | none => true)
  { s with mer := { s.mer with electionSince := some (roundNo s), lostGm := if s.mer.gmKnown then some s.mer.gmRef else none, gmKnown := false,
                               parent := none, announcing := cand, best := if cand then some own else s.mer.best } }

/-- GRANDMASTER_LOST (R46): GM_SEQ has not advanced on any link for 64 Rounds; to HOLDOVER and an election. -/
def execGrandmasterLost (s : State) : Host.Outcome State Fault Refusal :=
  if s.mer.gmKnown && s.mer.state ≠ .master && s.mer.state ≠ .keeper && decide (roundNo s ≥ s.mer.gmSeqRound + 64) then
    .next (startElection { s with mer := { enterHoldover s.mer with best := none } })
  else .next s

/-- ELECTION_START_FREE (R472): FREE, 64 Rounds after the first admission, no grandmaster announced. A candidate's announcement is not that of a
grandmaster (notes/assumptions/117.md). -/
def execElectionStartFree (s : State) : Host.Outcome State Fault Refusal :=
  match s.mer.firstAdmission with
  | none => .next s
  | some r =>
    if s.mer.state = .free && !s.mer.gmKnown && s.mer.electionSince.isNone && decide (roundNo s ≥ r + 64) then
      .next (startElection s)
    else .next s

/-- The window's outcome (R472): the best candidate enters MASTER; every other module takes its parent toward the best it holds. One that holds no
announcement, which R472 does not speak of, knows no grandmaster and has no parent; it follows the first that it is offered as known, and out of
FREE it runs an election again (DESIGN CHOICE: notes/assumptions/117.md). -/
def windowClose (s : State) : State :=
  let m := s.mer
  if m.announcing && (m.state = .free || m.state = .holdover) then
    { s with mer := { m with state := .master, timed := true, holdoverEnd := none, gmKnown := true, gmRef := ownRef s, gmPrio := merPrio s,
                             gmSeqRound := roundNo s, steps := 0, parent := none, rackTime := true, electionSince := none, announcing := false,
                             best := none, lostGm := none, integ := 0, rateNext := s.bank.regs.gmTrim * thetaUnit } }
  else
    match m.best with
    | none => { s with mer := { m with electionSince := none, lostGm := none } }
    | some b =>
      reparent { s with mer := { m with lostGm := none, gmKnown := true, gmRef := b.ref, gmPrio := b.prio, gmSeqRound := roundNo s, electionSince := none,
                                        best := none, rackTime := m.rackTime && decide (slotOf b.ref % 16 = modIndex s) } }

/-- ELECTION_WINDOW_CLOSE (R472): the first boundary at least 32 × CHRON_INTERVAL Rounds after the election began. -/
def execElectionWindowClose (s : State) : Host.Outcome State Fault Refusal :=
  match s.mer.electionSince with
  | none => .next s
  | some r => if roundNo s ≥ r + 32 * chronInterval s then .next (windowClose s) else .next s

/-- HOLDOVER_EXPIRY (R47): HOLDOVER's 1 s has run out and timed service goes off. -/
def execHoldoverExpiry (s : State) : Host.Outcome State Fault Refusal :=
  match s.mer.holdoverEnd with
  | none => .next s
  | some t =>
    if (s.mer.state = .holdover || s.mer.state = .keeper) && decide (s.mer.ns ≥ t) then
      .next (latchFallback { s with mer := { s.mer with timed := false, holdoverEnd := none } })
    else .next s

/-- The partner's last roll record shows module g out of service for time: LADDER 2 or above, LEAVING or not (R44). -/
def rollOut (r : Option RollRecord) : Bool := match r with | some r => decide (r.ladder ≥ 2) | none => false

/-- RACK_TIME_TAKEOVER (R44): module g XOR 1 takes the role of time lead, with a parent from its own trunks. -/
def execRackTimeTakeover (s : State) : Host.Outcome State Fault Refusal :=
  if s.mer.gmKnown && plane s = modIndex s ^^^ 1 && !s.mer.rackTime && (s.pm.partnerLost || rollOut s.pm.partnerLast) then
    -- what module g sent before is no sign that it is back
    let s := ((s.mer.ports.map (·.1)).filter isPeer).foldl (fun s p => modChron s p fun c => { c with rackTime := false }) s
    .next (reparent { s with mer := { s.mer with rackTime := true } })
  else .next s

/-- RACK_TIME_RELEASE (R44): a CHRON from module g with RACK_TIME set has been accepted on a peer link. -/
def execRackTimeRelease (s : State) : Host.Outcome State Fault Refusal :=
  if s.mer.gmKnown && plane s = modIndex s ^^^ 1 && s.mer.rackTime && (admittedPorts s).any (fun p => isPeer p && (chronOf s p).rackTime) then
    .next (reparent { s with mer := { s.mer with rackTime := false } })
  else .next s

/-- A CHRON is due on every admitted port whose Round it is (R36); the fields are stamped when it leaves. -/
def chronDue (s : State) : State :=
  (admittedPorts s).foldl (fun s p =>
    if roundNo s % chronInterval s = p % chronInterval s then modChron s p fun c => { c with due := true } else s) s

/-- T_SEND of a CHRON that leaves now, 1/256 ns: the Meridian at the flit boundary plus the port's calibrated transmit-path latency, on the
lowest-numbered lane the link holds (R37). -/
def sendTime (s : State) (p : Nat) : Nat :=
  (merStamp s + Config.txPath p (stampLane s p)) % 2 ^ 72

/-- An accelerator does not answer CHRON on one of its access links, which breaches R45: no CHRON has come on an admitted access port for
2 × CHRON_INTERVAL Rounds (DEDUCED: notes/assumptions/138.md). -/
def accessSilent (s : State) : Bool :=
  (admittedPorts s).any fun p =>
    isAccess p && decide (roundNo s ≥ max ((chronOf s p).lastRound.getD 0) (linkOf s p).keys.lastRekey + 2 * chronInterval s)

/-- The CHRON payload that a port sends now (R37, R38). In an election it carries the announcement held, or none: GM_PRIO 255 (R472).
LOCKED is clear while an accelerator breaches R45. -/
def chronNow (s : State) (p : Nat) : Chron :=
  let m := s.mer
  let c := chronOf s p
  let ann : Announce := match m.best with
    | some b => b
    | none => if m.electionSince.isSome then ⟨0, 255, 255⟩ else ⟨m.gmRef, m.gmPrio, m.steps⟩
  { tSend := sendTime s p / 256, tSendFrac := sendTime s p % 256, locked := (m.state = .locked || m.state = .master) && !accessSilent s, holdover := m.state = .holdover,
    isMaster := m.state = .master, rackTime := m.rackTime, timed := m.timed, seq := c.txSeq, rxEcho := (c.rxEcho / 256).toNat,
    rxEchoFrac := (c.rxEcho % 256).toNat, seqEcho := c.seqEcho, gmRef := ann.ref, gmPrio := ann.prio, steps := ann.steps, gmSeq := m.gmSeq,
    senderRate := divNear m.rate 512000 }

/-- The 236 payload bytes of a CHRON flit (R38). -/
def chronBytes (c : Chron) : List Byte :=
  fit 236 (leBytes 8 c.tSend ++ leBytes 1 c.tSendFrac ++
    leBytes 1 (bit c.locked + 2 * bit c.holdover + 4 * bit c.isMaster + 8 * bit c.rackTime + 16 * bit c.timed) ++ leBytes 2 c.seq ++
    leBytes 8 c.rxEcho ++ leBytes 1 c.rxEchoFrac ++ [0] ++ leBytes 2 c.seqEcho ++ leBytes 3 c.gmRef ++ leBytes 1 c.gmPrio ++ leBytes 1 c.steps ++
    [0] ++ leBytes 2 c.gmSeq ++ leBytes 4 (toSigned 32 c.senderRate))

/-- The CHRON that 236 payload bytes spell (R38). -/
def chronOfBytes (l : List Byte) : Chron :=
  let f := fieldAt l 9 1
  { tSend := fieldAt l 0 8, tSendFrac := fieldAt l 8 1, locked := bitOf f 0, holdover := bitOf f 1, isMaster := bitOf f 2, rackTime := bitOf f 3,
    timed := bitOf f 4, seq := fieldAt l 10 2, rxEcho := fieldAt l 12 8, rxEchoFrac := fieldAt l 20 1, seqEcho := fieldAt l 22 2,
    gmRef := fieldAt l 24 3, gmPrio := fieldAt l 27 1, steps := fieldAt l 28 1, gmSeq := fieldAt l 30 2, senderRate := ofSigned 32 (fieldAt l 32 4) }

/-- A CHRON leaves a port: T_SEND is kept for the answer and SEQ advances (R38, R39). -/
def chronSent (p : Nat) (s : State) : State :=
  modChron s p fun c => { c with
    due := false, txSeq := (c.txSeq + 1) % 65536,
    sent := ((c.txSeq, (sendTime s p : Int)) :: c.sent).take 64 }

end Sys2Proof.Machine
end

