-- ==== Sys2Proof/Machine/Letters.lean ====
section
/-! DEFINITION. Letters (spec/05): the header's layout and check, the letter check, the cutting of a letter into flits, and the letters that
the module itself originates. -/

namespace Sys2Proof.Machine

/-- The header that 32 bytes spell (R123). -/
def headerOf (l : List Byte) : Header :=
  let w6 := fieldAt l 6 2
  let b8 := fieldAt l 8 1
  let b9 := fieldAt l 9 1
  let w12 := fieldAt l 12 2
  { dest := fieldAt l 0 3, src := fieldAt l 3 3, plot := w6 % 4096, cls := w6 / 4096, vc := b8 % 8, reg := bitOf b9 0, mc := bitOf b9 1,
    spr := bitOf b9 2, copy := bitOf b9 3, sseq := fieldAt l 10 2, length := w12 % 8192, raddr := fieldAt l 14 7, groupOp := fieldAt l 22 2,
    mline := fieldAt l 24 4, hcheck := fieldAt l 30 2,
    reserved := b8 / 8 + b9 / 16 + w12 / 8192 + fieldAt l 21 1 + fieldAt l 28 2 }

/-- Header bytes 0–29 (R123), reserved fields 0. -/
def headerBody (h : Header) : List Byte :=
  leBytes 3 h.dest ++ leBytes 3 h.src ++ leBytes 2 (h.plot % 4096 + 4096 * h.cls) ++ leBytes 1 (h.vc % 8) ++
  leBytes 1 (bit h.reg + 2 * bit h.mc + 4 * bit h.spr + 8 * bit h.copy) ++ leBytes 2 h.sseq ++ leBytes 2 (h.length % 8192) ++ leBytes 7 h.raddr ++
  leBytes 1 0 ++ leBytes 2 h.groupOp ++ leBytes 4 h.mline ++ leBytes 2 0

/-- The 32 header bytes (R123). -/
def headerBytes (h : Header) : List Byte := headerBody h ++ leBytes 2 h.hcheck

/-- Header bytes with VC and COPY taken as 0, as both checks take them (R125, R126). -/
def checkedBytes (l : List Byte) : List Byte :=
  (l.zip (List.range l.length)).map fun (b, i) => if i = 8 then b &&& 0xF8 else if i = 9 then b &&& 0xF7 else b

/-- HCHECK of 32 header bytes (R125). -/
def hcheckOf (l : List Byte) : Nat := crc16 ((checkedBytes l).take 30)

/-- The letter check over header and payload (R126). -/
def letterCheckOf (l : List Byte) : Nat := crc64 (checkedBytes l)

/-- The flits of a letter: ⌈(40 + LENGTH) / 236⌉ (R122). -/
def flitCount (length : Nat) : Nat := (40 + length + 235) / 236

/-- Bytes cut into 236-byte payloads, the last one filled with zeros (R122). -/
def cutFlits : Nat → List Byte → List (List Byte)
  | 0, _ => []
  | n + 1, l => fit 236 l :: cutFlits n (l.drop 236)

/-- The whole letter: header with HCHECK, payload, letter check (R122, R125, R126). -/
def letterBytes (h : Header) (payload : List Byte) : List Byte :=
  let h := { h with length := payload.length }
  let hb := headerBytes { h with hcheck := hcheckOf (headerBody h ++ [0, 0]) }
  hb ++ payload ++ leBytes 8 (letterCheckOf (hb ++ payload))

/-- A stream's key as a number (R135): kind 0 DEST and CLASS, 1 GROUP_OP, 2 GROUP_OP and rack, 3 MLINE. -/
def streamKey (h : Header) : Nat :=
  if h.mc then 3 * 2 ^ 40 + h.mline
  else if h.cls = 4 then 2 * 2 ^ 40 + h.groupOp * 4096 + rackOf h.dest
  else if h.cls = 2 || h.cls = 3 then 2 ^ 40 + h.groupOp * 16 + h.cls
  else h.dest * 16 + h.cls

/-- A stream's number: SRC and stream key (R135). -/
def reorderKey (h : Header) : Nat := h.src * 2 ^ 44 + streamKey h

/-- The path key of R181, as bytes. -/
def pathKey (h : Header) : List Byte :=
  if h.mc then leBytes 4 h.mline
  else if h.cls = 2 || h.cls = 3 || h.cls = 4 then leBytes 2 h.groupOp
  else leBytes 3 h.dest ++ leBytes 1 h.cls

/-- KEY and KEY_KIND of a LOSS notice (R196). -/
def keyKind (h : Header) : Nat := if h.mc then 2 else if h.cls = 2 || h.cls = 3 || h.cls = 4 then 1 else 0

/-- h of R181: CRC-16 over SRC and the path key. -/
def pathHash (h : Header) : Nat := crc16 (leBytes 3 h.src ++ pathKey h)

/-- A header with every field at 0 but those named. -/
def blankHeader : Header :=
  { dest := 0, src := 0, plot := 0, cls := 0, vc := 0, reg := false, mc := false, spr := false, copy := false, sseq := 0, length := 0,
    raddr := 0, groupOp := 0, mline := 0, hcheck := 0, reserved := 0 }

/-- SRC of the module's own letters: X, Y and Z are 0 until it has learned them (R121). -/
def srcRef (s : State) : Nat := if s.ident.learned then ownRef s else gridOf 0 0 0 (112 + modIndex s) 31

/-- A letter of the module's own, with the next SSEQ of its stream (R135); the state holds the SSEQ after it. -/
def ownLetter (h : Header) (group : Nat) (payload : List Byte) (s : State) : OwnLetter × State :=
  let k := reorderKey h
  let q := tget 0 s.route.ownSseq k
  let h := { h with sseq := q }
  ({ vc := h.vc, flits := cutFlits (flitCount payload.length) (letterBytes h payload), sent := 0, group := group, sinceRound := roundNo s },
   { s with route := { s.route with ownSseq := tset 0 s.route.ownSseq k ((q + 1) % 65536) } })

/-- The header that an own letter carries. -/
def ownHeader (l : OwnLetter) : Header := headerOf (((l.flits.head?).getD []).take 32)

/-- An own letter on another VC (R127): VC is outside both checks. -/
def onVc (vc : Nat) (l : OwnLetter) : OwnLetter :=
  { l with vc := vc, flits := l.flits.modify 0 fun f => f.take 8 ++ [((f.getD 8 0) &&& 0xF8) ||| BitVec.ofNat 8 vc] ++ f.drop 9 }

/-- An own letter enters the egress of its output (R145). -/
def enterEgress (p : Nat) (l : OwnLetter) (s : State) : State := modEgress s p fun e => { e with own := e.own ++ [l] }

/-- The wait of a step for the back pass of an axis starts (R261): a BROADCAST, operator 4, waits on none by it. -/
def startBack (e a : Nat) (s : State) : State :=
  modGroup s e fun g =>
    let p := tget {} g.passes (2 * a + 1)
    if !g.launched || g.endDue || (g.record.map (·.operator)) = some 4 || p.timer.isSome then g
    else { g with passes := tset {} g.passes (2 * a + 1) { p with timer := some (roundNo s) } }

/-- An office's letter has left (R261): a STEP_MARK of a forward pass, of the current step, starts the wait for the back pass. -/
def markLeft (l : OwnLetter) (s : State) : State :=
  let h := ownHeader l
  let fwd := h.cls = 4 && h.raddr % 2 ^ 32 = 0xFFFFFFC0 && !bitOf h.raddr 54
  if l.group ≠ 0 && fwd && bitsOf h.raddr 47 32 = (groupOf s (l.group - 1)).step then startBack (l.group - 1) (bitsOf h.raddr 53 52) s else s

end Sys2Proof.Machine
end

