-- ==== Sys2Proof/Machine/Routing.lean ====
section
/-! DEFINITION. The entry checks of R128 and the Atlas lookup (spec/07): Plots, the rack table, spray sets, date lines, multicast lines, and
the slow-post notices that routing makes. -/

namespace Sys2Proof.Machine

/-! ### Coordinates -/

/-- Coordinate of a rack on an axis (0 x, 1 y, 2 z), from DEST[23:12] (R118). -/
def coord (rack axis : Nat) : Nat := if axis = 0 then rack / 256 % 16 else if axis = 1 then rack / 16 % 16 else rack % 16

/-- Axis length in racks (R183). -/
def axisLen (s : State) (axis : Nat) : Nat := 1 + (if axis = 0 then s.ident.lenX else if axis = 1 then s.ident.lenY else s.ident.lenZ)

/-- The axis's date line DL (R183). -/
def dateLine (s : State) (axis : Nat) : Nat := if axis = 0 then s.ident.dlX else if axis = 1 then s.ident.dlY else s.ident.dlZ

/-- Coordinates within the axis lengths. -/
def rackFits (s : State) (rack : Nat) : Bool :=
  decide (coord rack 0 < axisLen s 0) && decide (coord rack 1 < axisLen s 1) && decide (coord rack 2 < axisLen s 2)

/-- A rack's linear index r (R187). -/
def rackIndex (s : State) (rack : Nat) : Nat := coord rack 0 + axisLen s 0 * (coord rack 1 + axisLen s 1 * coord rack 2)

/-- Axis of a trunk direction 1–6. -/
def axisOfDir (dir : Nat) : Nat := (dir - 1) / 2

/-- The opposite direction: E–W, N–S, U–D. -/
def oppositeDir (dir : Nat) : Nat := if dir % 2 = 1 then dir + 1 else dir - 1

/-- A hop in a direction from this rack crosses the axis's date line (R183). -/
def crossesDateLine (s : State) (dir : Nat) : Bool :=
  let a := axisOfDir dir
  let c := coord (ownRack s) a
  if dir % 2 = 1 then decide (c = dateLine s a) else decide (c = (dateLine s a + 1) % axisLen s a)

/-! ### Tables in force -/

/-- A rack table entry (R175). -/
def rackEntry (b : Bank) (rack : Nat) : RackEntry := tget {} b.rack rack

/-- A Plot entry: entry 0 is VALID with every rack and slot (R187). -/
def plotEntry (b : Bank) (n : Nat) : PlotEntry :=
  if n = 0 then ⟨true, BitVec.allOnes 128, BitVec.allOnes 128⟩ else tget ⟨false, 0, 0⟩ b.plot n

/-- A multicast mask: entry 0 holds all 128 slots (R140). -/
def maskEntry (b : Bank) (n : Nat) : BitVec 128 := if n = 0 then BitVec.allOnes 128 else tget 0 b.mask n

/-- A spray weight, 1 by default (R179). -/
def sprayWeight (b : Bank) (dir link : Nat) : Nat := tget 1 b.spray (16 * dir + link)

/-- A slot-map entry of an output (R159). -/
def slotEntry (b : Bank) (out slot : Nat) : SlotEntry := tget ⟨false, 0, 0⟩ b.slot (200 * out + slot)

/-- Width of a link: its active lanes. -/
def linkWidth (s : State) (p : Nat) : Nat := sumNat ((List.range 4).map fun j => bit ((linkOf s p).width.getLsbD j))

/-- A spray link takes no new letters while it is DRAINING (R202). -/
def linkDraining (s : State) (dir link : Nat) : Bool := s.route.drainLinks.contains (dir, link)

/-- R179: weight above 0, ADMITTED, not DRAINING; a parked or roll-silent link is out of the set too (R305, R306). -/
def eligibleLink (s : State) (dir link : Nat) : Bool :=
  let p := portOfDir dir link
  let l := linkOf s p
  decide (sprayWeight s.bank dir link > 0) && decide (l.disc = .admitted) && !l.silent && !l.parked && !linkDraining s dir link

def eligibleLinks (s : State) (dir : Nat) : List Nat := (List.range 16).filter (eligibleLink s dir)

/-! ### Queues -/

/-- The send's standing route, where it is not in fallback (R161, R162). -/
def sendRoute (s : State) (x : Send) : Option Nat :=
  match x.route with
  | some r => if routeFallen s x.port r then none else some r
  | none => none

/-- Flits that a send has in all: two for a copy of the first 256 letter bytes (R165). -/
def sendTotal (l : Letter) (x : Send) : Nat := if x.trunc then 2 else flitCount l.hdr.length

/-- Cells that a send holds and has not sent: those received that it needs; of a spoilt letter whose HEAD has left only the END_SPOILT that is
due (R130), and of one that has sent nothing none. -/
def sendLeft (l : Letter) (x : Send) : Nat :=
  if x.done then 0
  else if l.spoilt.isSome then bit (x.sent ≠ 0)
  else min l.cells.length (sendTotal l x) - x.sent

/-- Cells that a letter's send has queued for an output's VC through the Dispatcher (R197): none before it joins the queue. -/
def sendCells (s : State) (l : Letter) (x : Send) (port vc : Nat) : Nat :=
  if x.port = port && x.vc = vc && x.seq ≠ 0 && (sendRoute s x).isNone then sendLeft l x else 0

/-- q(p, v): cells queued for output p on VC v in both hemispheres (R197). -/
def queued (s : State) (port vc : Nat) : Nat :=
  s.sw.letters.foldl (fun n x => n + sumNat (x.2.sends.map fun y => sendCells s x.2 y port vc)) 0

/-- The cells of q(p, v) that were queued ahead of a send that joined with number `seq`. -/
def queuedBefore (s : State) (seq port vc : Nat) : Nat :=
  s.sw.letters.foldl (fun n x => n + sumNat ((x.2.sends.filter fun y => y.seq < seq).map fun y => sendCells s x.2 y port vc)) 0

/-- Cells queued for an output on every VC (R180). -/
def queuedCells (s : State) (port : Nat) : Nat := sumNat ((List.range 8).map (queued s port))

/-! ### Choice of a link -/

/-- The lowest score among the candidates, ties to the first from the rotating pointer on (R180). -/
def sprayChoice (s : State) (ingress dir : Nat) : Option (Nat × State) :=
  let cand := eligibleLinks s dir
  if cand.isEmpty then none
  else
    let start := tget 0 s.route.sptr (16 * ingress + dir)
    let score := fun k => queuedCells s (portOfDir dir k) * 64 / max 1 (sprayWeight s.bank dir k * linkWidth s (portOfDir dir k))
    let order := (List.range 16).map fun i => (start + i) % 16
    let best := (order.filter fun k => cand.contains k).foldl (fun b k => match b with
      | none => some k
      | some q => if score k < score q then some k else some q) none
    best.map fun k => (k, { s with route := { s.route with sptr := tset 0 s.route.sptr (16 * ingress + dir) ((k + 1) % 16) } })

/-- The link in whose cumulative weight range h mod W falls (R181). -/
def weightedPick (b : Bank) (dir : Nat) : List Nat → Nat → Option Nat
  | [], _ => none
  | k :: r, h => if h < sprayWeight b dir k then some k else weightedPick b dir r (h - sprayWeight b dir k)

/-- The link of a letter with SPR clear (R181). -/
def fixedChoice (s : State) (h : Header) (dir : Nat) : Option Nat :=
  let cand := eligibleLinks s dir
  let w := sumNat (cand.map (sprayWeight s.bank dir))
  if w = 0 then none else weightedPick s.bank dir cand (pathHash h % w)

/-- A link of a direction's spray set, by R180 or R181. -/
def chooseLink (s : State) (h : Header) (ingress dir : Nat) : Option (Nat × State) :=
  if h.spr then sprayChoice s ingress dir else (fixedChoice s h dir).map fun k => (k, s)

/-- The VC on which a letter leaves (R184): `arr` is the arrival port and VC, none for the module's own letters. -/
def leaveVc (s : State) (h : Header) (arr : Option (Nat × Nat)) (out : Nat) : Nat :=
  let c := if isTrunk out then
      let a := axisOfDir (dirOfPort out)
      let up := match arr with
        | some (p, v) => isTrunk p && decide (axisOfDir (dirOfPort p) = a) && (v = 1 || v = 3)
        | none => false
      bit (up || crossesDateLine s (dirOfPort out))
    else 0
  if h.cls = 0 then c
  else if h.cls = 1 then 2 + c
  else if h.cls = 3 then (if h.mc && isTrunk out then 2 + c else 5)
  else if h.cls = 2 then 4
  else if h.cls = 4 then 6
  else 7

/-! ### Entry checks -/

/-- DEST is this module's post boxes (R119, R178). -/
def destIsSelf (s : State) (dest : Nat) : Bool := dest = srcRef s

/-- VC allowed for CLASS on a port (R128, check 3). -/
def vcAllowed (h : Header) (p vc : Nat) : Bool :=
  h.vc = vc &&
  (match h.cls with
    | 0 => vc = 0 || vc = 1
    | 1 => vc = 2 || vc = 3
    | 2 => vc = 4
    | 3 => vc = 5 || ((vc = 2 || vc = 3) && h.mc && isTrunk p)
    | 4 => vc = 6
    | _ => vc = 7) &&
  (!(vc = 4 || vc = 5) || isAccess p) && (!(vc = 1 || vc = 3) || !isAccess p)

/-- Fields of MLINE (R140). -/
def mAxis (h : Header) : Nat := h.mline % 4
def mFirst (h : Header) : Nat := bitsOf h.mline 5 2
def mCount (h : Header) : Nat := bitsOf h.mline 9 6
def mMask (h : Header) : Nat := bitsOf h.mline 21 12

/-- R142: what a multicast letter must meet. -/
def multicastOk (s : State) (h : Header) : Bool :=
  let a := mAxis h
  let n := axisLen s a
  let sr := rackOf h.src
  (h.cls = 0 || h.cls = 3 || h.cls = 5) && !h.reg && !h.spr && unitPart h.dest ≠ 31 && bitsOf h.mline 11 10 = 0 && bitsOf h.mline 31 22 = 0 &&
  a ≠ 3 && mCount h + 1 ≤ n && mFirst h < n && decide ((coord sr a + n - mFirst h) % n ≤ mCount h) &&
  [0, 1, 2].all fun b => b = a || coord sr b = coord (rackOf h.dest) b

/-- R133: the post box named, from an allowed source. -/
def postboxOk (s : State) (h : Header) : Bool :=
  if h.cls = 6 then true
  else if h.cls = 2 || h.cls = 3 || h.cls = 4 then false
  else
    let b := h.raddr
    if 8 ≤ b && b ≤ 11 then true
    else if b = 16 then h.src = gridOf (coord (rackOf (srcRef s)) 0) (coord (rackOf (srcRef s)) 1) (coord (rackOf (srcRef s)) 2) (112 + (modIndex s ^^^ 1)) 31
    else if 128 ≤ b && b ≤ 255 then rackOf h.src = rackOf (srcRef s) && slotOf h.src = b - 128 && unitPart h.src ≠ 31
    else false

/-- The first entry check that a letter's header fails, as its port counter (R128, R414); none where it passes.
MLINE without MC is let pass (notes/assumptions/125.md). -/
def entryCheck (s : State) (p vc : Nat) (head : List Byte) : Option Nat :=
  let hb := head.take 32
  let h := headerOf hb
  let r := rackOf h.dest
  if hcheckOf hb ≠ h.hcheck then some 16
  else if h.reserved ≠ 0 || h.cls > 7 || h.length > 4096 then some 17
  else if !vcAllowed h p vc then some 14
  else if !s.ident.learned && vc ≠ 7 then some 18
  else if h.src = srcRef s || (isAccess p && !(rackOf h.src = rackOf (srcRef s) && slotOf h.src = p && unitPart h.src ≠ 31)) then some 19
  else if h.copy then some 20
  else if (unitPart h.dest = 31 && slotOf h.dest < 112) ||
      (s.ident.learned && !([0, 1, 2].all fun a => (h.mc && mAxis h = a) || coord r a < axisLen s a)) then some 21
  else if h.mc && !multicastOk s h then some 22
  else if !h.mc && destIsSelf s h.dest && !postboxOk s h then some 23
  else none

/-! ### The Atlas lookup -/

/-- The entry of a group that this module hosts, by group number: its table entry holds a committed group (R173 step 2, R240). -/
def groupEntryOf (s : State) (group : Nat) : Option Nat :=
  (s.groups.find? fun x => (x.2.state = .running || x.2.state = .closing || x.2.state = .closed) &&
    (match x.2.record with | some r => decide (r.group = group) | none => false)).map (·.1)

/-- Step 1 of R173: the Plot checks at entry (R188). -/
def plotAtEntry (s : State) (h : Header) (p : Nat) : Bool :=
  let e := plotEntry s.bank h.plot
  let here := rackIndex s (rackOf (srcRef s))
  if h.cls ≥ 5 then h.plot = 0
  else
    h.plot ≠ 0 && e.valid &&
    (if isAccess p then
        e.rackMask.getLsbD here && (h.mc || e.rackMask.getLsbD (rackIndex s (rackOf h.dest))) && e.slotMask.getLsbD p
      else if !h.mc && rackOf h.dest = rackOf (srcRef s) then e.rackMask.getLsbD here
      else true)

/-- The standing route of an input on VC6: an output with a VALID slot whose SOURCE and ROUTE match (R161). -/
def routeOf (b : Bank) (source route : Nat) : Option Nat :=
  (b.slot.find? fun x => x.2.valid && x.2.source = source && x.2.route = route).map (·.1 / 200)

/-- The direction of a letter for another rack: the one it arrived in while its axis still differs (R176), else the rack table's. -/
def directionOf (s : State) (h : Header) (arr : Option (Nat × Nat)) : Option Nat :=
  let r := rackOf h.dest
  let straight := match arr with
    | some (p, _) =>
      if isTrunk p && decide (coord r (axisOfDir (dirOfPort p)) ≠ coord (rackOf (srcRef s)) (axisOfDir (dirOfPort p))) then some (oppositeDir (dirOfPort p)) else none
    | none => none
  match straight with
  | some d => some d
  | none =>
    let e := rackEntry s.bank r
    if e.valid && e.dir ≠ 0 then some e.dir else none

/-- The delivery check of an access copy or letter (R188): the slot is in SLOT_MASK, the rack in RACK_MASK. -/
def deliverable (s : State) (h : Header) (slot : Nat) : Bool :=
  let e := plotEntry s.bank h.plot
  e.slotMask.getLsbD slot && e.rackMask.getLsbD (rackIndex s (rackOf (srcRef s)))

/-- The copies of a multicast letter in their order (R141, R158): trunk copies, positive direction first, then the access copies; and how
many were lost for want of a path. -/
def multicastCopies (s : State) (h : Header) (arr : Option (Nat × Nat)) : List (Nat × Nat) × Nat :=
  let a := mAxis h
  let n := axisLen s a
  let off := (coord (rackOf (srcRef s)) a + n - mFirst h) % n
  let pos := 2 * a + 1
  let fromTrunk := match arr with | some (p, _) => if isTrunk p then some (oppositeDir (dirOfPort p)) else none | none => none
  let dirs := (if off < mCount h && (fromTrunk = none || fromTrunk = some pos) then [pos] else []) ++
    (if 0 < off && (fromTrunk = none || fromTrunk = some (pos + 1)) then [pos + 1] else [])
  let trunks := dirs.map fun d => (fixedChoice s h d).map fun k => (portOfDir d k, leaveVc s h arr (portOfDir d k))
  let mask := maskEntry s.bank (mMask h)
  let slots := (List.range 128).filter fun k => mask.getLsbD k && (h.cls ≥ 5 || deliverable s h k)
  let access := slots.map fun k => if admitted s k then some (k, leaveVc s h arr k) else none
  let all := trunks ++ access
  (all.filterMap id, (all.filter Option.isNone).length)

/-- R173 from step 2 on: `arr` is the arrival port and VC, none for the module's own letters, which step 2 does not take back; `ingress`
names the spray pointer. The state answered holds the spray pointer's move. -/
def lookup (s : State) (h : Header) (arr : Option (Nat × Nat)) (ingress : Nat) : Lookup × State :=
  let here := rackOf (srcRef s)
  let grp := if arr.isSome && (h.cls = 2 || h.cls = 4) then groupEntryOf s h.groupOp else none
  let rackWrong := (h.cls = 2 && rackOf h.dest ≠ here) || ((h.cls = 2 || h.cls = 4) && h.dest % 4096 ≠ 0)
  if (h.cls = 2 || h.cls = 4) && rackWrong then (.discard 25 none, s)
  else match grp with
  | some e => if ((groupOf s e).record.map (·.plot)) = some h.plot then (.terminal (.group e), s) else (.discard 24 none, s)
  | none =>
    if h.cls = 2 || (h.cls = 4 && rackOf h.dest = here) then (.discard 25 none, s)
    else routed s h arr ingress
where
  /-- Steps 4 to 8. -/
  routed (s : State) (h : Header) (arr : Option (Nat × Nat)) (ingress : Nat) : Lookup × State :=
    let here := rackOf (srcRef s)
    let std := if h.cls = 4 then (match arr with | some (p, 6) => routeOf s.bank p h.groupOp | _ => none) else none
    match std with
    | some out =>
      if routeFallen s out h.groupOp then elsewhere s h arr ingress else (.route out h.groupOp, s)
    | none =>
      if destIsSelf s h.dest then (.terminal (if h.cls = 6 then .slowPost else .box h.raddr), s)
      else if rackOf h.dest ≠ here then elsewhere s h arr ingress
      else if slotOf h.dest ≥ 112 && unitPart h.dest = 31 then
        if slotOf h.dest = 112 + (modIndex s ^^^ 1) then
          match chooseLink s h ingress 7 with
          | some (k, s') => (.ports [(portOfDir 7 k, leaveVc s h arr (portOfDir 7 k))], s')
          | none => (.discard 26 (some 1), s)
        else (.discard 26 (some 2), s)
      else
        let a := slotOf h.dest
        if h.cls < 5 && !deliverable s h a then (.discard 24 none, s)
        else if admitted s a then (.ports [(a, leaveVc s h arr a)], s) else (.discard 26 (some 1), s)
  /-- Step 6: the direction, then its spray set; before X, Y and Z are learned no letter is forwarded by it (R178). -/
  elsewhere (s : State) (h : Header) (arr : Option (Nat × Nat)) (ingress : Nat) : Lookup × State :=
    if !s.ident.learned then (.discard 18 none, s)
    else match directionOf s h arr with
    | none => (.discard 26 (some 0), s)
    | some d =>
      match chooseLink s h ingress d with
      | some (k, s') => (.ports [(portOfDir d k, leaveVc s h arr (portOfDir d k))], s')
      | none => (.discard 26 (some 1), s)

/-! ### Letters that the module originates, and slow-post notices -/

/-- Rounds in which a rack, and a Plot's destination by 2²⁴ × PLOT + DEST, were last looked up (R201). -/
def noteLookup (h : Header) (s : State) : State :=
  { s with route := { s.route with lookedRack := tset 0 s.route.lookedRack (rackOf h.dest) (roundNo s),
                                   lookedPlot := tset 0 s.route.lookedPlot (2 ^ 24 * h.plot + h.dest) (roundNo s) } }

/-- Copies of one own letter enter the egress of their outputs, each on its own VC (R141, R145). -/
def enterCopies (l : OwnLetter) (ps : List (Nat × Nat)) (s : State) : State := ps.foldl (fun s x => enterEgress x.1 (onVc x.2 l) s) s

/-- An own letter is routed by R173 and enters its output's egress; until X, Y and Z are learned only VC7 letters leave (R121). A multicast
one enters as its copies, in the order of R158. Answers none, with the state unchanged, where there is no path. -/
def sendOwn (h : Header) (group : Nat) (payload : List Byte) (notice : Option Nat) (s : State) : Option (Nat × State) :=
  let h := { h with src := srcRef s }
  if !s.ident.learned && h.cls < 5 then none
  else if h.mc then
    match (multicastCopies s h none).1 with
    | [] => none
    | (p, vc) :: r =>
      let (l, s1) := ownLetter { h with vc := vc } group payload s
      some (p, enterCopies l ((p, vc) :: r) s1)
  else match lookup (noteLookup h s) h none (256 + group % 8) with
  | (.ports ((p, vc) :: _), s1) =>
    let (l, s2) := ownLetter { h with vc := vc } group payload s1
    some (p, enterEgress p { l with notice := notice } s2)
  | _ => none

/-- An own letter whose output went down chooses its path again (R182): a multicast trunk copy in its own direction, any other by the Atlas;
answers none where there is no path. -/
def ownPath (down : Nat) (l : OwnLetter) (s : State) : Option (Nat × Nat × State) :=
  let h := ownHeader l
  if h.mc then
    if isTrunk down then (fixedChoice s h (dirOfPort down)).map fun k => (portOfDir (dirOfPort down) k, l.vc, s) else none
  else match lookup (noteLookup h s) h none (256 + l.group % 8) with
  | (.ports ((p, vc) :: _), s1) => some (p, vc, s1)
  | _ => none

/-- An own letter sent where there is a path; otherwise nothing leaves. -/
def sendIfPath (h : Header) (payload : List Byte) (s : State) : State :=
  match sendOwn h 0 payload none s with
  | some (_, s') => s'
  | none => s

/-- An own letter put straight on a port (R398: port A-s of the lead). -/
def sendOnPort (p : Nat) (h : Header) (group : Nat) (payload : List Byte) (s : State) : State :=
  let h := { h with src := srcRef s }
  let (l, s1) := ownLetter { h with vc := leaveVc s h none p } group payload s
  enterEgress p l s1

/-- Header of a slow-post letter (R196). -/
def slowHeader (dest code : Nat) : Header := { blankHeader with dest := dest, cls := 6, vc := 7, groupOp := code }

/-- UNREACHABLE to a letter's SRC, at most once per SRC and destination rack in 64 Rounds, for classes 0–4 (R177). -/
def sendUnreachable (h : Header) (why : Nat) (s : State) : State :=
  let now := roundNo s
  let live := s.route.unreach.filter fun x => now < x.2.2 + 64
  let r := rackOf h.dest
  if h.cls ≥ 5 || live.any (fun x => x.1 = h.src && x.2.1 = r) then { s with route := { s.route with unreach := live } }
  else
    sendIfPath (slowHeader h.src 2) (fit 16 (leBytes 2 r ++ leBytes 1 why))
      { s with route := { s.route with unreach := live ++ [(h.src, r, now)] } }

/-- SLOW to the SRC of a letter that joins a queue of q cells (R197): at most one per SRC and output in SLOW_HOLDOFF Rounds. -/
def sendSlow (q : Nat) (h : Header) (out : Nat) (s : State) : State :=
  let g := s.bank.regs
  if h.cls ≥ 5 || q < g.slowHi then s
  else
    let now := roundNo s
    let live := s.route.holdoff.filter fun x => now < x.2.2 + g.slowHoldoff
    if live.any (fun x => x.1 = h.src && x.2.1 = out) then { s with route := { s.route with holdoff := live } }
    else if live.length ≥ 4096 then cnt1 5 { s with route := { s.route with holdoff := live } }
    else
      let rate := if q < 2 * g.slowHi && q < g.slowStop then 8 else if q < g.slowStop then 4 else 2
      let body := fit 16 (leBytes 3 h.dest ++ leBytes 1 (bit (isTrunk out)) ++ leBytes 1 rate ++ leBytes 2 g.slowDuration)
      let id := s.route.nextNotice
      let s1 := { s with route := { s.route with holdoff := live ++ [(h.src, out, now)], nextNotice := id + 1 } }
      let s1 := cnt1 (idPort 34 out) s1
      let blank : OwnLetter := { vc := 7, flits := [], sent := 0, group := 0, sinceRound := now }
      let (p, s2) := match sendOwn (slowHeader h.src 0) 0 body (some id) s1 with
        | some (p, s2) => (p, s2)
        | none => (256, s1)
      { s2 with route := { s2.route with notices := tput s2.route.notices id { port := p, round := now, letter := blank } } }

/-- SLOW_NOTICE_TIMEOUT (R197): a notice that has not left within 4 Rounds is dropped. -/
def dropNotice (n : Nat) (s : State) : State :=
  match tfind s.route.notices n with
  | none => s
  | some x =>
    if roundNo s < x.round + 4 then s
    else
      let s := { s with route := { s.route with notices := tdel s.route.notices n } }
      cnt1 5 (if x.port < 256 then modEgress s x.port fun e => { e with own := e.own.filter fun l => !(l.notice = some n && l.sent = 0) } else s)

def execSlowNoticeTimeout (notice : Nat) (s : State) : Host.Outcome State Fault Refusal := .next (dropNotice notice s)

/-- Two SLOWs have one SCOPE (R198). -/
def sameScope (x y : SlowScope) : Bool :=
  x.scope = y.scope && (if x.scope = 1 then rackOf x.target = rackOf y.target else x.target / 32 = y.target / 32)

/-- SLOW_POST_RECEIVE (R198): the offices obey SLOW for what they send, and a later one for the same SCOPE replaces it; an unknown code is
ignored (R196). LOSS and UNREACHABLE inform the source and change nothing here. -/
def slowPost (reason : Nat) (payload : List Byte) (s : State) : State :=
  if reason = 0 then
    let target := fieldAt payload 0 3
    let scope := fieldAt payload 3 1 % 2
    let rate := fieldAt payload 4 1 % 16
    let till := roundNo s + fieldAt payload 5 2
    let x : SlowScope := { target := target, scope := scope, rate := rate, till := till, round := 0, sent := 0 }
    { s with route := { s.route with obeyed := (s.route.obeyed.filter fun y => !sameScope x y) ++ [x] } }
  else s

def execSlowPostReceive (reason : Nat) (payload : List Byte) (s : State) : Host.Outcome State Fault Refusal := .next (slowPost reason payload s)

/-- A SLOW in force reaches a destination: its TARGET slot, or its TARGET's rack (R196). -/
def scopeHits (s : State) (x : SlowScope) (dest : Nat) : Bool :=
  decide (roundNo s < x.till) && (if x.scope = 1 then rackOf x.target = rackOf dest else x.target / 32 = dest / 32)

/-- Flits that the offices may begin toward a scope in a Round: RATE sixteenths of the 800 that 1.6 Tb/s carries (R198;
notes/assumptions/126.md). -/
def scopeBudget (x : SlowScope) : Nat := 50 * x.rate

/-- Flits begun toward a scope in the present Round. -/
def scopeSpent (s : State) (x : SlowScope) : Nat := if x.round = roundNo s then x.sent else 0

/-- A letter of an office waits: a SLOW that it falls under has no room left for it in this Round (R198). -/
def slowHeld (s : State) (l : OwnLetter) : Bool :=
  l.group ≠ 0 && l.sent = 0 && s.route.obeyed.any fun x => scopeHits s x (ownHeader l).dest && decide (scopeSpent s x + l.flits.length > scopeBudget x)

/-- A letter of an office begins: its flits are taken from the scopes that it falls under. -/
def slowSpend (l : OwnLetter) (s : State) : State :=
  let take := fun (x : SlowScope) => if scopeHits s x (ownHeader l).dest then { x with round := roundNo s, sent := scopeSpent s x + l.flits.length } else x
  if l.group = 0 || l.sent ≠ 0 then s else { s with route := { s.route with obeyed := s.route.obeyed.map take } }

end Sys2Proof.Machine
end

