-- ==== Sys2Proof/Machine/Switch.lean ====
section
/-! DEFINITION. Cut-through switching (spec/06): ingress, the shared buffer, spoilt letters, copies, the Dispatcher's match and the slots of
standing routes. -/

namespace Sys2Proof.Machine

/-! ### Credits and cells -/

/-- One credit goes back to the pool it came from (R102). -/
def returnCredit (p vc : Nat) (shared : Bool) (s : State) : State :=
  modRx s p fun r => { r with
    pendDed := if shared then r.pendDed else tset 0 r.pendDed vc (tget 0 r.pendDed vc + 1),
    pendShr := if shared then r.pendShr + 1 else r.pendShr,
    pendSince := match r.pendSince with | some t => some t | none => some s.mer.ns }

/-- The credits of a list of cells of an input go back. -/
def returnCells (p : Nat) (cs : List BufCell) (s : State) : State := cs.foldl (fun s c => returnCredit p c.vc c.shared s) s

/-- Every flit of a send has been taken by the egress replay buffer. -/
def sendOver (x : Send) : Bool := x.done && decide (x.taken ≥ x.sent)

/-- A send needs cell k: an original needs every cell, a copy those that it sends. -/
def sendNeeds (l : Letter) (k : Nat) (x : Send) : Bool :=
  !sendOver x && decide (x.taken ≤ k) && (x.sess.isNone || decide (k < sendTotal l x))

/-- The letter itself needs cell k: its reorder unit has not taken it, or an original send needs it. -/
def mainNeeds (l : Letter) (k : Nat) : Bool :=
  (l.target.isSome && !l.taken) || l.sends.any fun x => x.sess.isNone && sendNeeds l k x

/-- Cell k is needed (R148): of a spoilt letter only the END_SPOILT flit that it received, until its last send is over. -/
def cellNeeded (l : Letter) (k : Nat) (c : BufCell) : Bool :=
  if l.spoilt.isSome then c.type = 4 && l.sends.any fun x => !sendOver x
  else mainNeeds l k || l.sends.any (sendNeeds l k)

/-- A letter's cells numbered from 0. -/
def numbered (l : Letter) : List (Nat × BufCell) := (List.range l.cells.length).zip l.cells

/-- The sends of a letter that may move: every copy, and the first original send that is not done (R158). -/
def activeSends (l : Letter) : List (Nat × Send) :=
  let all := (List.range l.sends.length).zip l.sends
  let main := (all.filter fun x => x.2.sess.isNone && !x.2.done).head?.toList
  main ++ all.filter fun x => x.2.sess.isSome && !x.2.done && x.2.port ≠ 256

/-- The sends of a letter that may now move join their queues, behind what waits there (R151); a letter that joins a deep queue of the
Dispatcher's brings its SRC a SLOW (R197). -/
def joinQueue (id : Nat) (s : State) : State :=
  match tfind s.sw.letters id with
  | none => s
  | some l =>
    ((activeSends l).filter fun x => x.2.seq = 0).foldl (fun s x =>
      let s := if x.2.sess.isNone && (sendRoute s x.2).isNone then sendSlow (queued s x.2.port x.2.vc) l.hdr x.2.port s else s
      match tfind s.sw.letters id with
      | none => s
      | some l =>
        let n := s.sw.nextSend + 1
        { s with sw := { s.sw with nextSend := n, letters := tput s.sw.letters id { l with sends := l.sends.modify x.1 fun y => { y with seq := n } } } }) s

/-- Letters that a route's fallback moved into the Dispatcher's queues bring their SRC a SLOW where the queue ahead of them was deep (R162,
R197), at the cell slot after it (notes/assumptions/126.md). -/
def slowRejoined (s : State) : State :=
  s.sw.slowDue.foldl (fun s id =>
    match tfind s.sw.letters id with
    | none => s
    | some l => (l.sends.filter fun x => x.route.isSome && x.sent = 0 && x.seq ≠ 0 && !x.done).foldl
        (fun s x => sendSlow (queuedBefore s x.seq x.port x.vc) l.hdr x.port s) s) { s with sw := { s.sw with slowDue := [] } }

/-- A letter with the flits that it would need for an END_SPOILT to follow it: one flit, and all of it received (R130). -/
def oneFlit (l : Letter) : Bool := flitCount l.hdr.length = 1 && l.complete && l.spoilt.isNone

/-- A letter as the buffer holds it after a change: cells that no copy needs are freed and their credits returned; a closed letter whose
copies are all over leaves the buffer (R148), and a one-flit letter is kept in mind as its VC's last one (R130). -/
def settle (id : Nat) (l : Letter) (s : State) : State :=
  let cells := (numbered l).map fun x => if cellNeeded l x.1 x.2 then x.2 else { x.2 with freed := true }
  let gone := ((numbered l).filter fun x => !x.2.freed && !cellNeeded l x.1 x.2).map (·.2)
  let s := returnCells l.ingress gone s
  let k := 8 * l.ingress + l.vc
  if (l.complete || l.spoilt.isSome) && (l.target.isNone || l.taken) && l.sends.all sendOver then
    { s with sw := { s.sw with letters := tdel s.sw.letters id, lastOne := if oneFlit l && tget 0 s.sw.openAt k = id + 1 then tput s.sw.lastOne k (id, l) else s.sw.lastOne } }
  else joinQueue id { s with sw := { s.sw with letters := tput s.sw.letters id { l with cells := cells } } }

/-- The cells of a letter that hold flits. -/
def heldOf (l : Letter) : List BufCell := l.cells.filter fun c => !c.freed

/-- A letter is discarded whole: its cells are freed and its credits returned (R128, R148). -/
def dropLetter (id : Nat) (s : State) : State :=
  match tfind s.sw.letters id with
  | none => s
  | some l => { returnCells l.ingress (heldOf l) s with sw := { s.sw with letters := tdel s.sw.letters id } }

/-- Cells holding flits in a hemisphere (R171). -/
def bufUsed (s : State) (h : Nat) : Nat := sumNat (s.sw.letters.map fun x => if hemOfPort x.2.ingress = h then (heldOf x.2).length else 0)

/-- Cells that only copies need (R166). -/
def copyOnly (l : Letter) : Nat := ((numbered l).filter fun x => !x.2.freed && l.spoilt.isNone && !mainNeeds l x.1).length

/-- BUF_COPY: cells held only for copies (R166, R171). -/
def copyHeld (s : State) (h : Nat) : Nat := sumNat (s.sw.letters.map fun x => if hemOfPort x.2.ingress = h then copyOnly x.2 else 0)

/-- The Granted region: the shared grants that the hemisphere's ports offer (R147). -/
def grantedCells (s : State) (h : Nat) : Nat := sumNat (s.links.map fun x => if hemOfPort x.1 = h then x.2.grantRx else 0)

/-- The Uncommitted region (R147). -/
def uncommitted (s : State) (h : Nat) : Nat := 393216 - 28672 - grantedCells s h

/-! ### Spoilt letters -/

/-- Hemisphere of the unit that takes a terminal letter: the office's (R15), East for the post boxes (R15), and East for the slow-post receiver,
which no rule places (DESIGN CHOICE, notes/assumptions/141.md). -/
def hemOfTarget (s : State) (t : Target) : Nat :=
  match t with
  | .group e => hemOfOffice (groupOf s e).office
  | .box _ => 1
  | .slowPost => 1

/-- An END_SPOILT flit of a VC (R130). -/
def spoiltFlit (vc cause : Nat) : Flit := { type := 4, vc := vc, shared := false, payload := fit 236 [BitVec.ofNat 8 cause] }

/-- END_SPOILT follows the HEAD of a one-flit letter on an output (R130): it goes out next on the VC. Where another letter has since left on
that VC, an END_SPOILT would be that letter's: none is sent. -/
def followHead (id k cause : Nat) (x : Send) (s : State) : State :=
  if x.port < 256 && tget 0 (egressOf s x.port).lastOn x.vc = id + 1 then
    modEgress s x.port fun e => { e with
      staged := { flit := spoiltFlit x.vc cause, letter := some id, send := k } :: e.staged, xbOpen := tset false e.xbOpen x.vc true }
  else s

/-- Whether an END_SPOILT may still follow on an output. -/
def mayFollow (s : State) (id : Nat) (x : Send) : Bool := x.port < 256 && decide (tget 0 (egressOf s x.port).lastOn x.vc = id + 1)

/-- The first flit that meets a condition becomes another, and the rest that meet it go. -/
def replaceFirst (f : Staged → Bool) (y : Staged) : List Staged → List Staged
  | [] => []
  | x :: r => if f x then y :: r.filter fun z => !f z else x :: replaceFirst f y r

/-- A send of a letter that has turned bad (R130). Nothing of it has left: its staged flits go, and with them the send. Its HEAD has left: no
flit follows but one END_SPOILT, in place of what is staged, or to be granted, or after the HEAD of a one-flit letter. All of it has left: it
stays as it was. -/
def spoilSend (id cause : Nat) (l : Letter) (k : Nat) (x : Send) (s : State) : State × Send :=
  let mine := fun (y : Staged) => y.letter = some id && y.send = k
  let staged := x.port < 256 && (egressOf s x.port).staged.any mine
  let free := fun (e : Egress) => if x.sent ≠ 0 && !x.done then tset 0 e.locks x.vc 0 else e.locks
  if x.taken = 0 then
    (if x.port < 256 then modEgress s x.port fun e => { e with staged := e.staged.filter fun y => !mine y, locks := free e } else s,
      { x with done := true, sent := 0 })
  else if staged then
    (modEgress s x.port fun e => { e with
        staged := replaceFirst mine { flit := spoiltFlit x.vc cause, letter := some id, send := k } e.staged, locks := free e },
      { x with done := true, sent := x.taken + 1 })
  else if !x.done then (s, { x with sent := x.taken })
  else if flitCount l.hdr.length = 1 && !x.closed && mayFollow s id x then (followHead id k cause x s, { x with sent := x.taken + 1 })
  else (s, x)

/-- Every send of a letter that has turned bad. -/
def spoilSends (id cause : Nat) (l : Letter) (s : State) : State × List Send :=
  ((List.range l.sends.length).zip l.sends).foldl (fun (r : State × List Send) x =>
    let (s, y) := spoilSend id cause l x.1 x.2 r.1
    (s, r.2 ++ [y])) (s, [])

/-- A letter that a reorder unit holds is taken back: it counts as not received (R131). -/
def recallHeld (h : Header) (s : State) : State :=
  let out := fun (x : Stream) =>
    let held := x.held.filter fun y => y.sseq ≠ h.sseq
    { x with held := held, aside := x.aside.filter fun y => y.sseq ≠ h.sseq, gapStart := if held.isEmpty then none else x.gapStart }
  [0, 1].foldl (fun s k => match tfind (reorderOf s k).streams (reorderKey h) with
    | some x => modReorder s k fun r => { r with streams := tput r.streams (reorderKey h) (out x) }
    | none => s) s

/-- SPOILT of a terminal letter, by CAUSE (R131). CAUSE 5–255 has no counter of its own: it counts as 4 (DESIGN CHOICE, notes/assumptions/125.md). -/
def countSpoilt (cause : Nat) (t : Target) (s : State) : State := cnt1 (idHem (11 + min cause 4) (hemOfTarget s t)) s

/-- A letter is found bad, or its upstream spoilt it (R129–R131, R156). A terminal letter is discarded and counted by CAUSE, also where the
reorder unit has taken it and holds it; the sends of any letter end as R130 states. `found` says that this module found it. -/
def spoilLetter (id cause : Nat) (found : Bool) (s : State) : State :=
  match tfind s.sw.letters id with
  | none => s
  | some l =>
    if l.spoilt.isSome then s
    else
      let s := if found then report 0x0202 l.ingress [BitVec.ofNat 8 cause] s else s
      let s := match l.target with
        | some t => countSpoilt cause t (if l.taken then recallHeld l.hdr s else s)
        | none => s
      let (s, sends) := spoilSends id cause l s
      settle id { l with spoilt := some cause, sends := sends, taken := true } s

/-- END_SPOILT after a one-flit letter that has left the buffer (R130, R131): the END_SPOILT flit takes a cell and follows the HEAD. -/
def spoilGone (p vc cause : Nat) (cell : BufCell) (s : State) : State :=
  match tfind s.sw.lastOne (8 * p + vc) with
  | none => returnCredit p vc cell.shared s
  | some (id, l) =>
    let s := { s with sw := { s.sw with lastOne := tdel s.sw.lastOne (8 * p + vc), letters := tput s.sw.letters id { l with cells := [cell] } } }
    spoilLetter id cause false s

/-- The letter whose flits an input's VC is receiving. -/
def openLetter (s : State) (p vc : Nat) : Option Nat :=
  match tget 0 s.sw.openAt (8 * p + vc) with
  | 0 => none
  | n + 1 => if (tfind s.sw.letters n).isSome then some n else none

def setOpen (p vc : Nat) (v : Nat) (s : State) : State := { s with sw := { s.sw with openAt := tset 0 s.sw.openAt (8 * p + vc) v } }

/-! ### Copies (R163–R167) -/

/-- The sessions of a bank that are enabled, with their numbers. -/
def sessions (b : Bank) : List (Nat × CopySession) := b.copy.filter fun x => x.2.enable

/-- A FLOW session's fields match under their masks (R164). -/
def flowMatch (c : CopySession) (h : Header) : Bool :=
  (BitVec.ofNat 24 h.src &&& c.flowSrcMask) = (c.flowSrc &&& c.flowSrcMask) &&
  (BitVec.ofNat 24 h.dest &&& c.flowDestMask) = (c.flowDest &&& c.flowDestMask) &&
  (!c.matchPlot || h.plot = c.flowPlot) && (!c.matchClass || h.cls = c.flowClass)

/-- The send of a complete letter's copy that waits for the capture ring. -/
def ringWaiting (l : Letter) : Option Nat := if l.complete then l.sends.findIdx? fun x => x.port = 256 && !x.done else none

/-- An output has credit for a copy (R166, R284): an admitted link with a VC0 credit, or 256 bytes free in the capture writer's queue. A complete
copy that waits there has taken what was offered. -/
def copyCredit (s : State) (port : Nat) : Bool :=
  if port = 256 then decide (captureFree s ≥ 256) && s.sw.letters.all fun x => (ringWaiting x.2).isNone
  else admitted s port && decide (tget 0 (linkOf s port).tx.ded 0 + (linkOf s port).tx.shr > 0)

/-- Flits that a copy needs: two for a TRUNC copy of a letter above 256 bytes (R165). -/
def copyFlits (c : CopySession) (h : Header) : Nat := if c.trunc && decide (h.length + 40 > 256) then 2 else flitCount h.length

/-- The Round since which an output has had no credit for a copy (R166). -/
def creditSince (s : State) (port : Nat) : Nat := if port = 256 then s.capture.creditRound else (egressOf s port).creditRound

/-- A copy of a session is dropped and counted (R166, R284). -/
def dropCopy (n : Nat) (s : State) : State :=
  cnt1 (24 + n) { s with capture := { s.capture with sessionDropped := tset 0 s.capture.sessionDropped n (tget 0 s.capture.sessionDropped n + 1),
                                                     dropped := s.capture.dropped + 1 } }

/-- A session copies a matching letter: the first, and then every 2^SAMPLE_K-th (R164). A copy for which there is no room, or whose output
has had no credit for 4 Rounds, is dropped and counted (R166). -/
def addCopy (id : Nat) (n : Nat) (c : CopySession) (s : State) : State :=
  match tfind s.sw.letters id with
  | none => s
  | some l =>
    let seen := tget 0 s.sw.copySeen n
    let s := { s with sw := { s.sw with copySeen := tset 0 s.sw.copySeen n (seen + 1) } }
    if seen % 2 ^ c.sampleK ≠ 0 then s
    else
      let h := hemOfPort l.ingress
      let port := if c.destRing then 256 else 240 + c.mport
      let starved := !copyCredit s port && decide (roundNo s ≥ creditSince s port + 4)
      if copyHeld s h + copyFlits c l.hdr > s.bank.regs.copyCells || uncommitted s h - copyHeld s h < 8192 || starved then dropCopy n s
      else
        let x : Send := { port := port, vc := 0, sent := 0, taken := 0, done := false, sess := some n, route := none, since := roundNo s, ns := s.mer.ns,
                          trunc := c.trunc && decide (l.hdr.length + 40 > 256) }
        joinQueue id { s with sw := { s.sw with letters := tput s.sw.letters id { l with sends := l.sends ++ [x] } } }

/-- The copies of a letter that passes the entry checks on a port (R164). -/
def copiesIn (p id : Nat) (h : Header) (s : State) : State :=
  (sessions s.bank).foldl (fun s (n, c) => if (c.kind = 0 && c.port = p) || (c.kind = 2 && flowMatch c h) then addCopy id n c s else s) s

/-- The copies of a letter that leaves a port through the crossbar (R164). -/
def copiesOut (p id : Nat) (s : State) : State :=
  (sessions s.bank).foldl (fun s (n, c) => if c.kind = 1 && c.port = p then addCopy id n c s else s) s

/-- The letter's bytes as its cells hold them. -/
def letterData (l : Letter) : List Byte := (l.cells.flatMap (·.payload)).take (40 + l.hdr.length)

/-- A payload with COPY set in its header (R165). -/
def withCopyBit (l : List Byte) : List Byte := l.take 9 ++ (l.drop 9).head?.toList.map (· ||| 8#8) ++ l.drop 10

/-- A capture record of a copy enters the writer's queue (R165, R429). -/
def captureCopy (l : Letter) (n time : Nat) (trunc : Bool) (s : State) : State :=
  let c := tfind s.bank.copy n
  let port := match c with | some c => if c.kind = 1 then c.port else l.ingress | none => l.ingress
  let data := withCopyBit (if trunc then (letterData l).take 256 else letterData l)
  putRecord 1 n trunc port (min 65535 (tget 0 s.capture.sessionDropped n)) time data
    { s with capture := { s.capture with sessionDropped := tset 0 s.capture.sessionDropped n 0 } }

/-- Bytes of the writer's queue that a copy waits for (R165, R284): a credit of 256 for each flit, and no fewer than its record has. -/
def copyNeeds (l : Letter) (trunc : Bool) : Nat :=
  max (256 * if trunc then 2 else flitCount l.hdr.length) ((64 + (if trunc then 256 else 40 + l.hdr.length) + 7) / 8 * 8)

/-- Copies of complete letters for the capture ring are taken, one after the other, as far as its queue offers credit (R284). -/
def captureTake (s : State) : State :=
  let s := ((s.sw.letters.map (·.1)).foldl (fun (x : Bool × State) id =>
    match tfind x.2.sw.letters id with
    | none => x
    | some l =>
      match ringWaiting l with
      | none => x
      | some k =>
        let n := (l.sends[k]?.bind (·.sess)).getD 0
        let time := ((l.sends[k]?).map (·.ns)).getD 0
        let trunc := ((l.sends[k]?).map (·.trunc)).getD false
        if x.1 || decide (captureFree x.2 < copyNeeds l trunc) then (true, x.2)
        else
          let sends := l.sends.modify k fun x => { x with done := true }
          (false, settle id { l with sends := sends } (captureCopy l n time trunc x.2))) (false, s)).2
  if copyCredit s 256 then { s with capture := { s.capture with creditRound := roundNo s } } else s

/-! ### Ingress -/

/-- Standing returns: the outputs and VCs whose queue reaches SLOW_STOP stop shared returns, until it falls below SLOW_HI (R199). -/
def updateStops (s : State) : State :=
  let keys := (s.sw.letters.flatMap fun x => x.2.sends.map fun y => 8 * y.port + y.vc).eraseDups
  let now := (keys ++ s.sw.stopped).eraseDups.filter fun k =>
    let q := queued s (k / 8) (k % 8)
    if s.sw.stopped.contains k then decide (q ≥ s.bank.regs.slowHi) else decide (q ≥ s.bank.regs.slowStop)
  { s with sw := { s.sw with stopped := now } }

/-- A discarded letter is counted and its SRC is told where that is due (R173, R177). -/
def discardLookup (p counter : Nat) (why : Option Nat) (h : Header) (s : State) : State :=
  let s := cnt1 (idPort counter p) s
  match why with
  | some w => sendUnreachable h w s
  | none => s

/-- A letter's sends for the ports of a lookup. -/
def sendsFor (s : State) (ps : List (Nat × Nat)) (route : Option Nat) : List Send :=
  ps.map fun (p, vc) => { port := p, vc := vc, sent := 0, taken := 0, done := false, sess := none, route := route, since := roundNo s }

/-- A letter found bad at its own end (R129): LETTER_CHECK where its check fails. -/
def letterGood (l : Letter) : Bool :=
  let d := letterData l
  letterCheckOf (d.take (32 + l.hdr.length)) = fieldAt d (32 + l.hdr.length) 8

/-- A letter just ended is checked (R126, R129, R144): good, it is complete; bad, it is spoilt with LETTER_CHECK. -/
def endLetter (id : Nat) (s : State) : State :=
  match tfind s.sw.letters id with
  | none => s
  | some l =>
    if letterGood l then captureTake (settle id { l with complete := true } s)
    else spoilLetter id 2 true s

/-- An open letter on the VC is bad when a new HEAD arrives (R129, NEW_HEAD). -/
def newHead (p vc : Nat) (s : State) : State :=
  match openLetter s p vc with
  | none => s
  | some id =>
    match tfind s.sw.letters id with
    | some l => if l.complete then s else spoilLetter id 4 true s
    | none => s

/-- INGRESS_HEAD (R143): the entry checks of R128, the Plot checks, the Atlas lookup, the HEAD's cell, the request, the copies and SLOW. -/
def ingressHead (p vc : Nat) (shared : Bool) (payload : List Byte) (s : State) : State :=
  if !admitted s p then s
  else
    let head := fit 236 payload
    let h := headerOf (head.take 32)
    let s := setOpen p vc 0 (newHead p vc s)
    let s := { s with sw := { s.sw with lastOne := tdel s.sw.lastOne (8 * p + vc) } }
    let s := cnt1 (idPort 2 p) s
    let drop := fun s => returnCredit p vc shared s
    match entryCheck s p vc head with
    | some c => drop (cnt1 (idPort c p) s)
    | none =>
      if decide (s.pow.ladder ≥ 1) && h.cls < 5 then drop (cnt1 (idPort 32 p) s)
      else if !plotAtEntry s h p then drop (cnt1 (idPort 24 p) s)
      else
        let s := noteLookup h s
        let id := s.sw.nextLetter
        let cell : BufCell := { type := 1, vc := vc, shared := shared, payload := head }
        let l : Letter := { ingress := p, vc := vc, hdr := h, head := head.take 32, cells := [cell], complete := false, spoilt := none,
                            foreign := h.cls < 5 && !(plotEntry s.bank h.plot).rackMask.getLsbD (rackIndex s (rackOf (srcRef s))),
                            sends := [], target := none, round := roundNo s }
        let place := fun (l : Letter) (s : State) =>
          let s := { s with sw := { s.sw with letters := tput s.sw.letters id l, nextLetter := id + 1 } }
          let s := setOpen p vc (id + 1) s
          let s := copiesIn p id h (joinQueue id s)
          updateStops (if flitCount h.length = 1 then endLetter id s else s)
        if h.mc then
          let (ps, lost) := multicastCopies s h (some (p, vc))
          let s := cntAdd (idPort 26 p) lost s
          if ps.isEmpty then drop s else place { l with sends := sendsFor s ps none } s
        else
          match lookup s h (some (p, vc)) p with
          | (.discard c why, s1) => drop (discardLookup p c why h s1)
          | (.terminal t, s1) => place { l with target := some t } s1
          | (.route out r, s1) => place { l with sends := sendsFor s1 [(out, 6)] (some r) } s1
          | (.ports ps, s1) => place { l with sends := sendsFor s1 ps none } s1

def execIngressHead (p vc : Nat) (shared : Bool) (payload : List Byte) (s : State) : Host.Outcome State Fault Refusal :=
  .next (ingressHead p vc shared payload s)

/-- LETTER_FLIT_RECEIVE (R129, R146): a later flit takes a cell; END at the wrong place, a failing letter check and END_SPOILT spoil the letter.
A cell that a closed send still needed is counted in LOST_ON_DOWN (R157). A flit of no open letter belongs to a discarded one: only its credit
returns. -/
def letterFlit (p vc ftype : Nat) (shared : Bool) (payload : List Byte) (s : State) : State :=
  let drop := fun s => returnCredit p vc shared s
  let s := if ftype = 4 then cnt1 (idPort 35 p) s else s
  let cell : BufCell := { type := ftype, vc := vc, shared := shared, payload := fit 236 payload }
  match (openLetter s p vc).bind fun id => (tfind s.sw.letters id).map fun l => (id, l) with
  | none => if ftype = 4 then spoilGone p vc (fieldAt payload 0 1) cell s else drop s
  | some (id, l) =>
    let l' := { l with cells := l.cells ++ [cell] }
    let s' := { s with sw := { s.sw with letters := tput s.sw.letters id l' } }
    if l.spoilt.isSome then (if ftype = 2 then drop s else setOpen p vc 0 (drop s))
    else if ftype = 4 then setOpen p vc 0 (spoilLetter id (fieldAt payload 0 1) false s')
    else if l.complete then drop s
    else
      let s' := (l.sends.filter fun x => x.closed && decide (l.cells.length < sendTotal l x)).foldl (fun s x => cnt1 (idPort 15 x.port) s) s'
      if ftype = 3 then
        if l'.cells.length = flitCount l.hdr.length then updateStops (setOpen p vc 0 (endLetter id s'))
        else updateStops (setOpen p vc 0 (spoilLetter id 3 true s'))
      else updateStops (settle id l' s')

def execLetterFlitReceive (p vc ftype : Nat) (shared : Bool) (payload : List Byte) (s : State) : Host.Outcome State Fault Refusal :=
  .next (letterFlit p vc ftype shared payload s)

/-! ### Queues of an input -/

/-- Cells of a send that may be granted now (R144): one END_SPOILT of a spoilt letter, else the cells received and not sent; the letter's last
cell only once its check has passed. -/
def sendEligible (l : Letter) (x : Send) : Nat :=
  match l.spoilt with
  | some _ => if x.sent ≠ 0 then 1 else 0
  | none => min (if l.complete then l.cells.length else min l.cells.length (flitCount l.hdr.length - 1)) (sendTotal l x) - x.sent

/-- The elements in the order of their numbers. -/
def inOrder {α : Type} (l : List (Nat × α)) : List α := (sortBy (fun a b => decide (a.1 ≤ b.1)) l).map (·.2)

/-- The sends queued at input i for output j on VC v, the one in progress first and the others in the order in which they joined (R151): (letter, index, cells eligible, whether those
end the letter, foreign). `route` chooses the queue of a standing route or the Dispatcher's. -/
def inputQueue (s : State) (i j v : Nat) (route : Option Nat) : List (Nat × Nat × Nat × Bool × Bool) :=
  inOrder <| s.sw.letters.flatMap fun (id, l) =>
    if l.ingress ≠ i then []
    else ((activeSends l).filter fun (_, x) => x.port = j && x.vc = v && sendRoute s x = route).map fun (k, x) =>
      let e := sendEligible l x
      (if x.sent ≠ 0 then 0 else x.seq, id, k, e, l.spoilt.isSome || decide (x.sent + e = sendTotal l x), l.foreign)

/-- Cells that may be granted from a queue in order, after `skip` already reserved: a letter must end before the next begins. -/
def queueEligible : List (Nat × Nat × Nat × Bool × Bool) → Nat
  | [] => 0
  | (_, _, e, ends, _) :: r => if ends then e + queueEligible r else e

/-- After taking n cells from the front of a queue the last one ended its letter. -/
def endsAfter : List (Nat × Nat × Nat × Bool × Bool) → Nat → Bool
  | [], _ => true
  | (_, _, e, ends, _) :: r, n => if n = 0 then true else if n < e then false else if n = e then ends else endsAfter r (n - e)

/-! ### Moving cells -/

/-- The flit that a send's next cell becomes (R127, R130, R165). -/
def nextFlit (l : Letter) (x : Send) : Flit :=
  match l.spoilt with
  | some c => spoiltFlit x.vc c
  | none =>
    let cell := l.cells.getD x.sent { type := 2, vc := x.vc, shared := false, payload := [] }
    let pay := if x.sent ≠ 0 then cell.payload
      else match x.sess with
        | some _ => withCopyBit cell.payload
        | none => cell.payload.take 8 ++ [((cell.payload.getD 8 0) &&& 0xF8) ||| BitVec.ofNat 8 x.vc] ++ cell.payload.drop 9
    { type := flitType x.sent (sendTotal l x), vc := x.vc, shared := false, payload := if x.trunc && x.sent = 1 then fit 236 (pay.take 20) else pay }

/-- The flit ends its letter on the output: END, END_SPOILT, or a HEAD of a one-flit letter. -/
def endsOnOutput (f : Flit) : Bool :=
  f.type = 3 || f.type = 4 || (f.type = 1 && flitCount (headerOf (f.payload.take 32)).length = 1)

/-- The value with which a letter of input i holds an output's VC: a standing route's letters hold it for their route (R151, R161). -/
def lockFor (i : Nat) (route : Option Nat) : Nat := match route with | some r => 257 + r | none => i + 1

/-- One cell of a letter's send moves to the staging of its output; the output's VC locks from HEAD to END (R151), PORT_OUT copies start with
the HEAD (R164), and a foreign cell that crosses by the Dispatcher counts toward its trunk's floor (R190). -/
def moveOne (id k : Nat) (route : Option Nat) (s : State) : State :=
  match tfind s.sw.letters id with
  | none => s
  | some l =>
    match l.sends[k]? with
    | none => s
    | some x =>
      let f := nextFlit l x
      let last := l.spoilt.isSome || decide (x.sent + 1 ≥ sendTotal l x)
      let l' := { l with sends := l.sends.modify k fun x => { x with sent := x.sent + 1, done := last } }
      let s := { s with sw := { s.sw with letters := tput s.sw.letters id l' } }
      let counts := l.foreign && isTrunk x.port && route.isNone
      let s := modEgress s x.port fun e => { e with
        staged := e.staged ++ [{ flit := f, letter := some id, send := k }],
        locks := tset 0 e.locks x.vc (if last then 0 else lockFor l.ingress route),
        foreign := e.foreign + bit counts }
      let s := if counts then cnt1 (idPort 33 x.port) s else s
      let s := if last then joinQueue id s else s
      if f.type = 1 && x.sess.isNone then copiesOut x.port id s else s

/-- Up to n cells of input i's queue for output j on VC v move, in queue order, while the output's VC is free or held for that queue. -/
def moveCells : Nat → Nat → Nat → Nat → Option Nat → State → State
  | 0, _, _, _, _, s => s
  | n + 1, i, j, v, route, s =>
    let lock := tget 0 (egressOf s j).locks v
    match inputQueue s i j v route with
    | (id, k, e, _, _) :: _ =>
      if e > 0 && (lock = 0 || lock = lockFor i route) then moveCells n i j v route (moveOne id k route s) else s
    | [] => s

/-! ### The Dispatcher (R150–R154) -/

/-- Whether slot 199 lasts 8 cycles: the Round holds 1,600 cycles or more at the present rate (R34). -/
def slot199Runs (s : State) : Bool := decide (1600 ≤ roundCycles s)

/-- A slot is one of those that lever 3 suppresses (R392). -/
def suppressed (k slot : Nat) : Bool := decide ((slot + 1) * k / 16 > slot * k / 16)

/-- Cells reserved by the pairs of the matches in progress. -/
def reservedFor (s : State) (j : Nat) : Nat := sumNat (s.sw.matches4.flatMap fun m => (m.pairs.filter (·.out = j)).map (·.cells))
def reservedQueue (s : State) (i j v : Nat) : Nat :=
  sumNat (s.sw.matches4.flatMap fun m => (m.pairs.filter fun x => x.inp = i && x.out = j && x.vc = v).map (·.cells))

/-- Downstream credit for a VC of an output, less the cells granted to it and not yet sent (R151). -/
def creditLeft (s : State) (j v : Nat) : Nat :=
  let t := (linkOf s j).tx
  tget 0 t.ded v + t.shr - ((egressOf s j).staged.length + reservedFor s j)

/-- The input that an output's VC is locked to once every pair in progress has moved. -/
def lockAfter (s : State) (j v : Nat) : Nat :=
  match (s.sw.matches4.flatMap fun m => m.pairs.filter fun x => x.out = j && x.vc = v).getLast? with
  | some x => if endsAfter (inputQueue s x.inp j v none) (reservedQueue s x.inp j v) then 0 else x.inp + 1
  | none => tget 0 (egressOf s j).locks v

/-- A standing route is valid on an output and not in fallback (R151, R162). -/
def routeOnOutput (s : State) (j : Nat) : Bool := (routesIn s.bank).any fun x => x.1 = j && !routeFallen s j x.2

/-- A request: input, output, VC, cells that may be granted, head letter foreign (R151). -/
abbrev Request := Nat × Nat × Nat × Nat × Bool

/-- The requests that R151 lets the inputs make now. -/
def requests (s : State) : List Request :=
  let keys := (s.sw.letters.flatMap fun (_, l) =>
    (activeSends l).filterMap fun (_, x) => if (sendRoute s x).isNone then some (l.ingress, x.port, x.vc) else none).eraseDups
  keys.filterMap fun (i, j, v) =>
    let q := inputQueue s i j v none
    let n := queueEligible q - reservedQueue s i j v
    let lock := lockAfter s j v
    let foreign := match q with | (_, _, _, _, f) :: _ => f | [] => false
    if n > 0 && (lock = 0 || lock = i + 1) && admitted s j && creditLeft s j v ≥ 1 && (egressOf s j).staged.length + reservedFor s j < 40 &&
        !(v = 6 && routeOnOutput s j) then some (i, j, v, n, foreign) else none

/-- The floor of R190 for a trunk output. -/
def foreignFloor (s : State) (j : Nat) : Nat := s.bank.regs.transitShare * 200 * linkWidth s j / 16

/-- The first of a list of numbers from a rotating pointer on, modulo 256. -/
def firstFrom (ptr : Nat) (l : List Nat) : Option Nat :=
  l.foldl (fun b x => match b with
    | none => some x
    | some y => if (x + 256 - ptr % 256) % 256 < (y + 256 - ptr % 256) % 256 then some x else some y) none

/-- The VC that an accepting input chooses (R152): VC7, else the next after the last served among VC0–VC6. -/
def chooseVc (last : Nat) (vs : List Nat) : Option Nat :=
  if vs.contains 7 then some 7
  else ((List.range 7).map fun k => (last + k) % 7).find? fun v => vs.contains v

/-- One iteration of a match (R153): grants by gptr, with the preference of R190, then accepts by aptr; pointers move on first-iteration
accepts only. An input whose request vector fails parity has no requests in that iteration (R154): `lost` lists (iteration, input). -/
def iterate (it : Nat) (lost : List (Nat × Nat)) (m : MatchState) (s : State) : MatchState × State :=
  let supp := suppressed s.pow.suppress m.slot
  let inM := m.routeIn ++ m.pairs.map (·.inp)
  let outM := m.routeOut ++ m.pairs.map (·.out)
  let reqs := (requests s).filter fun (i, j, v, _, _) =>
    !inM.contains i && !outM.contains j && (it ≥ 3 || !isMaint j) && (!supp || v = 7) && !lost.contains (it, i)
  let outs := (reqs.map fun (_, j, _, _, _) => j).eraseDups
  let isForeign := fun j => isTrunk j && decide ((egressOf s j).foreign < foreignFloor s j) && reqs.any fun (_, j', _, _, f) => j' = j && f
  let grants := outs.filterMap fun j =>
    let ins := (reqs.filter fun (_, j', _, _, f) => j' = j && (f || !isForeign j)).map fun (i, _, _, _, _) => i
    (firstFrom (tget 0 s.sw.gptr j) ins).map fun i => (i, j)
  let ins := inOrder (((grants.map (·.1)).eraseDups).map fun i => (i, i))
  ins.foldl (fun (m, s) i =>
    match firstFrom (tget 0 s.sw.aptr i) ((grants.filter (·.1 = i)).map (·.2)) with
    | none => (m, s)
    | some j =>
      let mine := reqs.filter fun (i', j', _, _, f) => i' = i && j' = j && (f || !isForeign j)
      match chooseVc (tget 0 s.sw.lastVc (256 * i + j)) (mine.map fun (_, _, v, _, _) => v) with
      | none => (m, s)
      | some v =>
        let n := ((mine.find? fun (_, _, v', _, _) => v' = v).map fun (_, _, _, n, _) => n).getD 0
        let pair : Pair := { inp := i, out := j, vc := v, cells := min 5 (min n (creditLeft s j v)) }
        let sw := { s.sw with lastVc := tset 0 s.sw.lastVc (256 * i + j) (if v = 7 then tget 0 s.sw.lastVc (256 * i + j) else v + 1) }
        let sw := if it = 1 then { sw with gptr := tset 0 sw.gptr j ((i + 1) % 256), aptr := tset 0 sw.aptr i ((j + 1) % 256) } else sw
        ({ m with pairs := m.pairs ++ [pair] }, { s with sw := sw })) (m, s)

/-- An output's standing route uses a slot (R161): it has an eligible cell, or an office letter that SLOW does not hold (R198), VC6 credit, and
VC6 free or its own. -/
def routeUses (s : State) (j slot : Nat) : Option SlotEntry :=
  let e := slotEntry s.bank j slot
  let lock := tget 0 (egressOf s j).locks 6
  if !e.valid || routeFallen s j e.route || creditLeft s j 6 = 0 || !(lock = 0 || lock = 257 + e.route) then none
  else if e.source < 256 then (if queueEligible (inputQueue s e.source j 6 (some e.route)) > 0 then some e else none)
  else match officeQueue s j e.route with
    | l :: _ => if slowHeld s l then none else some e
    | [] => none

/-- A match begins: the standing-route slots that are used take their input and output out of it (R153, R161). -/
def beginMatch (slot : Nat) (s : State) : MatchState :=
  let used := ((routesIn s.bank).map (·.1)).eraseDups.filterMap fun j => (routeUses s j slot).map fun e => (j, e.source)
  { slot := slot, pairs := [], routeIn := (used.filter fun x => x.2 < 256).map (·.2), routeOut := used.map (·.1) }

/-- Up to n flits of an office's letters on a route pass into the output's egress, while VC6 is free or the route's own (R161). -/
def moveOffice : Nat → Nat → Nat → State → State
  | 0, _, _, s => s
  | n + 1, j, r, s =>
    let lock := tget 0 (egressOf s j).locks 6
    match officeQueue s j r with
    | [] => s
    | l :: rest =>
      if !(lock = 0 || lock = 257 + r) || slowHeld s l then s
      else
        let i := l.sent
        let ends := decide (i + 1 ≥ l.flits.length)
        let f : Flit := { type := flitType i l.flits.length, vc := 6, shared := false, payload := l.flits.getD i [] }
        let q := if ends then rest else { l with sent := i + 1 } :: rest
        let s := markLeft l (slowSpend l s)
        let s := { s with sw := { s.sw with officeRoutes := s.sw.officeRoutes.map fun x => if x.1 = j && x.2.1 = r then (x.1, x.2.1, q) else x } }
        moveOffice n j r (modEgress s j fun e => { e with
          staged := e.staged ++ [{ flit := f, letter := none, send := r }], locks := tset 0 e.locks 6 (if ends then 0 else 257 + r) })

/-- The standing-route slots used move up to 5 flits each (R161). -/
def moveRoutes (m : MatchState) (s : State) : State :=
  m.routeOut.foldl (fun s j =>
    let e := slotEntry s.bank j m.slot
    let s := detailAdd j 68 1 s
    if e.source < 256 then moveCells 5 e.source j 6 (some e.route) s else moveOffice 5 j e.route s) { s with sw := { s.sw with routeNow := m.routeOut } }

/-- The channels in service (R154). -/
def channelsIn (s : State) : List Nat := (List.range 3).filter fun c => (dispOf s c).mode = 0

/-- A channel that differs is counted; more than 4 slots in a Round make its retirement due (R154). -/
def outvoted (c : Nat) (s : State) : State :=
  cnt1 2 (modDisp s c fun d => { d with mismatch := min 65535 (d.mismatch + 1), slotMiss := d.slotMiss + 1, retireDue := d.retireDue || decide (d.slotMiss ≥ 4) })

/-- The datapath word parity of R149. -/
def parityFault (x : Nat × ParityPoint) (s : State) : State :=
  match tfind s.sw.letters x.1 with
  | none => s
  | some l =>
    let h := hemOfPort l.ingress
    let beyond := fun s => spoilLetter x.1 1 true (cnt1 (idHem 1 h) s)
    match x.2 with
    | .write => beyond s
    | .read true => beyond s
    | .read false => s
    | .after true => beyond s
    | .after false => cnt1 (idHem 0 h) s

/-- What the telemetry block takes in a cell slot: the contour's peaks (R419), QUEUE_HIGH and GRANT_LOST (R417), and the running detail
engines' queue counters (R422). `want` are the inputs and VCs that requested in the slot, `got` the inputs matched. -/
def slotTelemetry (want : List (Nat × Nat)) (got : List Nat) (s : State) : State :=
  let own : List Nat := s.sw.egress.flatMap fun (x : Nat × Egress) => x.2.own.map fun l => 8 * x.1 + l.vc
  let cross : List Nat := s.sw.letters.flatMap fun (x : Nat × Letter) => x.2.sends.map fun (y : Send) => 8 * y.port + y.vc
  let keys := (cross ++ own).eraseDups
  let depth := fun (k : Nat) => queued s (k / 8) (k % 8) +
    sumNat ((egressOf s (k / 8)).own.map fun l => if l.vc = k % 8 then l.flits.length - l.sent else 0)
  let ds : List (Nat × Nat × Nat) := keys.map fun k => (k, depth k, queued s (k / 8) (k % 8))
  let s := { s with tele := { s.tele with peaks := ds.foldl (fun t x => tset 0 t x.1 (max (tget 0 t x.1) x.2.1)) s.tele.peaks } }
  let s := ds.foldl (fun s x => if x.2.2 ≥ s.bank.regs.slowHi then pcntSel 3 1 (fun c => pcArg c = x.1 / 8 && pcVc c = x.1 % 8) s else s) s
  let lost := want.filter fun x => !got.contains x.1
  let s := (lost.map (·.1)).eraseDups.foldl (fun s i => pcntSel 2 1 (fun c => pcArg c = i) s) s
  let s := lost.foldl (fun s x => detailAdd x.1 (8 * x.2 + 4) 1 s) s
  (s.tele.details.filter fun x => x.2.running).foldl (fun s x =>
    let s := detailAdd x.2.port 64 1 s
    (ds.filter fun y => y.1 / 8 = x.2.port).foldl (fun s y =>
      let id := idDetail (8 * (y.1 % 8) + 5) x.1
      detailAdd x.2.port (8 * (y.1 % 8) + 6) y.2.1 (cntAdd id (y.2.1 - cntOf s id) s)) s) s

/-- The iterations of a cell slot (R153): the match four slots ahead begins, and every match in progress takes its next iteration. The rule runs
the four at once; here the newest takes its iteration first and each sees the pairs made before it (DESIGN CHOICE, notes/assumptions/142.md). -/
def iterations (slot : Nat) (lost : List (Nat × Nat)) (s : State) : State :=
  let m4 := beginMatch ((slot + 4) % 200) s
  let s := { s with sw := { s.sw with matches4 := (s.sw.matches4.filter fun m => m.slot ≠ (slot + 4) % 200) ++ [m4] } }
  [1, 2, 3, 4].foldl (fun s k =>
    match s.sw.matches4.find? fun m => m.slot = (slot + 5 - k) % 200 with
    | none => s
    | some m =>
      let (m', s) := iterate k lost m s
      { s with sw := { s.sw with matches4 := s.sw.matches4.map fun x => if x.slot = m'.slot then m' else x } }) s

/-- DISPATCHER_MATCH (R153): in slot `slot` the finished match moves its cells, standing-route slots first; the other three take their next
iteration and the match four slots ahead begins. Where two channels differ, or the last one's match is illegal, no cell moves in the slot and
the pointers stay (R154). `lost` lists the request vectors that failed parity, as (iteration, input). -/
def dispatcherMatch (slot : Nat) (wrong : List Nat) (parity : Option (Nat × ParityPoint)) (lost : List (Nat × Nat)) (s : State) : State :=
  let s := slowRejoined (match parity with | some x => parityFault x s | none => s)
  let live := channelsIn s
  let bad := live.filter wrong.contains
  let empty := live.length < 3 && !bad.isEmpty
  let s := if live.length ≥ 3 then bad.foldl (fun s c => outvoted c s) s else if empty && live.length = 2 then cnt1 3 s else s
  let (now, later) := s.sw.matches4.partition fun m => m.slot = slot
  let s := { s with sw := { s.sw with matches4 := later, routeNow := [] } }
  let want := ((requests s).map fun (i, _, v, _, _) => (i, v)).eraseDups
  let s := slotTelemetry want (if empty then [] else now.flatMap fun m => m.pairs.map (·.inp)) s
  let s := if empty || (slot = 199 && !slot199Runs s) then s
    else now.foldl (fun s m =>
      let s := moveRoutes m s
      m.pairs.foldl (fun s x => moveCells x.cells x.inp x.out x.vc none s) s) s
  let t := iterations slot lost s
  let s := if empty then { t with sw := { t.sw with gptr := s.sw.gptr, aptr := s.sw.aptr } } else t
  updateStops (captureTake s)

def execDispatcherMatch (slot : Nat) (wrongA wrongB wrongC : Bool) (parity : Option (Nat × ParityPoint)) (s : State)
    (lost : List (Nat × Nat) := []) :
    Host.Outcome State Fault Refusal :=
  .next (dispatcherMatch slot ((if wrongA then [0] else []) ++ (if wrongB then [1] else []) ++ (if wrongC then [2] else [])) parity lost s)

/-- DISPATCH_CHANNEL_RETIRE (R154): at the boundary after a Round with more than 4 outvoted slots; the third time within 1,024 Rounds is for
good, with DISPATCH_DUPLEX; a second channel out of service raises DISPATCH_SIMPLEX. -/
def execDispatchChannelRetire (c : Nat) (s : State) : Host.Outcome State Fault Refusal :=
  let d := dispOf s c
  if d.mode ≠ 0 || !d.retireDue then .next s
  else
    let now := roundNo s
    let rs := (d.retires.filter fun r => now < r + 1024) ++ [now]
    let good := decide (rs.length ≥ 3)
    let s := modDisp s c fun d => { d with mode := if good then 2 else 1, retires := rs, retireDue := false, slotMiss := 0 }
    let s := if good then alert 0x0106 c [] s else s
    .next (if (channelsIn s).length = 1 then alert 0x0107 c [] s else s)

/-- DISPATCH_CHANNEL_REJOIN (R154): at the boundary after its retirement a channel is loaded from the voted state and rejoins. -/
def execDispatchChannelRejoin (c : Nat) (s : State) : Host.Outcome State Fault Refusal :=
  let d := dispOf s c
  if d.mode = 1 && (match d.retires.getLast? with | some r => decide (roundNo s > r) | none => true) then
    .next (modDisp s c fun d => { d with mode := 0 })
  else .next s

/-- A VC6 letter of a route in fallback has not been sent (R162): one of its input's, wherever the Atlas sends it, or one of its office's. -/
def routeQueued (s : State) (port route : Nat) : Bool :=
  let src := routeSource s.bank port route
  (s.sw.letters.any fun x => x.2.hdr.cls = 4 && x.2.hdr.groupOp = route && src = some x.2.ingress &&
    x.2.sends.any fun y => y.vc = 6 && !sendOver y && (y.route.isNone || y.port = port)) ||
  (s.sw.egress.any fun x => x.2.own.any fun l => l.vc = 6 && (ownHeader l).groupOp = route)

/-- ROUTE_RETURN (R162): a route returns to its slots once the cause has cleared and its VC6 letters in the Dispatcher queues are sent. -/
def execRouteReturn (port route : Nat) (s : State) : Host.Outcome State Fault Refusal :=
  if s.sw.fallen.contains (port, route) && !routeCause s port && !routeQueued s port route then
    .next { s with sw := { s.sw with fallen := s.sw.fallen.filter (· ≠ (port, route)) } }
  else .next s

/-- COPY_CREDIT_TIMEOUT (R166): a copy whose output has had no credit for 4 Rounds is dropped; its original is untouched. -/
def copyTimeout (id session : Nat) (s : State) : State :=
  match tfind s.sw.letters id with
  | none => s
  | some l =>
    match l.sends.find? fun x => x.sess = some session && !x.done && x.sent = 0 with
    | none => s
    | some x =>
      if copyCredit s x.port || roundNo s < creditSince s x.port + 4 then s
      else settle id { l with sends := l.sends.map fun y => if y = x then { y with done := true } else y } (dropCopy session s)

def execCopyCreditTimeout (letter session : Nat) (s : State) : Host.Outcome State Fault Refusal := .next (copyTimeout letter session s)

/-- VC7_STALE (R186): a VC7 letter whose HEAD has waited 64 Rounds at an output is discarded. A letter number that the buffer does not hold
names the first such letter of the module's own at the port. -/
def vc7Stale (id port : Nat) (s : State) : State :=
  match tfind s.sw.letters id with
  | some l =>
    match l.sends.find? fun x => x.port = port && x.vc = 7 && x.sent = 0 && !x.done with
    | none => s
    | some x =>
      if roundNo s < x.since + 64 then s
      else settle id { l with sends := l.sends.map fun y => if y = x then { y with done := true } else y } (cnt1 (idPort 28 port) s)
  | none =>
    match (egressOf s port).own.find? fun l => l.vc = 7 && l.sent = 0 && decide (roundNo s ≥ l.sinceRound + 64) with
    | none => s
    | some l => cnt1 (idPort 28 port) (modEgress s port fun e => { e with own := e.own.erase l })

def execVc7Stale (letter port : Nat) (s : State) : Host.Outcome State Fault Refusal := .next (vc7Stale letter port s)

/-! ### What a link's end does to letters (R129, R157, R182) -/

/-- A letter returned to path choice: looked up again from step 2 of R173, with its VC and Plot verdict (R182). Its copies stay. -/
def rechoose (id : Nat) (down : Nat) (s : State) : State :=
  match tfind s.sw.letters id with
  | none => s
  | some l =>
    let waits := fun (x : Send) => x.sess.isNone && x.port = down && x.sent = 0 && !x.done
    let quit := fun (x : Send) => { x with done := true }
    let put := fun (f : Send → Send) (s : State) => settle id { l with sends := l.sends.map fun x => if waits x then f x else x } s
    if l.hdr.mc then
      match (if isTrunk down then fixedChoice s l.hdr (dirOfPort down) else none) with
      | some k => put (fun x => { x with port := portOfDir (dirOfPort down) k, since := roundNo s, seq := 0 }) s
      | none => put quit (cntAdd (idPort 26 l.ingress) (l.sends.filter waits).length s)
    else
      match lookup (noteLookup l.hdr s) l.hdr (some (l.ingress, l.vc)) l.ingress with
      | (.ports ((p, v) :: _), s1) => put (fun x => { x with port := p, vc := v, route := none, since := roundNo s, seq := 0 }) s1
      | (.ports [], s1) => put quit s1
      | (.route out r, s1) => put (fun x => { x with port := out, vc := 6, route := some r, since := roundNo s, seq := 0 }) s1
      | (.discard c why, s1) => put quit (discardLookup l.ingress c why l.hdr s1)
      | (.terminal t, s1) => settle id { l with sends := l.sends.map fun x => if waits x then quit x else x, target := some t } s1

/-- What is left of own letters in progress. -/
def leftOf (ls : List OwnLetter) : Nat := sumNat ((ls.filter fun l => l.sent ≠ 0).map fun l => l.flits.length - l.sent)

/-- An own letter that waited at an output that went down is placed again by R182, or is gone with NO_PATH. -/
def replaceOwn (p : Nat) (l : OwnLetter) (s : State) : State :=
  match ownPath p l s with
  | some (q, vc, s1) =>
    let s1 := match l.notice with
      | some n => { s1 with route := { s1.route with notices := s1.route.notices.map fun y => if y.1 = n then (y.1, { y.2 with port := q }) else y } }
      | none => s1
    enterEgress q (onVc vc l) s1
  | none => cnt1 (idPort 26 p) s

/-- A buffered letter at an output that goes down (R157): in progress there it is closed, and what is left of it is counted in LOST_ON_DOWN;
not started, it returns to path choice; its copies for the output are gone. -/
def letterDown (p id : Nat) (s : State) : State :=
  match tfind s.sw.letters id with
  | none => s
  | some l =>
    if l.sends.any fun (x : Send) => x.port = p && !sendOver x && x.sent ≠ 0 then
      let left := sumNat (l.sends.map fun (x : Send) => if x.port = p && x.sent ≠ 0 then sendLeft l x else 0)
      let close := fun (x : Send) => if x.port = p && x.sent ≠ 0 && !sendOver x then { x with done := true, taken := x.sent, closed := true } else x
      settle id { l with sends := l.sends.map close } (cntAdd (idPort 15 p) left s)
    else if l.sends.any fun (x : Send) => x.port = p && x.sent = 0 && !x.done && x.sess.isSome then
      settle id { l with sends := l.sends.map fun (x : Send) => if x.port = p && x.sess.isSome then { x with done := true } else x } s
    else if l.sends.any fun (x : Send) => x.port = p && x.sent = 0 && !x.done then rechoose id p s
    else s

/-- Letters at an output that goes down or is withdrawn (R157): those in progress are closed, what is left of them counted in LOST_ON_DOWN;
those not started return to path choice, the module's own among them. -/
def outputDown (p : Nat) (s : State) : State :=
  let e := egressOf s p
  let routes := s.sw.officeRoutes.filter fun x => x.1 = p
  let s : State := cntAdd (idPort 15 p) (e.staged.length + leftOf e.own + sumNat (routes.map fun x => leftOf x.2.2)) s
  let s : State := modEgress s p fun (e : Egress) => { e with staged := [], locks := [], xbOpen := [], ownOpen := [], lastOn := [], own := [] }
  let drop : List MatchState := s.sw.matches4.map fun (m : MatchState) => { m with pairs := m.pairs.filter fun (x : Pair) => x.out ≠ p }
  let s : State := { s with sw := { s.sw with matches4 := drop, officeRoutes := s.sw.officeRoutes.filter fun x => x.1 ≠ p } }
  let s := (s.sw.letters.map (·.1)).foldl (fun (s : State) id => letterDown p id s) s
  ((routes.flatMap fun x => x.2.2) ++ e.own).foldl (fun s l => if l.sent = 0 then replaceOwn p l s else s) s

/-- Letters open on an input that goes down or is withdrawn: bad, with FLIT_LOST (R129, R130). -/
def inputDown (p : Nat) (s : State) : State :=
  (List.range 8).foldl (fun s v =>
    match openLetter s p v with
    | none => s
    | some id =>
      match tfind s.sw.letters id with
      | some l => setOpen p v 0 (if l.complete then s else spoilLetter id 0 true s)
      | none => setOpen p v 0 s) s

end Sys2Proof.Machine
end

