-- ==== Sys2Proof/Machine/Gmi.lean ====
section
/-! DEFINITION. Post boxes and the Geardo Mailbox Interface (spec/12): who answers a command, authority, parts and their checks, completions
on every transport, and the commands of the general group. -/

namespace Sys2Proof.Machine

/-! ### Authority and boxes -/

/-- Authority classes in code order (R321). -/
def authCode : Auth → Nat
  | .observer => 0
  | .member => 1
  | .manager => 2
  | .operator => 3

def authOf (n : Nat) : Auth := if n = 0 then .observer else if n = 1 then .member else if n = 2 then .manager else .operator

/-- The lower of two classes. -/
def authMin (a b : Auth) : Auth := if authCode a ≤ authCode b then a else b

/-- A sideband box. -/
def isSb : Box → Bool
  | .sb _ => true
  | _ => false

def isHb : Box → Bool
  | .hb _ => true
  | _ => false

/-- A box of the fabric manager. -/
def isFm : Box → Bool
  | .fm _ => true
  | _ => false

/-- A box that letters reach. -/
def isLetterBox (b : Box) : Bool := !isSb b && !isHb b

/-- A box that does not assemble parts, and queues one command of an accelerator or four of the partner (R323, R328). -/
def isSmall : Box → Bool
  | .pm => true
  | .ap _ => true
  | _ => false

/-- Part size limit (R320). -/
def boxLimit : Box → Nat
  | .hb _ => 4032
  | .sb _ => 1472
  | _ => 4096

/-- Commands that a box queues (R328). -/
def queueLimit : Box → Nat
  | .ap _ => 1
  | _ => 4

/-- Ceiling of a box (R321). -/
def ceiling (s : State) (b : Box) (src : Nat) (signed : Bool) : Auth :=
  match b with
  | .hb _ => .operator
  | .sb _ => .operator
  | .fm _ => if s.gmi.managers.contains src || signed then .operator else .observer
  | .ap _ => .member
  | .pm => .observer

/-- The class granted (R321). -/
def granted (s : State) (c : Ctx) : Auth := authMin (authMin c.auth (ceiling s c.box c.src c.signed)) (if c.signed then .operator else .manager)

/-- Least authority of an opcode; none where it is undefined (R337). -/
def opcodeLeast (op : Nat) : Option Auth :=
  if [0, 1, 2, 3, 4, 6, 0x101, 0x104, 0x204, 0x301, 0x401, 0x403, 0x503, 0x601, 0x605, 0x701, 0x702, 0x800, 0x903, 0x904, 0x905].contains op then some .observer
  else if [0x501, 0x502].contains op then some .member
  else if [5, 0x100, 0x102, 0x103, 0x201, 0x202, 0x203, 0x400, 0x404, 0x500, 0x600, 0x604, 0x700, 0x703, 0x704, 0x801, 0x802, 0x803, 0x804, 0x805,
           0x806, 0x900, 0x901, 0x906, 0xA00, 0xA01].contains op then some .manager
  else if [7, 0x200, 0x300, 0x402, 0x504, 0x505, 0x602, 0x603, 0x902, 0x907, 0x908].contains op then some .operator
  else none

/-- IDENTITY_READ and STATUS_READ. -/
def isStatusOp (op : Nat) : Bool := op = 1 || op = 2

/-- Who answers a command on a box: start-up with a bad POS_ID (R25), CLOCK_HALT (R377), SEAL_HALT (R343), KEEP and CHARGING (R452), ST4
(R389), the boxes not yet open (R349 stage 6), skeleton service (R330 step 3, R445). While the Triad restarts, holds its outputs or is in NONE, a
command waits (R290, R292, R297). -/
def gate (s : State) (b : Box) (op : Nat) : Gate :=
  if s.clk.posBad || s.clk.refTimeout then (if isSb b then .refuse .notReady else .silent)
  else if s.clk.halt then
    (if isHb b && cxlUp s then (if isStatusOp op || op = 4 || op = 0x800 then .run else .refuse .notReady) else .silent)
  else if s.trust.halt || s.tray.start = .keep || s.tray.start = .charging then
    (if isSb b then (if isStatusOp op then .run else .refuse .notReady) else .silent)
  else if s.tray.start ≠ .running then .silent
  else if s.ident.boot < 2 then .silent
  else if s.pow.ladder ≥ 4 then (if isSb b && (isStatusOp op || op = 0x604) then .run else .refuse .notReady)
  else if s.ident.skeleton then (if isStatusOp op then .run else .refuse .skeleton)
  else if s.pm.absent || s.pm.holding || s.pm.noneMode then .silent
  else .run

/-! ### Envelope and completion bytes -/

/-- The 64 header bytes of a part (R322). -/
def envelopeBytes (e : Envelope) : List Byte :=
  leBytes 1 e.version ++ leBytes 1 (authCode e.auth + 4 * bit e.signed) ++ leBytes 2 e.opcode ++ leBytes 2 e.tag ++ leBytes 2 e.fragLen ++
  leBytes 2 e.partIndex ++ leBytes 2 e.partCount ++ leBytes 4 e.bodyLen ++ leBytes 8 e.seq ++ leBytes 8 e.validUntil ++ fit 16 e.target ++
  leBytes 7 e.replyAddr ++ zeros 9

/-- The header that 64 bytes spell (R322). -/
def envelopeOf (l : List Byte) : Envelope :=
  let b1 := fieldAt l 1 1
  { version := fieldAt l 0 1, auth := authOf (b1 % 4), signed := bitOf b1 2, opcode := fieldAt l 2 2, tag := fieldAt l 4 2,
    fragLen := fieldAt l 6 2, partIndex := fieldAt l 8 2, partCount := fieldAt l 10 2, bodyLen := fieldAt l 12 4, seq := fieldAt l 16 8,
    validUntil := fieldAt l 24 8, target := sliceAt l 32 16, replyAddr := fieldAt l 48 7,
    reservedZero := decide (b1 / 8 = 0) && decide (fieldAt l 55 9 = 0) }

/-- The header that a signature covers: bytes 6–11 set to 0 (R330). -/
def signedHeader (e : Envelope) : List Byte := envelopeBytes { e with fragLen := 0, partIndex := 0, partCount := 0 }

/-- The 32-byte completion record (R324). -/
def completionBytes (r : Completion) : List Byte :=
  leBytes 2 r.tag ++ leBytes 2 r.opcode ++ leBytes 1 (statusCode r.status) ++ leBytes 1 (authCode r.auth + 4 * bit r.partAck + 8 * bit r.cached) ++
  leBytes 2 r.response.length ++ leBytes 1 r.ownerKind ++ zeros 3 ++ leBytes 4 r.ownerId ++ leBytes 8 r.round ++ leBytes 4 r.detail ++ zeros 4

/-- The 64 bytes of an event record (R340). -/
def eventBytes (e : Event) : List Byte :=
  leBytes 4 e.seq ++ leBytes 2 e.code ++ leBytes 1 e.severity ++ leBytes 1 (statusCode e.status) ++ leBytes 8 e.round ++ leBytes 3 e.subject ++ [0] ++
  leBytes 4 e.id ++ fit 40 e.detail

/-! ### Completions -/

/-- A sideband frame waits for a transmit opportunity (R458). -/
def queueFrame (kind box : Nat) (body : List Byte) (s : State) : State :=
  { s with tray := { s.tray with frames := s.tray.frames ++ [{ kind := kind, box := box, body := body }] } }

/-- A completion goes out on its box: into the host window with MSI-X vector b (R327), as a sideband frame (R457), or as a letter (R325). -/
def sendCompletion (b : Box) (r : Completion) (src : Nat) (cls plot replyAddr : Nat) (s : State) : State :=
  match b with
  | .hb n =>
    raiseVec n (modBox s n fun x => { x with
      complete := tget 0 s.cxl.produce n, hbState := if r.partAck then 3 else 0, last := some r, buffer := r.response ++ x.buffer.drop r.response.length })
  | .sb n => queueFrame 1 (4 + n) (completionBytes r ++ r.response) s
  | _ =>
    let h := if cls = 0 then { blankHeader with dest := src, cls := 1, plot := plot, raddr := replyAddr }
      else { blankHeader with dest := src, cls := 5, groupOp := r.opcode, raddr := replyAddr }
    sendIfPath h (completionBytes r ++ r.response) s

/-- Completions kept by a box: the last 16, for 4,096 Rounds, with the SRC of letters (R329). -/
def keepCompletion (b : Box) (src : Nat) (r : Completion) (s : State) : State :=
  let key := if isLetterBox b then src else 0
  modBox s (boxNo b) fun x => { x with
    last := some r,
    kept := (((x.kept.filter fun k => roundNo s < k.2.round + 4096) ++ [(key, r)]).drop (((x.kept.filter fun k => roundNo s < k.2.round + 4096).length + 1) - 16)) }

/-- A waiting command is the one that a context and an opcode name. -/
def Waiting.isOf (w : Waiting) (c : Ctx) (opcode : Nat) : Bool :=
  w.ctx.box = c.box && w.ctx.tag = c.tag && w.ctx.src = c.src && w.opcode = opcode

/-- A command is taken from its box: it leaves the queue, and the box's turn is over (R328). -/
def takeTurn (c : Ctx) (opcode : Nat) (s : State) : State :=
  let n := boxNo c.box
  let s := modBox s n fun x => { x with waiting := match x.waiting.find? (·.isOf c opcode) with | some w => x.waiting.erase w | none => x.waiting }
  { s with gmi := if isSmall c.box then { s.gmi with servedMain := 0, lastSmall := n }
                  else { s.gmi with servedMain := min 4 (s.gmi.servedMain + 1), lastMain := n } }

/-- The entry of a command that has been accepted or waits; one that no part brought has come on class 5 (notes/assumptions/1.md). -/
def entryFor (c : Ctx) (opcode : Nat) (s : State) : Waiting :=
  match (s.gmi.executing.toList ++ (boxOf s (boxNo c.box)).waiting).find? (·.isOf c opcode) with
  | some w => w
  | none => { ctx := c, opcode := opcode, cls := 5, plot := 0, replyAddr := 0 }

/-- A command that completes later is accepted (R326, R328). -/
def acceptLater (c : Ctx) (opcode : Nat) (s : State) : State :=
  let w := entryFor c opcode s
  let s := takeTurn c opcode { s with gmi := { s.gmi with executing := some w } }
  modBox s (boxNo c.box) fun x => { x with hbState := if isHb c.box then 2 else x.hbState }

/-- A completion passes the voter (R290): it is held while the voter holds (R292, R295), and nothing is released in NONE; the post-box engine
itself answers in skeleton service (R330). -/
def release (o : HeldOut) (s : State) : State :=
  if s.pm.holding then { s with gmi := { s.gmi with held := s.gmi.held ++ [o] } }
  else if s.pm.noneMode && !s.ident.skeleton then s
  else sendCompletion o.box o.record o.src o.cls o.plot o.replyAddr (keepCompletion o.box o.src o.record s)

/-- Held outputs leave in order (R292, R295). -/
def releaseHeld (s : State) : State :=
  if s.pm.holding then s else s.gmi.held.foldl (fun s o => release o s) { s with gmi := { s.gmi with held := [] } }

/-- A command of a box completes: it leaves the queue, its completion is kept and sent (R324, R328, R329). -/
def complete (c : Ctx) (opcode : Nat) (a : Ans) : State :=
  let s := a.post
  let w := entryFor c opcode s
  let r : Completion := { tag := c.tag, opcode := opcode, status := a.status, auth := granted s c, partAck := false, cached := false,
                          ownerKind := a.ownerKind, ownerId := a.ownerId, round := roundNo s, detail := a.detail, response := a.response }
  let s := if s.gmi.executing = some w then { s with gmi := { s.gmi with executing := none } } else takeTurn c opcode s
  release { box := c.box, record := r, src := c.src, cls := w.cls, plot := w.plot, replyAddr := w.replyAddr } s

/-- A refusal that changes nothing. -/
def refuse (st : Status) (s : State) : Ans := { status := st, post := s }

/-- BAD_ARGUMENT with the offset of the failing field (R324). -/
def badArg (detail : Nat) (s : State) : Ans := { status := .badArgument, detail := detail, post := s }

/-- BUSY_CLAIMED with its owner (R332). -/
def busy (kind id : Nat) (s : State) : Ans := { status := .busyClaimed, ownerKind := kind, ownerId := id, post := s }

/-- OK with no response. -/
def okAns (s : State) : Ans := { post := s }

/-- OK with a response. -/
def okWith (resp : List Byte) (lenAt : Nat) (s : State) : Ans := { response := resp, lenAt := lenAt, post := s }

/-- A response that does not fit the box's part size limit less 32 bytes refuses its command (R324). -/
def fitResponse (c : Ctx) (s : State) (a : Ans) : Ans := if a.response.length + 32 > boxLimit c.box then badArg a.lenAt s else a

/-- The boxes with commands that wait: the AP and PM0 boxes, numbered from 16 on, or the HB, SB and FM boxes. -/
def boxesWaiting (s : State) (small : Bool) : List Nat :=
  (s.gmi.boxes.filter fun x => !x.2.waiting.isEmpty && decide (x.1 ≥ 16) = small).map (·.1)

/-- The next box of a rotation that served `last` last. -/
def nextInTurn (last : Nat) (l : List Nat) : Option Nat :=
  match minNat? (l.filter fun n => n > last) with
  | some n => some n
  | none => minNat? l

/-- The box served next (R328): HB, SB and FM before AP and PM0, with one AP or PM0 command after every 4 others, each kind in rotation. -/
def nextBox (s : State) : Option Nat :=
  let main := boxesWaiting s false
  let small := boxesWaiting s true
  if main.isEmpty || (!small.isEmpty && s.gmi.servedMain ≥ 4) then nextInTurn s.gmi.lastSmall small else nextInTurn s.gmi.lastMain main

/-- It is a command's turn (R328): none is being executed, and it is the first of the box served next. A command that no part brought is taken
as arrived at an empty box and accepted at once (notes/assumptions/1.md). -/
def inTurn (s : State) (c : Ctx) (opcode : Nat) : Bool :=
  s.gmi.executing.isNone && match (boxOf s (boxNo c.box)).waiting with
    | [] => true
    | w :: _ => w.isOf c opcode && nextBox s = some (boxNo c.box)

/-- Under standing orders the arrival that ends them is processed after the exit (R316): a command of the manager heard waits for it. -/
def awaitsExit (s : State) (c : Ctx) : Bool :=
  s.pm.standing && s.pm.standingExitDue.isSome && (isSb c.box || (isFm c.box && authCode (granted s c) ≥ 2))

/-- Who answers a command now: one whose turn has not come waits (R328), and one whose arrival ends standing orders (R316). -/
def served (s : State) (c : Ctx) (opcode : Nat) : Gate :=
  match gate s c.box opcode with
  | .run => if inTurn s c opcode && !awaitsExit s c then .run else .silent
  | g => g

/-- The sequence floor is appended to the log (R364), round-robin over its 32,768 entries of 32 bytes. -/
def appendFloor (floor : Nat) (s : State) : State :=
  { s with gmi := { s.gmi with seqFloor := floor },
           trust := { s.trust with floorLog := tput s.trust.floorLog (s.trust.floorEntries % 32768) floor, floorEntries := s.trust.floorEntries + 1 } }

/-- The sequence floor is raised when an accepted SEQ reaches it (R364): none where the append's hold-up check fails. -/
def recordSeq (seq : Nat) (s : State) : Option State :=
  if seq ≥ s.gmi.seqFloor then
    if holdupOk s 32 then some (appendFloor (seq + 2 ^ 24) { s with gmi := { s.gmi with lastSeq := seq } }) else none
  else some { s with gmi := { s.gmi with lastSeq := seq } }

/-- A signature and its target pass (R330 step 5) under the key in force. -/
def signatureOk (e : Envelope) (body sig : List Byte) (s : State) : Bool :=
  match s.trust.authority with
  | none => false
  | some (x, m) => Config.rsaVerify x m (signedHeader e ++ body) sig && (e.target = zeros 16 || e.target = Config.idDigest.take 16)

/-- A Round in which the command may still be accepted (R322). -/
def stillValid (e : Envelope) (s : State) : Bool := e.validUntil = 0 || decide (e.validUntil ≥ roundNo s)

/-- Step 5 of R330 for a signed command, with the key in force at acceptance (R364): signature, target, sequence number and validity. -/
def signedCheck (e : Envelope) (body sig : List Byte) (s : State) : Status × State :=
  if !signatureOk e body sig s then (.refusedSignature, s)
  else if e.seq ≤ s.gmi.lastSeq || !stillValid e s then (.staleSequence, s)
  else match recordSeq e.seq s with
    | some s' => (.ok, s')
    | none => (.noHoldup, s)

/-- What the envelope of a command that waits calls for at acceptance: step 5 of R330, and VALID_UNTIL of an unsigned one (R322). -/
def acceptCheck (w : Waiting) (s : State) : Status × State :=
  match w.env with
  | none => (.ok, s)
  | some e => if e.signed then signedCheck e w.body w.sig s else if stillValid e s then (.ok, s) else (.staleSequence, s)

/-- The completion that a box keeps for a command that waits (R329): it came again while the first still waited. -/
def keptFor (w : Waiting) (s : State) : Option Completion :=
  let key := if isLetterBox w.ctx.box then w.ctx.src else 0
  if w.env.isNone then none
  else ((boxOf s (boxNo w.ctx.box)).kept.find? fun k => k.1 = key && k.2.tag = w.ctx.tag && roundNo s < k.2.round + 4096).map (·.2)

/-- Steps 6 to 8 of R330: the granted authority, then the command's own checks and action. -/
def runChecked (c : Ctx) (opcode : Nat) (body : State → Ans) (s : State) : State :=
  if authCode (granted s c) < authCode ((opcodeLeast opcode).getD .operator) then complete c opcode (refuse .notPermitted s)
  else
    let a := fitResponse c s (body s)
    if a.later then acceptLater c opcode a.post else complete c opcode a

/-- An accepted command executes: who answers (step 3 of R330), a kept completion (step 2, R329), the signature and its validity (step 5), then
the rest. A signature that fails grants nothing (R321). -/
def gmiRun (c : Ctx) (opcode : Nat) (body : State → Ans) (s : State) : State :=
  match served s c opcode with
  | .silent => s
  | .refuse st => complete c opcode (refuse st s)
  | .run =>
    let w := entryFor c opcode s
    match keptFor w s with
    | some r => sendCompletion c.box { r with cached := true } c.src w.cls w.plot w.replyAddr (takeTurn c opcode s)
    | none =>
      match acceptCheck w s with
      | (.ok, t) => runChecked c opcode body t
      | (.refusedSignature, t) => complete { c with signed := false } opcode (refuse .refusedSignature t)
      | (st, t) => complete c opcode (refuse st t)

/-! ### Arrival of parts (R322–R330) -/

/-- Step 1 of R330 for one part: R322, R323 and the box's limits. -/
def partOk (b : Box) (e : Envelope) (frag sig : List Byte) : Bool :=
  let last := decide (e.partIndex + 1 = e.partCount)
  e.version = 1 && e.reservedZero && decide (1 ≤ e.partCount) && decide (e.partCount ≤ 128) && decide (e.partIndex < e.partCount) &&
  decide (e.bodyLen ≤ 131072) && decide (frag.length = e.fragLen) && decide (sig.length = if e.signed && last then 512 else 0) &&
  decide (64 + e.fragLen + sig.length ≤ boxLimit b) && (e.signed || e.seq = 0) && (e.partCount = 1 || !isSmall b) &&
  (e.partCount ≠ 1 || e.bodyLen = e.fragLen)

/-- The context of an arriving command (R321). -/
def ctxOf (b : Box) (e : Envelope) (src : Nat) : Ctx := { box := b, tag := e.tag, src := src, auth := e.auth, signed := e.signed }

/-- A part completes at once (R323, R328, R330); no signature has passed yet, so that no more than MANAGER is granted (R321). -/
def answerPart (b : Box) (e : Envelope) (src cls plot : Nat) (st : Status) (ack : Bool) (s : State) : State :=
  let c := { ctxOf b e src with signed := false }
  let r : Completion := { tag := e.tag, opcode := e.opcode, status := st, auth := granted s c, partAck := ack, cached := false, ownerKind := 0,
                          ownerId := 0, round := roundNo s, detail := 0, response := [] }
  sendCompletion b r src cls plot e.replyAddr (if ack then s else keepCompletion b src r s)

/-- An arrival that R314 counts: 0 the rack manager, 1 the fabric manager; it ends standing orders at the next boundary (R316). -/
def heard (who : Nat) (s : State) : State :=
  { s with pm := { s.pm with
      rackHeard := if who = 0 then s.mer.ns else s.pm.rackHeard, fabHeard := if who = 1 then s.mer.ns else s.pm.fabHeard,
      standingExitDue := if s.pm.standing && s.pm.standingExitDue.isNone then some who else s.pm.standingExitDue,
      standingRound := if s.pm.standing && s.pm.standingExitDue.isNone then roundNo s else s.pm.standingRound } }

/-- A whole command has arrived: step 4 of R330, then it waits in the box's queue (R328) with what step 5 needs at acceptance; the Triad takes the
arrival as an input (R289). A command granted MANAGER or OPERATOR, its signature passing, is an arrival that R314 counts. -/
def arriveWhole (b : Box) (e : Envelope) (body sig : List Byte) (src cls plot : Nat) (s : State) : State :=
  if (opcodeLeast e.opcode).isNone then answerPart b e src cls plot .badArgument false s
  else
    let c := ctxOf b e src
    let s := if isFm b && (!e.signed || signatureOk e body sig s) && authCode (granted s c) ≥ 2 then heard 1 s else s
    deliverInput (.box (boxNo b)) (modBox s (boxNo b) fun x => { x with
      waiting := x.waiting ++ [{ ctx := c, opcode := e.opcode, cls := cls, plot := plot, replyAddr := e.replyAddr, env := some e, body := body, sig := sig }],
      hbState := if isHb b then 1 else x.hbState })

/-- The fields that every part of one command shares (R322). -/
def sameCommand (e f : Envelope) : Bool := { e with partIndex := 0, fragLen := 0 } = { f with partIndex := 0, fragLen := 0 }

/-- A part of a command of several parts (R323). -/
def arriveMulti (b : Box) (e : Envelope) (frag sig : List Byte) (src cls plot : Nat) (s : State) : State :=
  let n := boxNo b
  let fail := fun (s : State) => answerPart b e src cls plot .badArgument false (modBox s n fun x => { x with assembly := none, hbState := 0 })
  match (boxOf s n).assembly with
  | none =>
    if e.partIndex = 0 then
      answerPart b e src cls plot .ok true (modBox s n fun x => { x with
        assembly := some { tag := e.tag, src := src, next := 1, count := e.partCount, first := e, body := frag, lastRound := roundNo s },
        hbState := if isHb b then 3 else x.hbState })
    else fail s
  | some a =>
    if e.partIndex ≠ a.next || !sameCommand e a.first || src ≠ a.src then fail s
    else
      let body := a.body ++ frag
      if e.partIndex + 1 < e.partCount then
        if body.length > e.bodyLen then fail s
        else answerPart b e src cls plot .ok true (modBox s n fun x => { x with
          assembly := some { a with next := a.next + 1, body := body, lastRound := roundNo s } })
      else if body.length ≠ e.bodyLen then fail s
      else arriveWhole b a.first body sig src cls plot (modBox s n fun x => { x with assembly := none })

/-- Who answers an arriving part: a postmaster that restarts or holds its outputs leaves the boxes open (R297). -/
def gateArrival (s : State) (b : Box) (op : Nat) : Gate := gate { s with pm := { s.pm with absent := false, holding := false, noneMode := false } } b op

/-- A part arrives at a box: the checks of R330 in their order. -/
def arrive (b : Box) (e : Envelope) (frag sig : List Byte) (src cls plot : Nat) (s : State) : State :=
  let n := boxNo b
  let x := boxOf s n
  let s := match x.assembly with
    | some a => if a.tag ≠ e.tag then modBox s n fun x => { x with assembly := none, abandoned := some (a.tag, a.src) } else s
    | none => s
  let x := boxOf s n
  let key := if isLetterBox b then src else 0
  if !partOk b e frag sig then answerPart b e src cls plot .badArgument false (modBox s n fun x => { x with assembly := none })
  else if x.abandoned = some (e.tag, src) && e.partIndex ≠ 0 then
    answerPart b e src cls plot .badArgument false (modBox s n fun x => { x with abandoned := none })
  else
    match x.kept.find? fun k => k.1 = key && k.2.tag = e.tag && roundNo s < k.2.round + 4096 with
    | some k => sendCompletion b { k.2 with cached := true } src cls plot e.replyAddr s
    | none =>
      match gateArrival s b e.opcode with
      | .silent => s
      | .refuse st => answerPart b e src cls plot st false s
      | .run =>
        if x.waiting.length ≥ queueLimit b then answerPart b e src cls plot .notReady false s
        else if e.partCount = 1 && x.assembly.isNone then arriveWhole b e frag sig src cls plot s
        else arriveMulti b e frag sig src cls plot s

/-- A box takes arrivals at all: not before the boxes are open, not where nothing answers, and a host box only while the link is up (R269). -/
def boxesOpen (s : State) (b : Box) : Bool := decide (gateArrival s b 1 ≠ .silent) && (match b with | .hb _ => cxlUp s | _ => true)

/-- PART_ARRIVAL (R323, R325): a letter's part at an FM, PM0 or AP box, a part in a host box, or one that a sideband frame brought,
which counts as an arrival from the rack manager once step 1 of R330 passes (R314, R456). -/
def partArrive (b : Box) (e : Envelope) (frag sig : List Byte) (src cls plot groupOp : Nat) (s : State) : State :=
  if !boxesOpen s b then s
  else if isLetterBox b then
    if cls = 7 then (if groupOp ≥ 5 then cnt1 12 s else s)
    else if cls = 1 then (if b = .pm then s else cnt1 10 s)
    else if e.replyAddr % 4096 ≠ 0 then cnt1 11 s
    else arrive b e frag sig src cls plot s
  else arrive b e frag sig 0 5 0 (if isSb b && partOk b e frag sig then heard 0 s else s)

def execPartArrival (b : Box) (e : Envelope) (frag sig : List Byte) (src cls plot groupOp : Nat) (s : State) : Host.Outcome State Fault Refusal :=
  .next (partArrive b e frag sig src cls plot groupOp s)

/-- SIDEBAND_GMI_PART (R457): a frame whose BODY_LEN matches its part, for SB0 or SB1; it counts as an arrival from the rack manager once step
1 of R330 passes (R456). -/
def execSidebandGmiPart (box bodyLen : Nat) (e : Envelope) (frag sig : List Byte) (s : State) : Host.Outcome State Fault Refusal :=
  if (box = 4 || box = 5) && bodyLen = 64 + frag.length + sig.length && bodyLen ≤ 1472 && boxesOpen s (.sb (box - 4)) then
    let b := Box.sb (box - 4)
    .next (arrive b e frag sig 0 5 0 (if partOk b e frag sig then heard 0 s else s))
  else .next s

/-- HB_DOORBELL (R327): COMPLETE + 1 while the box is IDLE or ASSEMBLING takes the part from BUFFER; any other is counted. -/
def doorbell (b value : Nat) (s : State) : State :=
  let x := boxOf s b
  if !boxesOpen s (.hb b) then s
  else if value ≠ (x.complete + 1) % 2 ^ 32 || x.hbState = 1 || x.hbState = 2 then cnt1 9 s
  else
    let buf := fit 4032 x.buffer
    let e := envelopeOf buf
    let sigLen := if e.signed && e.partIndex + 1 = e.partCount then 512 else 0
    let s := { s with cxl := { s.cxl with produce := tset 0 s.cxl.produce b value } }
    arrive (.hb b) e (sliceAt buf 64 e.fragLen) (sliceAt buf (64 + e.fragLen) sigLen) 0 5 0 s

def execHbDoorbell (b value : Nat) (s : State) : Host.Outcome State Fault Refusal := .next (doorbell b value s)

/-- ASSEMBLY_TIMEOUT (R323): no further part for 2²⁰ Rounds abandons the assembly. -/
def execAssemblyTimeout (b : Box) (s : State) : Host.Outcome State Fault Refusal :=
  match (boxOf s (boxNo b)).assembly with
  | none => .next s
  | some a =>
    if roundNo s < a.lastRound + 2 ^ 20 then .next s
    else .next (modBox s (boxNo b) fun x => { x with assembly := none, abandoned := some (a.tag, a.src), hbState := 0 })

/-! ### Pages that commands read (R272, R273) -/

/-- The identity page, 0x000–0x03F (R272). -/
def identityPage (s : State) : List Byte :=
  leBytes 2 0x4C4B ++ leBytes 2 0x1024 ++ leBytes 1 1 ++ leBytes 1 s.clk.posId.toNat ++ zeros 2 ++
  leBytes 3 (srcRef s) ++ leBytes 1 (bit s.ident.learned) ++ zeros 4 ++ leBytes 8 s.trust.fwVersion ++ leBytes 8 Config.serial.toNat ++ fit 32 Config.idDigest

/-- `n` words of the status page as last rewritten (R273). -/
def statusPage (s : State) (n : Nat) : List Byte := (List.range n).flatMap fun i => leBytes 4 (tget 0 s.cxl.page i).toNat

/-! ### General commands (R337) -/

/-- NOP. -/
def execNop (c : Ctx) (s : State) : Host.Outcome State Fault Refusal := .next (gmiRun c 0 okAns s)

/-- IDENTITY_READ: the identity page. -/
def execIdentityRead (c : Ctx) (s : State) : Host.Outcome State Fault Refusal := .next (gmiRun c 1 (fun s => okWith (identityPage s) 0 s) s)

/-- STATUS_READ: the status page's first 36 bytes. -/
def execStatusRead (c : Ctx) (s : State) : Host.Outcome State Fault Refusal := .next (gmiRun c 2 (fun s => okWith (statusPage s 9) 0 s) s)

/-- EVENT_READ (R340): up to COUNT records of the event log from FROM_SEQ on. -/
def eventsFrom (fromSeq count : Nat) (s : State) : Ans :=
  if count = 0 || count > 62 then badArg 4 s
  else okWith (((s.gmi.log.filter fun e => e.seq ≥ fromSeq).take count).flatMap eventBytes) 4 s

def execEventRead (c : Ctx) (fromSeq count : Nat) (s : State) : Host.Outcome State Fault Refusal := .next (gmiRun c 4 (eventsFrom fromSeq count) s)

/-- ALERT_ACK (R342): alerts of the code, or all of them, are acknowledged, but for those raised in this Round. -/
def ackAlerts (code : Nat) (s : State) : Ans :=
  okAns { s with gmi := { s.gmi with alerts := s.gmi.alerts.filter fun a => !((code = 0xFFFF || a.1 = code) && a.2 ≠ roundNo s) } }

def execAlertAck (c : Ctx) (code : Nat) (s : State) : Host.Outcome State Fault Refusal := .next (gmiRun c 5 (ackAlerts code) s)

/-- TRAY_STATE_READ (R310, R313): on PM0 only, a range of the tray state. -/
def trayStateAns (c : Ctx) (offset length : Nat) (s : State) : Ans :=
  if c.box ≠ .pm then refuse .notPermitted s
  else if length > 4064 then badArg 4 s
  else okWith (sliceAt (Config.trayState (roundNo s)) offset length) 4 s

def execTrayStateRead (c : Ctx) (offset length : Nat) (s : State) : Host.Outcome State Fault Refusal := .next (gmiRun c 6 (trayStateAns c offset length) s)

/-- A restart asked for by a command begins at the next boundary (R296, R337). -/
def restartNext (s : State) : State := { s with pm := { s.pm with restartDue := true, restartFrom := roundNo s + 1 } }

/-- RESTART (R296): OK, then the postmaster restarts at the next boundary. -/
def execRestart (c : Ctx) (s : State) : Host.Outcome State Fault Refusal := .next (gmiRun c 7 (fun s => okAns (restartNext s)) s)

/-- MANAGER_SET (R321): up to 16 grid references replace the manager list. -/
def setManagers (refs : List Nat) (s : State) : Ans :=
  if refs.length > 16 then badArg 0 s else okAns { s with gmi := { s.gmi with managers := refs.map (· % 2 ^ 24) } }

def execManagerSet (c : Ctx) (refs : List Nat) (s : State) : Host.Outcome State Fault Refusal := .next (gmiRun c 0x907 (setManagers refs) s)

end Sys2Proof.Machine
end

