-- ==== Sys2Proof/Machine/Link.lean ====
section
/-! DEFINITION. Flits and links (spec/04): the header, the cipher, receiving and acknowledging, replay, credits, the egress choice of a flit
boundary, training, narrowing and the release and return of lanes. -/

namespace Sys2Proof.Machine

/-! ### The flit -/

/-- Flit types that carry a sequence number (R89). -/
def sequenced (t : Nat) : Bool := (1 ≤ t && t ≤ 5) || t = 10 || t = 11

/-- Flit types that take a credit (R89, R100). -/
def takesCredit (t : Nat) : Bool := (1 ≤ t && t ≤ 4) || t = 10 || t = 11

/-- Flit types that may cross a link that is not admitted (R91). -/
def crossesEarly (t : Nat) : Bool := t = 0 || t = 5 || t = 6 || t = 7 || t = 10 || t = 11

/-- The 32-bit flit header (R88). -/
def flitHeader (f : Flit) (rseq credit creditVc : Nat) (keyPhase : Bool) : Nat :=
  f.type % 16 + f.vc % 8 * 2 ^ 4 + rseq % 4096 * 2 ^ 7 + credit % 256 * 2 ^ 19 + creditVc % 8 * 2 ^ 27 + bit keyPhase * 2 ^ 30 + bit f.shared * 2 ^ 31

/-- The 96-bit IV: SALT, then the count, whose bit 63 is 1 for unsequenced flits (R92). -/
def flitIv (salt : BitVec 32) (seq : Bool) (n : Nat) : BitVec 96 := BitVec.ofNat 96 (salt.toNat * 2 ^ 64 + (if seq then 0 else 2 ^ 63) + n % 2 ^ 63)

/-- A flit body: header, payload or ciphertext, tag, CRC (R85, R90, R91). -/
def flitBody (hdr : Nat) (payload : List Byte) (key : Option (BitVec 256 × BitVec 96)) : List Byte :=
  let h := leBytes 4 hdr
  let (p, t) := match key with
    | some (k, iv) =>
      let c := fit 236 (Config.gcmCipher k iv h payload)
      (c, leBytes 8 (Config.gcmTag k iv h c).toNat)
    | none => (fit 236 payload, zeros 8)
  let b := h ++ p ++ t
  b ++ leBytes 8 (crc64 b)

/-- T_RT in 1/256 ns (R98, R101): 2d + 160 ns, where d is the mean link delay of R39 once CHRON flits have been exchanged, before that as
training measured it; 1,320 ns on trunk ports and 260 ns elsewhere until d is known. -/
def rtt256 (s : State) (p : Nat) : Nat :=
  let l := linkOf s p
  let c := chronOf s p
  if c.delays ≠ [] then min (2 ^ 24 - 1) (2 * meanDelay c + 160 * 256).toNat
  else if l.delayKnown then l.rtt else if isTrunk p then 1320 * 256 else 260 * 256

/-- SHARED_GRANT (R101). -/
def sharedGrant (s : State) (p : Nat) : Nat := min 2048 (((rtt256 s p + 128 * 256) * 100 + 32767) / 32768 + 64)

/-- Dedicated credits that a receiver offers a VC: 32, none for VC4 and VC5 away from access ports (R100). -/
def dedicatedOffer (p v : Nat) : Nat := if (v = 4 || v = 5) && !isAccess p then 0 else 32

/-- Replay buffer capacity (R98). -/
def replaySize (p : Nat) : Nat := if isTrunk p then 1024 else 256

/-- The link carries flits: UP or a later state, and not in a narrowing or widening (R106, R111). -/
def inService (l : Link) : Bool := l.disc ≠ .dark && l.disc ≠ .training && l.phase = .none

/-- The module's transmitters may send flits: lit, in ST0 or ST1 (R71). -/
def mayTransmit (s : State) : Bool := !s.ident.dark && decide (s.pow.ladder ≤ 1)

/-- The peer is parked in ST2 or lower: only LOS takes a lane (R306). -/
def peerAsleep (l : Link) : Bool := l.parked && (match l.peerRoll with | some r => decide (r.ladder ≥ 2) | none => false)

/-! ### Going down -/

/-- Lanes of a port as it has them: changed by `f`. -/
def modPortLanes (p : Nat) (js : List Nat) (f : Lane → Lane) (s : State) : State := js.foldl (fun s j => modLane s (laneOfPort p j) f) s

/-- The lanes in a set of four. -/
def lanesIn (m : BitVec 4) : List Nat := (List.range 4).filter fun j => m.getLsbD j

def laneBit (j : Nat) : BitVec 4 := BitVec.ofNat 4 (2 ^ j)

/-- A link goes down: replay buffers are discarded and counted, letters closed, keys lost, and it is DARK (R99, R103, R106, R157). -/
def linkToDark (p : Nat) (s : State) : State :=
  let l := linkOf s p
  if l.disc = .dark then s
  else
    let s := cntAdd (idPort 15 p) l.tx.replay.length s
    let s := setLink s p { released := l.released, returning := l.returning, ownCardSeq := l.ownCardSeq, cardSent := l.cardSent,
                           admitReq := l.admitReq, reqRestore := l.reqRestore, troubleRound := some (roundNo s), retryRound := roundNo s }
    let s := modPortLanes p [0, 1, 2, 3] (fun x => if x.claim = .adapt then { x with claim := .none, adaptOn := false } else x) s
    let s := modChron s p fun _ => {}
    latchFallback (inputDown p (outputDown p s))

/-- Withdrawal from ADMITTED (R116): keys erased, replay buffers discarded, letters as for a link going down, ADMIT_LOST, ADMIT_REQ clear for
1,024 Rounds; the link stays trained. SURVEY and ADMIT flits that wait are kept, and the ACK and NAK flits that wait are dropped with the replay
buffer they speak of (DESIGN CHOICE: notes/assumptions/124.md). -/
def withdraw (p : Nat) (s : State) : State :=
  let l := linkOf s p
  if l.disc ≠ .admitted then s
  else
    let s := cntAdd (idPort 15 p) l.tx.replay.length s
    let s := modLink s p fun l => { l with
      disc := .surveyed, keys := {}, keyPhaseTx := false, keyPhaseRx := false, admitReq := false, reqRestore := roundNo s + 1024, cardDue := true,
      silent := false, parked := false, parkDue := false, rollRound := none, troubleRound := some (roundNo s), adm := {},
      tx := { l.tx with replay := [], resend := [], control := [] } }
    let s := latchFallback (inputDown p (outputDown p s))
    alert 0x0105 p ((l.card.map (·.idDigest)).getD []) s

/-! ### Receiving -/

/-- A NAK waits for the next flit boundary and sequenced flits are discarded from now on (R96). -/
def sendNak (p reason : Nat) (s : State) : State :=
  let eseq := (linkOf s p).rx.eseq
  let f : Flit := { type := 7, vc := 0, shared := false, payload := fit 236 (leBytes 2 ((eseq + 4095) % 4096) ++ leBytes 1 reason) }
  let s := modTx s p fun t => { t with control := t.control ++ [f] }
  cnt1 (idPort 8 p) (modRx s p fun r => { r with discarding := true, lastNak := some s.mer.ns })

/-- A bad flit (R96): a NAK unless flits are already being discarded. -/
def badFlit (p reason : Nat) (s : State) : State := if (linkOf s p).rx.discarding then s else sendNak p reason s

/-- The key and SALT that a KEY_PHASE names on the receive side (R114). -/
def rxKey (l : Link) (phase : Bool) : BitVec 256 × BitVec 32 :=
  if phase = l.keyPhaseRx then (l.keys.rx, l.keys.saltRx)
  else (l.keys.nextRx.getD (l.keys.oldRx.getD (l.keys.rx, l.keys.saltRx)))

/-- The receive direction follows the KEY_PHASE of an accepted flit (R114, R117): the new key comes into force with the first flit under it; a
flit replayed under the old key after that changes nothing but what LINK_STATUS shows. -/
def followPhase (phase : Bool) (l : Link) : Link :=
  let l := { l with lastPhase := phase }
  if phase = l.keyPhaseRx then l
  else match l.keys.nextRx with
    | some (k, salt) => { l with keyPhaseRx := phase, keys := { l.keys with oldRx := some (l.keys.rx, l.keys.saltRx), rx := k, saltRx := salt, nextRx := none } }
    | none => l

/-- The full number of a sequenced flit from its RSEQ: nearest ESEQ, so that a flit ahead of it and a duplicate behind it keep the number they
were sent with (R92, R96). -/
def extendSeq (ref rseq : Nat) : Nat :=
  let d := (rseq + 4096 - ref % 4096) % 4096
  if d < 2048 then ref + d else ref + d - 4096

/-- The full number of an unsequenced flit: the nearest value above the last one accepted (R92). -/
def extendUnseq (last : Option Nat) (rseq : Nat) : Nat :=
  match last with
  | none => rseq
  | some q => let d := (rseq + 4096 - q % 4096) % 4096; q + (if d = 0 then 4096 else d)

/-- TAG_FAIL grows; 64 within 1,024 Rounds withdraw the link (R93). -/
def tagFail (p : Nat) (s : State) : State :=
  let s := cnt1 (idPort 7 p) s
  let live := ((linkOf s p).rx.tagFails.filter fun r => roundNo s < r + 1024) ++ [roundNo s]
  let s := modRx s p fun r => { r with tagFails := live }
  if live.length ≥ 64 then withdraw p s else s

/-- A good sequenced flit (R96, R102): accepted at ESEQ, a gap ahead of it, a duplicate behind it. R96 does not say where ahead ends and behind
begins modulo 4,096; 2,048 is the model's split (DESIGN CHOICE: notes/assumptions/134.md). -/
def takeSequenced (p rseq : Nat) (f : Flit) (credit cvc : Nat) (phase : Bool) (usable : Bool) (s : State) : State :=
  let l := linkOf s p
  let d := (rseq + 4096 - l.rx.eseq % 4096) % 4096
  if d = 0 then
    let s := modLink s p (followPhase phase)
    let s := modRx s p fun r => { r with
      eseq := r.eseq + 1, discarding := false, ackCount := r.ackCount + 1, ackFirst := match r.ackFirst with | some t => some t | none => some s.mer.ns,
      accepted := if usable then some f else r.accepted }
    let s := modTx s p fun t => { t with ded := tset 0 t.ded cvc (tget 0 t.ded cvc + credit) }
    let s := cnt1 (idPort 0 p) s
    -- a flit that no letter buffer keeps is freed at once: SURVEY, ADMIT, and one discarded as UNADMITTED or BAD_VC
    let s := if takesCredit f.type && (!usable || f.type = 10 || f.type = 11) then returnCredit p f.vc f.shared s else s
    let s := detailAdd p (8 * f.vc) 1 s
    if f.shared then detailAdd p (8 * f.vc + 2) 1 s else s
  else if d < 2048 then (if l.rx.discarding then s else sendNak p 3 s)
  else cnt1 (idPort 11 p) s

/-- A good unsequenced flit (R92, R94): processed at once unless its number is not above the last accepted. -/
def takeUnsequenced (p rseq : Nat) (f : Flit) (phase : Bool) (usable : Bool) (s : State) : State :=
  let l := linkOf s p
  let n := extendUnseq l.rx.lastUnseq rseq
  if (match l.rx.lastUnseq with | some q => decide (n ≤ q) | none => false) then s
  else modRx (modLink s p (followPhase phase)) p fun r => { r with lastUnseq := some n, accepted := if usable then some f else r.accepted }

/-- A flit whose FEC and CRC pass: type, tag, decryption, admission and VC, then its sequence (R89, R91–R96, R100). While
ADMITTING, an ADMIT flit with a TAG is ciphertext (notes/assumptions/124.md). -/
def goodBody (p : Nat) (body : List Byte) (s : State) : State :=
  let l := linkOf s p
  let hdr := fieldAt body 0 4
  let t := hdr % 16
  let vc := bitsOf hdr 6 4
  let rseq := bitsOf hdr 18 7
  let phase := bitOf hdr 30
  if t ≥ 12 then
    let (n, s) := drawFree s
    badFlit p (n % 5) (cnt1 (idPort 12 p) s)
  else
    let raw := sliceAt body 4 236
    let tag := fieldAt body 240 8
    let sealed := l.disc = .admitted || (l.disc = .admitting && t = 11 && tag ≠ 0)
    let n := if sequenced t then extendSeq l.rx.eseq rseq else extendUnseq l.rx.lastUnseq rseq
    let (k, salt) := rxKey l phase
    let iv := flitIv salt (sequenced t) n
    let aad := leBytes 4 hdr
    -- the tag of the peer's FINISH is computed under the new receive key; ADMIT_FINISH compares it (R112 step 6)
    let s := if l.disc = .admitting && l.adm.step = 3 && sealed then
        modLink s p fun l => { l with adm := { l.adm with finishTag := some (Config.gcmTag k iv aad raw).toNat } }
      else s
    if l.disc = .admitted && (Config.gcmTag k iv aad raw).toNat ≠ tag then badFlit p 2 (tagFail p s)
    else
      let f : Flit := { type := t, vc := vc, shared := bitOf hdr 31, payload := if sealed then fit 236 (Config.gcmPlain k iv aad raw) else raw }
      let early := l.disc ≠ .admitted && !crossesEarly t
      let badVc := !early && takesCredit t && (vc = 4 || vc = 5) && !isAccess p
      let s := if early then cnt1 (idPort 13 p) s else if badVc then cnt1 (idPort 14 p) s else s
      let usable := !early && !badVc
      if sequenced t then takeSequenced p rseq f (bitsOf hdr 26 19) (bitsOf hdr 29 27) phase usable s
      else takeUnsequenced p rseq f phase usable s

/-- The coded bytes that a flit's decided levels carry: on a lane whose receive direction is precoded, x_n = (y_n + y_{n−1}) mod 4, and y is
kept for the next flit (R65, R87). `levels` are the levels as decided, unmapped by the Gray map. -/
def receiveLanes (p : Nat) (levels : List Byte) (s : State) : List Byte × State :=
  let active := lanesIn (linkOf s p).width
  let w := active.length
  if active.all fun j => !(laneOf s (laneOfPort p j)).precodeRx then (levels, s)
  else
    let lanes := ((List.range w).zip active).map fun (i, j) =>
      let x := laneOf s (laneOfPort p j)
      let sym := laneSymbols levels w i
      (laneOfPort p j, symbolBytes (if x.precodeRx then decodePre x.yRx sym else sym), sym.getLastD x.yRx)
    ((List.range 288).map fun k => ((lanes.getD (k % w) (0, [], 0)).2.1).getD (k / w) 0,
      lanes.foldl (fun s x => modLane s x.1 fun y => { y with yRx := x.2.2 }) s)

/-- Corrections are counted on the lanes they were located on (R105). -/
def countLaneFec (p : Nat) (coded : List Byte) (s : State) : State :=
  let active := lanesIn (linkOf s p).width
  ((List.range active.length).zip active).foldl (fun s (i, j) =>
    modLane s (laneOfPort p j) fun x => { x with fecErr := x.fecErr + fecOnLane coded active.length i }) s

/-- A flit whose coded bytes are at hand (R93): FEC, then CRC, then tag; a flit that fails any is bad. -/
def flitBytes (p : Nat) (coded : List Byte) (s : State) : State :=
  let l := linkOf s p
  match fecDecode coded with
    | none =>
      let s := cntAdd (idPort 5 p) (fecBad coded) s
      let s := modPortLanes p (lanesIn l.width) (fun x => { x with fzFec := true, fecRound := some (roundNo s) }) s
      let s := modRx s p fun r => { r with badSince := match r.badSince with | some b => some b | none => some (roundNo s) }
      badFlit p 0 s
    | some (body, n) =>
      let s := detailAdd p 66 n (cntAdd (idPort 4 p) n (if n = 0 then s else countLaneFec p coded s))
      let s := modRx s p fun r => { r with badSince := none }
      if crc64 (body.take 248) ≠ fieldAt body 248 8 then badFlit p 1 (cnt1 (idPort 6 p) s)
      else goodBody p body s

/-- FLIT_RECEIVE (R65, R87, R93): a flit's levels are decided on the active lanes. -/
def flitReceive (p : Nat) (levels : List Byte) (s : State) : State :=
  if !inService (linkOf s p) then s
  else
    let (coded, s) := receiveLanes p levels s
    flitBytes p coded s

def execFlitReceive (p : Nat) (coded : List Byte) (s : State) : Host.Outcome State Fault Refusal := .next (flitReceive p coded s)

/-- NAK_REPEAT (R96): T_RT + 64 ns after the last NAK, still discarding: REASON REPEAT. -/
def execNakRepeat (p : Nat) (s : State) : Host.Outcome State Fault Refusal :=
  let r := (linkOf s p).rx
  match r.lastNak with
  | some t => if r.discarding && (s.mer.ns - t) * 256 ≥ rtt256 s p + 64 * 256 then .next (sendNak p 4 s) else .next s
  | none => .next s

/-- ACK_SEND (R95): 32 sequenced flits accepted since the last ACK, or 32 ns since the first of them. -/
def ackSend (p : Nat) (s : State) : State :=
  let r := (linkOf s p).rx
  if r.ackCount ≥ 32 || (match r.ackFirst with | some t => decide (s.mer.ns ≥ t + 32) | none => false) then
    let f : Flit := { type := 6, vc := 0, shared := false, payload := fit 236 (leBytes 2 ((r.eseq + 4095) % 4096)) }
    modRx (modTx s p fun t => { t with control := t.control ++ [f] }) p fun r => { r with ackCount := 0, ackFirst := none }
  else s

def execAckSend (p : Nat) (s : State) : Host.Outcome State Fault Refusal := .next (ackSend p s)

/-- Flits that an ACK_SEQ releases from a replay buffer whose oldest comes first (R97). -/
def released (ackSeq : Nat) (l : List Held) : Nat :=
  match l with
  | [] => 0
  | h :: _ =>
    let d := (ackSeq + 4096 - h.seq % 4096) % 4096
    if d < l.length then d + 1 else 0

/-- An ACK or NAK releases all flits up to its ACK_SEQ (R97). -/
def releaseUpTo (p ackSeq : Nat) (s : State) : State :=
  modTx s p fun t =>
    let n := released ackSeq t.replay
    let left := t.replay.drop n
    { t with replay := left, resend := t.resend.filter fun h => left.any fun x => x.seq = h.seq }

/-- ACK_RECEIVE (R97). -/
def execAckReceive (p ackSeq : Nat) (s : State) : Host.Outcome State Fault Refusal := .next (releaseUpTo p ackSeq s)

/-- NAK_RECEIVE (R97): every unacknowledged flit after ACK_SEQ is resent in order, before any new sequenced flit. -/
def execNakReceive (p ackSeq _reason : Nat) (s : State) : Host.Outcome State Fault Refusal :=
  .next (modTx (releaseUpTo p ackSeq s) p fun t => { t with resend := t.replay })

/-- REPLAY_TIMEOUT (R97): the oldest unacknowledged flit is older than T_RT + 128 ns and no NAK has come. -/
def execReplayTimeout (p : Nat) (s : State) : Host.Outcome State Fault Refusal :=
  let t := (linkOf s p).tx
  match t.replay.head? with
  | some h =>
    if t.resend.isEmpty && (s.mer.ns - h.sentNs) * 256 > rtt256 s p + 128 * 256 then
      .next (cnt1 (idPort 10 p) (modTx s p fun t => { t with resend := t.replay }))
    else .next s
  | none => .next s

/-- The Round in which an output last had a credit for VC0 (R166). -/
def noteCredit (p : Nat) (s : State) : State :=
  let t := (linkOf s p).tx
  if tget 0 t.ded 0 + t.shr > 0 then modEgress s p fun e => { e with creditRound := roundNo s } else s

/-- CREDIT_RECEIVE (R101, R102): initial totals with INIT, else returns. -/
def creditReceive (p : Nat) (ded : List Nat) (shr : Nat) (init : Bool) (s : State) : State :=
  noteCredit p (modLink s p fun l => { l with
    grantTx := if init then shr else l.grantTx,
    tx := { l.tx with
      credInit := l.tx.credInit || init,
      shr := if init then shr else l.tx.shr + shr,
      ded := (List.range 8).foldl (fun t v => tset 0 t v ((if init then 0 else tget 0 t v) + ded.getD v 0)) l.tx.ded } })

def execCreditReceive (p : Nat) (ded : List Nat) (shr : Nat) (init : Bool) (s : State) : Host.Outcome State Fault Refusal :=
  .next (creditReceive p ded shr init s)

/-- Shared returns are withheld on an access port with a letter queued for a stopped output (R199), and everywhere once PULL_WARN_N is
taken (R439). -/
def withholds (s : State) (p : Nat) : Bool :=
  isAccess p && s.sw.letters.any fun x => x.2.ingress = p && x.2.sends.any fun y => !y.done && (List.range 8).any fun v => s.sw.stopped.contains (8 * y.port + v)

/-- Credits that wait to be returned (R102). -/
def pendingCredits (s : State) (p : Nat) : Nat :=
  let r := (linkOf s p).rx
  sumNat (r.pendDed.map (·.2)) + (if withholds s p then 0 else r.pendShr)

/-- CREDIT_SEND (R102): 64 or more credits pending, or 32 ns since the first. -/
def creditSend (p : Nat) (s : State) : State :=
  let l := linkOf s p
  let old := match l.rx.pendSince with | some t => decide (s.mer.ns ≥ t + 32) | none => false
  if l.creditStop || pendingCredits s p = 0 || !(pendingCredits s p ≥ 64 || old) then s
  else modTx s p fun t => { t with creditDue := true }

def execCreditSend (p : Nat) (s : State) : Host.Outcome State Fault Refusal := .next (creditSend p s)

/-! ### Roll records (R303) -/

/-- The module's own roll record; `leaving` names the state being entered (R306). -/
def ownRoll (s : State) (leaving : Option Nat) : RollRecord :=
  { kind := 0, postmasterAbsent := s.pm.absent, skeleton := s.ident.skeleton, standingOrders := s.pm.standing,
    lead := s.pm.role ≠ .standby, leaving := leaving.isSome, err := false, ladder := leaving.getD s.pow.ladder,
    roundLo := roundNo s % 2 ^ 32, src := srcRef s, leadEpoch := s.pm.epoch }

/-- Bytes 0–15 of a roll record (R303). -/
def rollBytes (r : RollRecord) : List Byte :=
  leBytes 1 (r.kind % 4) ++
  leBytes 1 (bit r.postmasterAbsent + 2 * bit r.skeleton + 4 * bit r.standingOrders + 8 * bit r.lead + 16 * bit r.leaving + 32 * bit r.err) ++
  leBytes 1 (r.ladder % 8) ++ [0] ++ leBytes 4 r.roundLo ++ leBytes 3 r.src ++ [0] ++ leBytes 4 r.leadEpoch

/-! ### Transmitting (R155) -/

/-- The state that a ROLL with LEAVING names: the ladder move under way, or ST4 after PULL_WARN_N (R306, R439). -/
def leavingState (s : State) : Nat := match s.pow.move with | some m => m.target | none => if s.tray.pull > 0 then 4 else s.pow.ladder

/-- A lower state has been announced and is not entered yet, or the tray is being pulled: every roll record sent meanwhile shows LEAVING (R303, R306,
R439). -/
def leavingNow (s : State) : Bool :=
  decide (s.tray.pull > 0) || match s.pow.move with | some m => m.leavingRound.isSome && decide (m.target > s.pow.ladder) | none => false

/-- The module's roll record as its engine sends it now. -/
def rollNow (s : State) (announce : Bool) : RollRecord := ownRoll s (if announce || leavingNow s then some (leavingState s) else none)

/-- A flit goes onto the fibre: header, cipher, FEC, symbols with precoding; a sequenced one is held for replay (R65, R87, R91, R92, R97).
Between an end's own FINISH and ADMITTED only FINISH is sealed (notes/assumptions/124.md). -/
def putFlit (p : Nat) (f : Flit) (s : State) : State :=
  let l := linkOf s p
  let sq := sequenced f.type
  let n := if sq then l.tx.nextSeq else l.tx.nextUnseq
  let cvc := if sq && !l.creditStop && f.type ≠ 5 then (List.range 8).find? fun v => tget 0 l.rx.pendDed v > 0 else none
  let credit := match cvc with | some v => min 255 (tget 0 l.rx.pendDed v) | none => 0
  let crypt := l.disc = .admitted || (l.disc = .admitting && f.type = 11 && f.payload.head? = some 3)
  let key := if crypt then some (l.keys.tx, flitIv l.keys.saltTx sq n) else none
  let coded := fecEncode (flitBody (flitHeader f n credit (cvc.getD 0) l.keyPhaseTx) f.payload key)
  let s := modLink s p fun l => { l with
    rx := match cvc with
      | some v =>
        let d := tset 0 l.rx.pendDed v (tget 0 l.rx.pendDed v - credit)
        { l.rx with pendDed := d, pendSince := if d.isEmpty && l.rx.pendShr = 0 then none else l.rx.pendSince }
      | none => l.rx,
    tx := { l.tx with
      nextSeq := if sq then n + 1 else l.tx.nextSeq, nextUnseq := if sq then l.tx.nextUnseq else n + 1,
      replay := if sq then l.tx.replay ++ [{ seq := n, coded := coded, sentNs := s.mer.ns, oldKey := false }] else l.tx.replay,
      fibre := coded, flitsUnderKey := l.tx.flitsUnderKey + bit (crypt && sq), unseqUnderKey := l.tx.unseqUnderKey + bit (crypt && !sq) } }
  let s := if sq then cnt1 (idPort 1 p) s else s
  if takesCredit f.type then detailAdd p (8 * f.vc + 1) 1 s else s

/-- The symbols of the coded flit last put on the fibre, lane by lane, after precoding (R65, R87). -/
def driveLanes (p : Nat) (s : State) : State :=
  let l := linkOf s p
  let active := lanesIn l.width
  let w := active.length
  ((List.range w).zip active).foldl (fun s (i, j) =>
    let g := laneOfPort p j
    let x := laneOf s g
    -- a lane whose ring is not locked is blank: nothing leaves on it (R70)
    if x.blank || !x.ringLock then modTx s p fun t => { t with line := t.line.filter fun z => z.1 ≠ g }
    else
      let sym := laneSymbols l.tx.fibre w i
      let (out, y) := if x.precodeTx then precode x.yTx sym else (sym, x.yTx)
      let s := setLane s g { x with yTx := y }
      modTx s p fun t => { t with line := (t.line.filter fun z => z.1 ≠ g) ++ [(g, out)] }) s

/-- A credit of the VC is left to spend (R100, R101). -/
def hasCredit (l : Link) (v : Nat) : Bool := l.tx.credInit && decide (tget 0 l.tx.ded v + l.tx.shr > 0)

/-- The flit's credit is spent, dedicated first (R100). -/
def spend (p : Nat) (f : Flit) (s : State) : Flit × State :=
  let t := (linkOf s p).tx
  if tget 0 t.ded f.vc > 0 then (f, modTx s p fun t => { t with ded := tset 0 t.ded f.vc (tget 0 t.ded f.vc - 1) })
  else ({ f with shared := true }, modTx s p fun t => { t with shr := t.shr - 1 })

/-- SHARE of a group by its tag in a letter, 1 + entry (R242, R248). -/
def shareOf (s : State) (g : Nat) : Nat := (((groupOf s (g - 1)).record).map groupShare).getD 1

/-- The own letter of a VC whose turn it is, of those that no SLOW holds (R198): the one in progress, else the first, but on VC5 of an access
port up to SHARE letters of a group by turns (R248). -/
def ownNext (s : State) (p v : Nat) : Option OwnLetter :=
  let e := egressOf s p
  let mine := e.own.filter fun l => l.vc = v && !slowHeld s l
  match mine.find? fun l => l.sent ≠ 0 with
  | some l => some l
  | none =>
    if v = 5 && isAccess p then
      let (g, left) := e.share5
      match (if left > 0 then mine.find? fun l => l.group = g else none) with
      | some l => some l
      | none =>
        let gs := mine.map (·.group)
        let next := match minNat? (gs.filter (· > g)) with | some x => some x | none => minNat? gs
        next.bind fun x => mine.find? fun l => l.group = x
    else mine.head?

/-- Whether a VC's next flit is an own letter's: true own, false crossbar; none where neither is ready (R155). -/
def vcSource (s : State) (p v : Nat) : Option Bool :=
  let e := egressOf s p
  let xb := e.staged.any fun x => x.flit.vc = v
  let own := (ownNext s p v).isSome
  if tget false e.xbOpen v then (if xb then some false else none)
  else if tget false e.ownOpen v then (if own then some true else none)
  else if own && (tget false e.ownTurn v || !xb) then some true
  else if xb then some false else none

/-- A VC has a flit ready and a downstream credit. -/
def vcReady (s : State) (p v : Nat) : Bool := hasCredit (linkOf s p) v && (vcSource s p v).isSome

/-- A letter's flit has been taken by the replay buffer: its cell is freed once no copy needs it (R148). -/
def takenFlit (x : Staged) (s : State) : State :=
  match x.letter with
  | none => s
  | some id => match tfind s.sw.letters id with
    | none => s
    | some l => settle id { l with sends := l.sends.modify x.send fun y => { y with taken := y.taken + 1 } } s

/-- The next crossbar flit of a VC goes out. -/
def sendCrossbar (p v : Nat) (s : State) : State :=
  match (egressOf s p).staged.find? fun x => x.flit.vc = v with
  | none => s
  | some x =>
    let ends := endsOnOutput x.flit
    let (f, s) := spend p x.flit s
    let s := putFlit p f s
    let s := modEgress s p fun e => { e with
      staged := e.staged.erase x, xbOpen := tset false e.xbOpen v (!ends), ownTurn := if ends then tset false e.ownTurn v true else e.ownTurn,
      lastOn := tset 0 e.lastOn v (match x.letter with | some id => id + 1 | none => 0) }
    let s := if f.type = 4 then cnt1 (idPort 27 p) s else s
    let s := if ends then cnt1 (idPort 3 p) s else s
    takenFlit x s

/-- A slow-post notice has left: it no longer waits, and SLOW_SENT counts any slow-post letter (R197). -/
def noticeLeft (l : OwnLetter) (s : State) : State :=
  let s := if (ownHeader l).cls = 6 then cnt1 4 s else s
  match l.notice with
  | none => s
  | some k => { s with route := { s.route with notices := tdel s.route.notices k } }

/-- The next flit of an own letter of a VC goes out. -/
def sendOwnFlit (p v : Nat) (s : State) : State :=
  match ownNext s p v with
  | none => s
  | some l =>
    let i := l.sent
    let n := l.flits.length
    let ends := decide (i + 1 ≥ n)
    let (f, s) := spend p { type := flitType i n, vc := v, shared := false, payload := l.flits.getD i [] } s
    let s := putFlit p f s
    let s := if i = 0 then markLeft l (noticeLeft l (slowSpend l s)) else s
    let sh := shareOf s l.group
    let s := modEgress s p fun e => { e with
      own := if ends then e.own.erase l else e.own.replace l { l with sent := i + 1 },
      lastOn := tset 0 e.lastOn v 0, ownOpen := tset false e.ownOpen v (!ends), ownTurn := if ends then tset false e.ownTurn v false else e.ownTurn,
      share5 := if v = 5 && isAccess p && i = 0 then (if e.share5.1 = l.group && e.share5.2 > 0 then (l.group, e.share5.2 - 1) else (l.group, sh - 1)) else e.share5 }
    if ends then cnt1 (idPort 3 p) s else s

/-- The next flit of a VC goes out, and the VC is the last served (R155). -/
def sendVc (p v : Nat) (s : State) : State :=
  let s := modTx s p fun t => { t with lastVc := if v < 7 then v else t.lastVc, mgmtTurn := if v = 7 then true else t.mgmtTurn }
  if (vcSource s p v) = some true then sendOwnFlit p v s else sendCrossbar p v s

/-- A SURVEY or ADMIT flit goes out on VC7 (R155 item 4); a REKEY_ACK has then been sent (R114). -/
def sendMgmt (p : Nat) (f : Flit) (rest : List Flit) (s : State) : State :=
  let (f, s) := spend p f s
  let s := putFlit p f (modTx s p fun t => { t with mgmt := rest, mgmtTurn := false })
  if f.type = 11 && f.payload.head? = some 5 then modLink s p fun l => { l with keys := { l.keys with ackSent := true } } else s

/-- A CREDIT flit goes out: initial totals, or the credits pending (R101, R102). -/
def sendCredit (p : Nat) (s : State) : State :=
  let l := linkOf s p
  let init := l.tx.creditInitDue
  let hold := withholds s p
  let ded := (List.range 8).map fun v => if init then dedicatedOffer p v else tget 0 l.rx.pendDed v
  let shr := if init then l.grantRx else if hold then 0 else l.rx.pendShr
  let f : Flit := { type := 5, vc := 0, shared := false, payload := fit 236 (ded.flatMap (leBytes 2) ++ leBytes 2 shr ++ leBytes 1 (bit init)) }
  let s := modLink s p fun l => { l with
    tx := { l.tx with creditInitDue := false, creditDue := if init then l.tx.creditDue else false },
    rx := if init then l.rx else { l.rx with pendDed := [], pendShr := if hold then l.rx.pendShr else 0,
                                             pendSince := if hold && decide (l.rx.pendShr > 0) then l.rx.pendSince else none } }
  putFlit p f s

/-- Items 4 to 6 of R155: VC7 with SURVEY and ADMIT in turns, VC6 in a reserved slot, then round robin letter by letter; IDLE where
nothing is eligible. -/
def sendNew (p : Nat) (s : State) : State :=
  let l := linkOf s p
  let e := egressOf s p
  let idle := fun s => detailAdd p 67 1 (putFlit p { type := 0, vc := 0, shared := false, payload := [] } s)
  let open7 := tget false e.xbOpen 7 || tget false e.ownOpen 7
  let letters := l.disc = .admitted
  let low := letters && decide (s.pow.ladder = 0) && !l.parked
  match (if hasCredit l 7 && !open7 && (l.tx.mgmtTurn || !(letters && vcReady s p 7)) then l.tx.mgmt else []) with
  | f :: rest => sendMgmt p f rest s
  | [] =>
    if letters && vcReady s p 7 then sendVc p 7 s
    else if low && s.sw.routeNow.contains p && vcReady s p 6 then sendVc p 6 s
    else
      let last := l.tx.lastVc
      let busy := tget false e.xbOpen last || tget false e.ownOpen last
      let order := (if busy then [last] else []) ++ (List.range 7).map fun k => (last + 1 + k) % 7
      match (if low then order.find? fun v => vcReady s p v else none) with
      | some v => sendVc p v s
      | none => idle s

/-- The choice of R155 at a flit boundary. -/
def chooseFlit (p : Nat) (s : State) : State :=
  let l := linkOf s p
  let isIn := l.disc = .admitted
  if peerAsleep l then detailAdd p 67 1 (putFlit p { type := 0, vc := 0, shared := false, payload := [] } s)
  else match l.tx.control with
  | f :: rest => putFlit p f (modTx s p fun t => { t with control := rest })
  | [] =>
    if isIn && (chronOf s p).due then
      let f : Flit := { type := 9, vc := 0, shared := false, payload := chronBytes (chronNow s p) }
      putFlit p f (chronSent p s)
    else if isIn && l.tx.rollDue then
      putFlit p { type := 8, vc := 0, shared := false, payload := fit 236 (rollBytes (rollNow s l.tx.leaving)) } (modTx s p fun t => { t with rollDue := false, leaving := false })
    else match l.tx.resend with
      | h :: rest =>
        detailAdd p 65 1 (cnt1 (idPort 9 p) (modTx s p fun t => { t with
          resend := rest, fibre := h.coded, replay := t.replay.map fun x => if x.seq = h.seq then { x with sentNs := s.mer.ns } else x }))
      | [] =>
        if l.tx.replay.length ≥ replaySize p then detailAdd p 67 1 (putFlit p { type := 0, vc := 0, shared := false, payload := [] } s)
        else if l.tx.creditInitDue || (l.tx.creditDue && !l.creditStop) then sendCredit p s
        else sendNew p s

/-- What waits on VC5 of a port leaves, up to `n` flits, as credits allow: the notices of a ladder entry, before the lanes go (R388). -/
def flushVc5 (p : Nat) : Nat → State → State
  | 0, s => s
  | n + 1, s =>
    let l := linkOf s p
    if inService l && mayTransmit s && !l.parked && vcReady s p 5 then flushVc5 p n (driveLanes p (sendVc p 5 s)) else s

/-- The transmit direction switches keys once REKEY_ACK has been both sent and received, and KEY_PHASE toggles (R114). -/
def switchKeys (p : Nat) (s : State) : State :=
  let l := linkOf s p
  match l.keys.nextTx with
  | some (k, salt) =>
    if l.keys.ackSent && l.keys.ackGot then
      setLink s p { l with
        keyPhaseTx := !l.keyPhaseTx,
        keys := { l.keys with oldTx := some (l.keys.tx, l.keys.saltTx), tx := k, saltTx := salt, nextTx := none, ackSent := false, ackGot := false,
                              rekeySince := none, rekeyFails := 0, lastRekey := roundNo s, interval := s.bank.regs.rekeyLog2, switchNs := s.mer.ns,
                              chain := l.keys.nextChain },
        tx := { l.tx with flitsUnderKey := 0, unseqUnderKey := 0, replay := l.tx.replay.map fun h => { h with oldKey := true } } }
    else s
  | none => s

/-- FLIT_TRANSMIT (R155): one flit boundary of a port. -/
def flitTransmit (p : Nat) (s : State) : State :=
  if inService (linkOf s p) && mayTransmit s then captureTake (updateStops (driveLanes p (chooseFlit p (switchKeys p s)))) else s

def execFlitTransmit (p : Nat) (s : State) : Host.Outcome State Fault Refusal := .next (flitTransmit p s)

/-! ### Training (R104) -/

/-- A lane that its link can use: ring locked, LOS clear, not blank, no diagnostic claim and no generator (R63, R70, R72, R84). -/
def laneFit (x : Lane) : Bool := x.ringLock && !x.los && !x.blank && !x.genEn && (x.claim = .none || x.claim = .adapt)

/-- A lane is lit and free for its link, and not released (R63, R70, R72, R84, R108). -/
def laneReady (s : State) (p j : Nat) : Bool :=
  let x := laneOf s (laneOfPort p j)
  laneFit x && !(linkOf s p).released.getLsbD j

/-- The lanes of a port that are lit. -/
def litLanes (s : State) (p : Nat) : BitVec 4 := (List.range 4).foldl (fun m j => if laneReady s p j then m ||| laneBit j else m) 0

/-- A committed LANE_CFG (R84). -/
def laneCfg (s : State) (g : Nat) : LaneCfg := tget {} s.bank.lane g

/-- What a receiver requests on a lane (R66): by PRECODE_POL, AUTO at |d1| ≥ 0.25 of the main cursor. -/
def precodeWanted (s : State) (g : Nat) : Bool :=
  match (laneCfg s g).precodePol with
  | 0 => decide ((tget 0 (laneOf s g).dfe 1).natAbs ≥ 32)
  | 2 => true
  | _ => false

/-- PHASE of the control word (R103). -/
def phaseCode : Phase4 → Nat
  | .ts2 => 1
  | .ts3 => 2
  | .reshape => 3
  | _ => 0

/-- A lane that comes back to its link: released or lost, and sent back (R108). -/
def homing (l : Link) (j : Nat) : Bool := l.returning.any fun y => y.1 = j

/-- The lane is of the set that a RESHAPE or its TS3 forms, or that TS3 of a training takes (R104, R106). -/
def inSet (l : Link) (j : Nat) : Bool := (l.phase = .reshape || l.phase = .ts3) && l.lanesOk.getLsbD j

/-- The lanes that send frames (R71, R103, R106, R108): those of a link in training, of the set that a RESHAPE keeps, and a lane on its way back,
which trains alone; where the modulators are driven, and on lanes that are lit. -/
def frameLanes (s : State) (p : Nat) : List Nat :=
  let l := linkOf s p
  (List.range 4).filter fun j =>
    let x := laneOf s (laneOfPort p j)
    mayTransmit s && x.ringLock && !x.blank && !x.genEn && (x.claim = .none || x.claim = .adapt) &&
      (inSet l j || homing l j || ((l.phase = .ts1 || l.phase = .ts2) && !l.released.getLsbD j))

/-- LANES_OK as the words show it: in TS1 the lanes adapted so far, in flit service those in use (R103). -/
def wordLanes (l : Link) : BitVec 4 :=
  match l.phase with
  | .none => l.width ||| l.rxReady
  | .ts1 => l.rxReady
  | _ => l.lanesOk

/-- The lanes of a port send a training frame each (R103, R106, R108): the control word, and its frame as the lane's symbols. A lane that trains
alone shows TS1. RX_READY is set once the lane's receiver has adapted. While a lane is released, the words show RELEASE
(notes/assumptions/120.md). -/
def sendFrames (p : Nat) (s : State) : State :=
  let l := linkOf s p
  (frameLanes s p).foldl (fun s j =>
    let g := laneOfPort p j
    let x := laneOf s g
    let phase := if homing l j && !inSet l j then 0 else phaseCode l.phase
    let w := ctrlWord j phase (precodeWanted s g) (l.rxReady.getLsbD j || inSet l j || (l.phase = .ts2 && l.lanesOk.getLsbD j)) (wordLanes l).toNat l.fast
      (decide (l.released ≠ 0))
    let (r, sym) := trainFrame w (if x.lfsr = 0 then prbsStart 3 0 else x.lfsr)
    let s := setLane s g { x with lfsr := r }
    modTx s p fun t => { t with ctrl := (t.ctrl.filter fun z => z.1 ≠ g) ++ [(g, w)], line := (t.line.filter fun z => z.1 ≠ g) ++ [(g, sym)] }) s

/-- The frames of `cycles` core cycles, 144 symbols each and 4,096 to a frame, one after the other while a port is in training (R103). -/
def framesRun (cycles p : Nat) (s : State) : State :=
  if cycles = 0 || (frameLanes s p).isEmpty then s
  else
    let n := (linkOf s p).frameSyms + 144 * cycles
    forIdx (n / 4096) (fun s _ => sendFrames p s) (modLink s p fun l => { l with frameSyms := n % 4096 })

/-- TRAINING_START (R104): DARK ends with at least one lane lit, in a state in which the module transmits. The lanes of the link that no
diagnostic holds are ADAPT's from now on (R72). On exit from ST3 the training is fast and begins with TS2. -/
def trainingStart (p : Nat) (s : State) : State :=
  let l := linkOf s p
  let lit := litLanes s p
  if l.disc = .dark && mayTransmit s && lit ≠ 0 && roundNo s ≥ l.retryRound then
    let s := modLink s p fun l => { l with
      disc := .training, phase := if l.fast then .ts2 else .ts1, phaseNs := s.mer.ns, lost := 0, lanesOk := if l.fast then lit else 0, rxReady := 0,
      frameSyms := 0 }
    let free := (List.range 4).filter fun j =>
      let x := laneOf s (laneOfPort p j)
      !l.released.getLsbD j && !x.genEn && (x.claim = .none || x.claim = .adapt)
    sendFrames p (modPortLanes p free (fun x => { x with claim := .adapt, adaptOn := true }) s)
  else s

def execTrainingStart (p : Nat) (s : State) : Host.Outcome State Fault Refusal := .next (trainingStart p s)

/-- TX_PWR of a lane that is lit (R84): what is measured is free. -/
def litPower (g : Nat) (x : Lane) : Int := ofSigned 16 (Config.trainedTap g x.trainings 37).natAbs

/-- A lane trained: its CTLE code, fixed where CTLE_MODE says so, and new coefficients within their limits, c7 at 1.0 (R67, R68). -/
def trainLane (ctle : Nat) (g : Nat) (s : State) : State :=
  let cfg := laneCfg s g
  modLane s g fun x =>
    let n := x.trainings + 1
    { x with
      trainings := n, saved := false, ctle := if cfg.ctleMode then cfg.ctleCode else min ctle 24, cdrLock := true,
      snr := (Config.trainedTap g n 36).natAbs % 256, txPwr := litPower g { x with trainings := n },
      decided := [], accFfe := [], accDfe := [],
      ffe := (List.range 32).foldl (fun t k => tset 0 t k (if k = 7 then 256 else max (-512) (min 511 (Config.trainedTap g n k)))) [],
      dfe := (List.range 4).foldl (fun t i => tset 0 t (i + 1) (max (-64) (min 63 (Config.trainedTap g n (32 + i))))) [] }

/-- A training that fails returns the link to DARK, to try again after 1 Round (R104). -/
def failTraining (p : Nat) (s : State) : State :=
  let s := modLink s p fun l => { l with fast := false, disc := .dark, phase := .none, retryRound := roundNo s + 1, lanesOk := 0, rxReady := 0 }
  modPortLanes p [0, 1, 2, 3] (fun x => if x.claim = .adapt then { x with claim := .none, adaptOn := false } else x) s

/-- TS1_END (R104): `ready` are the lanes on which RX_READY has been sent and seen. A lane that has become ready has adapted, and its words show it;
TS1 ends once all lit lanes are ready or 600 µs have passed, with d measured (R98), or fails where then no lane is ready. -/
def ts1End (p : Nat) (ready : BitVec 4) (ctle delay256 : Nat) (s : State) : State :=
  let l := linkOf s p
  let lit := litLanes s p
  let rdy := ready &&& lit
  let late := decide (s.mer.ns ≥ l.phaseNs + 600000)
  if l.phase ≠ .ts1 then s
  else
    let s := (lanesIn (rdy &&& ~~~l.rxReady)).foldl (fun s j => trainLane ctle (laneOfPort p j) s) s
    let s := sendFrames p (modPortLanes p (lanesIn rdy) (fun x => { x with claim := .adapt, adaptOn := true }) (modLink s p fun l => { l with rxReady := rdy }))
    if rdy ≠ 0 && (rdy = lit || late) then
      sendFrames p (modLink s p fun l => { l with
        phase := .ts2, phaseNs := s.mer.ns, lanesOk := rdy, delayKnown := true, rtt := min (2 ^ 24 - 1) (2 * delay256 + 160 * 256) })
    else if late then failTraining p s else s

def execTs1End (p : Nat) (ready : BitVec 4) (ctle delay256 : Nat) (s : State) : Host.Outcome State Fault Refusal := .next (ts1End p ready ctle delay256 s)

/-- TS2_END (R104, R66): the active set is the lanes set in LANES_OK from both ends; each direction's precoding is as its receiver asked. -/
def ts2End (p : Nat) (peer req : BitVec 4) (s : State) : State :=
  let l := linkOf s p
  let act := l.lanesOk &&& peer
  if l.phase = .ts2 && act ≠ 0 then
    let s := modLink s p fun l => { l with phase := .ts3, phaseNs := s.mer.ns, lanesOk := act }
    (lanesIn act).foldl (fun s j =>
      let g := laneOfPort p j
      let w := precodeWanted s g
      modLane s g fun x => { x with precodeTx := req.getLsbD j, precodeRx := w, yTx := 0, yRx := 0 }) (sendFrames p s)
  else s

def execTs2End (p : Nat) (peerLanesOk precodeReq : BitVec 4) (s : State) : Host.Outcome State Fault Refusal := .next (ts2End p peerLanesOk precodeReq s)

/-- LINK_UP (R104): flits from RSEQ 0, CREDIT INIT, the first survey card; the shared grant is reserved (R101, R147). -/
def linkUp (p : Nat) (s : State) : State :=
  let l := linkOf s p
  if l.disc = .training && l.phase = .ts3 then
    let g := sharedGrant s p
    -- lanes that did not make it into the link are free again
    let s := modPortLanes p (lanesIn (15#4 &&& ~~~l.lanesOk)) (fun x => if x.claim = .adapt then { x with claim := .none, adaptOn := false } else x) s
    modLink s p fun l => { l with
      fast := false, lastPhase := false, disc := .up, phase := .none, width := l.lanesOk, lost := 15#4 &&& ~~~l.lanesOk &&& ~~~l.released, noCard := false, upRound := roundNo s, card := none,
      rxReady := 0, cardDue := true, keys := {}, adm := {}, keyPhaseTx := false, keyPhaseRx := false, grantRx := g, grantTx := 0,
      tx := { creditInitDue := true }, rx := {} }
  else s

def execLinkUp (p : Nat) (s : State) : Host.Outcome State Fault Refusal := .next (linkUp p s)

/-- TRAINING_RETRY (R104): a phase that has passed its bound returns the link to DARK, to try again after 1 Round. -/
def trainingRetry (p : Nat) (s : State) : State :=
  let l := linkOf s p
  let bound := match l.phase with | .ts1 => 600000 | .ts2 => if l.fast then 40000 else 100000 | _ => 20000
  if l.disc = .training && s.mer.ns ≥ l.phaseNs + bound then failTraining p s else s

def execTrainingRetry (p : Nat) (s : State) : Host.Outcome State Fault Refusal := .next (trainingRetry p s)

/-- The Round since which the signal of a link has been back after a gap on one of its lanes (R103); none while a gap lasts. -/
def signalSince (s : State) (p : Nat) : Option Nat :=
  (lanesIn (linkOf s p).width).foldl (fun m j =>
    let x := laneOf s (laneOfPort p j)
    match m with
    | none => none
    | some r => if x.fzGap then x.gapBack.map (max r) else some r) (some 0)

/-- LINK_DOWN (R103): every flit has stayed uncorrectable for 2 Rounds after the signal has returned, or no active lane carries light. -/
def execLinkDown (p : Nat) (s : State) : Host.Outcome State Fault Refusal :=
  let l := linkOf s p
  let bad := match l.rx.badSince, signalSince s p with | some r, some g => decide (roundNo s ≥ max r g + 2) | _, _ => false
  let dark := (lanesIn l.width).all fun j => (laneOf s (laneOfPort p j)).los
  if l.disc ≠ .dark && l.disc ≠ .training && (bad || dark) then .next (linkToDark p s) else .next s

/-! ### Narrowing and widening (R105–R108) -/

/-- The lanes that a link runs on or, in a RESHAPE, is to run on (R106). -/
def formSet (l : Link) : BitVec 4 := if l.phase = .none then l.width else l.lanesOk

/-- A RESHAPE begins on the lanes kept (R106). -/
def reshape (p : Nat) (keep : BitVec 4) (s : State) : State :=
  if keep = 0 then linkToDark p s
  else cnt1 (idPort 31 p) (sendFrames p (modLink s p fun l => { l with phase := .reshape, lanesOk := keep }))

/-- A lane of a link is lost (R105): LOS, clock recovery out of lock, or more than 1 FEC correction per 1,000 of its bytes over each of two
Rounds. The peer's own loss comes as a marker. A peer in ST2 or lower takes a lane by LOS alone (R306). -/
def laneLost (s : State) (g : Nat) : Bool :=
  let x := laneOf s g
  x.los || (!peerAsleep (linkOf s (portOfLane g)) && (!x.cdrLock || decide (x.fecBad ≥ 2)))

/-- Lanes of a link that are not lost yet are lost (R105): each is counted, and the port is in its recovery phase (R421). -/
def dropLanes (p : Nat) (m : BitVec 4) (s : State) : State :=
  let l := linkOf s p
  let new := m &&& ~~~l.lost
  if new = 0 then s
  else cntAdd (idPort 30 p) (lanesIn new).length (modLink s p fun l => { l with lost := l.lost ||| new, troubleRound := some (roundNo s) })

/-- LANE_LOSS (R105, R106): a lane of a link in service is lost; flits stop and RESHAPE begins on the rest. With `cdr` clock recovery has lost lock
on the lane. -/
def laneLoss (g : Nat) (cdr : Bool) (s : State) : State :=
  let p := portOfLane g
  let j := g % 4
  let s := if cdr then modLane s g fun x => { x with cdrLock := false } else s
  let l := linkOf s p
  if l.disc = .dark || l.disc = .training || !(formSet l).getLsbD j || l.lost.getLsbD j || !laneLost s g then s
  else reshape p (formSet l &&& ~~~laneBit j) (dropLanes p (laneBit j) s)

def execLaneLoss (lane : Nat) (s : State) (cdr : Bool := false) : Host.Outcome State Fault Refusal := .next (laneLoss lane cdr s)

/-- The marker is accepted (R103): found on every active lane on the same symbol, each with a control word that passes its CHECK. -/
def markerOk (l : Link) (words : List Nat) : Bool := words.length = (lanesIn l.width).length && words.all ctrlOk

/-- LANES_OK of the words after a marker, as all of them show it. -/
def markerLanes (words : List Nat) : BitVec 4 := words.foldl (fun m w => m &&& ctrlLanes w) 15

/-- A lane that has trained by itself: its coefficients, and adaptation holds its ADC (R72, R108). -/
def trainAlone (g : Nat) (s : State) : State :=
  modLane (trainLane (Config.trainedTap g ((laneOf s g).trainings + 1) 38).natAbs g s) g fun x => { x with claim := .adapt, adaptOn := true }

/-- The lanes of a port outside its set that a widening may take in: on their way back or lost, and fit (R108). -/
def joinable (s : State) (p : Nat) : BitVec 4 :=
  let l := linkOf s p
  (List.range 4).foldl (fun m j =>
    if (homing l j || l.lost.getLsbD j) && laneFit (laneOf s (laneOfPort p j)) then m ||| laneBit j else m) 0

/-- Both ends run TS3 on the common set, with no adaptation (R106); an empty set takes the link down. -/
def startTs3 (p : Nat) (act : BitVec 4) (s : State) : State :=
  if act = 0 then linkToDark p s else sendFrames p (modLink s p fun l => { l with phase := .ts3, lanesOk := act })

/-- RESHAPE_MARKER (R103, R106, R108): a marker accepted in flit service stops flits and is answered with RESHAPE: on the lanes in use that the peer
keeps, and, where it widens, on those it adds that are fit here. In RESHAPE, the peer's own words give the common set, on which TS3 runs. `words`
are the control words found after the marker, one by active lane. -/
def reshapeMarker (p : Nat) (words : List Nat) (s : State) : State :=
  let l := linkOf s p
  if !markerOk l words then s
  else if inService l then
    let add := markerLanes words &&& ~~~l.width &&& joinable s p
    let s := (lanesIn add).foldl (fun s j => trainAlone (laneOfPort p j) s) s
    reshape p ((l.width ||| add) &&& markerLanes words) (dropLanes p (l.width &&& ~~~markerLanes words &&& ~~~l.released) s)
  else if l.phase = .reshape then startTs3 p (l.lanesOk &&& markerLanes words) s
  else s

def execReshapeMarker (p : Nat) (words : List Nat) (s : State) : Host.Outcome State Fault Refusal := .next (reshapeMarker p words s)

/-- Lane-return commands of a lane complete with a status. -/
def finishReturns (p j : Nat) (st : Status) (s : State) : State :=
  let (mine, rest) := (linkOf s p).returning.partition fun x => x.1 = j
  mine.foldl (fun s x => match x.2.2 with
    | some c => complete c 0x803 { status := st, post := s }
    | none => s) (modLink s p fun l => { l with returning := rest })

/-- Flits resume on a set of lanes, with an ACK that tells the sender where to restart (R106, R107). A lane that the peer has dropped is lost. A lane
that joins carries flits from now on, precoded as its receiver asked (`req`, R66), from y = 0 as after a link training (R65; DEDUCED:
notes/assumptions/135.md), and its lane-return command completes (R108). -/
def resumeFlits (p : Nat) (act req : BitVec 4) (s : State) : State :=
  let l := linkOf s p
  let new := act &&& ~~~l.width
  let gone := l.width &&& ~~~act
  let s := dropLanes p (gone &&& ~~~l.released) s
  let s := modLink s p fun l => { l with
    phase := .none, width := act, lost := l.lost &&& ~~~act, released := l.released &&& ~~~new, rxReady := l.rxReady &&& ~~~act, cardDue := true }
  let s := modPortLanes p (lanesIn gone) (fun x => if x.claim = .adapt then { x with claim := .none, adaptOn := false } else x) s
  let s := (lanesIn new).foldl (fun s j =>
    let g := laneOfPort p j
    let w := precodeWanted s g
    modLane s g fun x => { x with claim := .adapt, adaptOn := true, precodeTx := req.getLsbD j, precodeRx := w, yTx := 0, yRx := 0 }) s
  let f : Flit := { type := 6, vc := 0, shared := false, payload := fit 236 (leBytes 2 ((l.rx.eseq + 4095) % 4096)) }
  let s := modRx (modTx s p fun t => { t with control := t.control ++ [f] }) p fun r => { r with ackCount := 0, ackFirst := none }
  (lanesIn new).foldl (fun s j => finishReturns p j .ok s) s

/-- LINK_NARROWED (R106 to R108): TS3 on the common set completes and flits resume; an empty set takes the link down. `req` are the peer's requests for
precoding on lanes that join. -/
def linkNarrowed (p : Nat) (peer req : BitVec 4) (s : State) : State :=
  let l := linkOf s p
  if l.disc = .training || !(l.phase = .reshape || l.phase = .ts3) then s
  else
    let act := l.lanesOk &&& peer
    if act = 0 then linkToDark p s
    else resumeFlits p act req (if l.phase = .reshape then startTs3 p act s else s)

def execLinkNarrowed (p : Nat) (peerLanesOk : BitVec 4) (s : State) (req : BitVec 4 := 0) : Host.Outcome State Fault Refusal :=
  .next (linkNarrowed p peerLanesOk req s)

/-- A lane leaves its link for diagnostics (R108): only while the link is x4. -/
def releaseLane (p j : Nat) (s : State) : Option State :=
  let l := linkOf s p
  if inService l && l.width = 15 then
    let s := modLane s (laneOfPort p j) fun x => { x with claim := .none, adaptOn := false }
    some (reshape p (l.width &&& ~~~laneBit j) (modLink s p fun l => { l with released := l.released ||| laneBit j }))
  else none

/-- LANE_RELEASE (R108). -/
def laneReleaseAns (p j : Nat) (s : State) : Ans :=
  if p > 255 then badArg 0 s
  else if j > 3 then badArg 2 s
  else match releaseLane p j s with
    | some s' => okAns s'
    | none => busy 1 (laneOfPort p j) s

def execLaneRelease (c : Ctx) (p j : Nat) (s : State) : Host.Outcome State Fault Refusal := .next (gmiRun c 0x802 (laneReleaseAns p j) s)

/-- A lane on its way back trains alone in TS1: adaptation takes its ADC where nothing else holds it, and it sends frames (R72, R108). -/
def trainBack (p j : Nat) (s : State) : State :=
  sendFrames p (modLane s (laneOfPort p j) fun x => if x.claim = .none && !x.genEn then { x with claim := .adapt, adaptOn := true } else x)

/-- LANE_RETURN (R108): a released lane is sent back; the command completes once it has rejoined, or with NOT_READY after 2 ms. -/
def laneReturnAns (c : Ctx) (p j : Nat) (s : State) : Ans :=
  if p > 255 then badArg 0 s
  else if j > 3 || !(linkOf s p).released.getLsbD j then badArg 2 s
  else { later := true, post := trainBack p j (modLink s p fun l => { l with returning := l.returning ++ [(j, s.mer.ns, some c)] }) }

def execLaneReturn (c : Ctx) (p j : Nat) (s : State) : Host.Outcome State Fault Refusal := .next (gmiRun c 0x803 (laneReturnAns c p j) s)

/-- The end of a diagnostic claim sends a released lane back (R108); a lane of a link that is in TS1 is adaptation's again (R72). -/
def returnLane (g : Nat) (s : State) : State :=
  let p := portOfLane g
  let l := linkOf s p
  if l.released.getLsbD (g % 4) then trainBack p (g % 4) (modLink s p fun l => { l with returning := l.returning ++ [(g % 4, s.mer.ns, none)] })
  else if l.disc = .training && l.phase = .ts1 then trainBack p (g % 4) s
  else s

/-- The link widens by a lane that has trained alone in TS1 (R108): its words have shown RX_READY, flits stop for a RESHAPE pause with the lane in
LANES_OK, and the lane is in the link once LINK_NARROWED ends the pause. -/
def widen (p j : Nat) (s : State) : State :=
  let s := trainAlone (laneOfPort p j) s
  let s := sendFrames p (modLink s p fun l => { l with rxReady := l.rxReady ||| laneBit j })
  reshape p ((linkOf s p).width ||| laneBit j) s

/-- LANE_REJOIN (R108): a returning lane has trained, and the link widens. -/
def execLaneRejoin (p j : Nat) (s : State) : Host.Outcome State Fault Refusal :=
  let l := linkOf s p
  let x := laneOf s (laneOfPort p j)
  if inService l && homing l j && laneFit x then .next (widen p j s) else .next s

/-- LANE_RETURN_TIMEOUT (R108): not rejoined within 2 ms, the command returns NOT_READY and the lane is lost rather than released. -/
def execLaneReturnTimeout (p j : Nat) (s : State) : Host.Outcome State Fault Refusal :=
  let l := linkOf s p
  if l.returning.any fun y => y.1 = j && decide (s.mer.ns ≥ y.2.1 + 2000000) then
    let s := modLane s (laneOfPort p j) fun x => if x.claim = .adapt then { x with claim := .none, adaptOn := false } else x
    .next (finishReturns p j .notReady (modLink s p fun l => { l with
      released := l.released &&& ~~~laneBit j, lost := l.lost ||| laneBit j, rxReady := l.rxReady &&& ~~~laneBit j }))
  else .next s

/-- LANE_REJOIN_AUTO (R108): a lost lane whose LOS has stayed clear for 64 Rounds rejoins. -/
def execLaneRejoinAuto (p j : Nat) (s : State) : Host.Outcome State Fault Refusal :=
  let l := linkOf s p
  let clear := match (laneOf s (laneOfPort p j)).losClearRound with | some r => decide (roundNo s ≥ r + 64) | none => false
  if inService l && l.lost.getLsbD j && clear && laneReady s p j then .next (widen p j (modLink s p fun l => { l with returning := l.returning ++ [(j, s.mer.ns, none)] })) else .next s

end Sys2Proof.Machine
end

