-- ==== Sys2Proof/Machine/Admission.lean ====
section
/-! DEFINITION. Survey, link admission and rekeying (R109–R116), with the Seal's admission policy (R346, R365). -/

namespace Sys2Proof.Machine

/-! ### Survey cards -/

/-- PORT_KIND of an own port (R109): 0 A, 1–6 E W N S U D, 7 P, 8 M. -/
def portKind (p : Nat) : Nat := dirOfPort p

/-- LINK_INDEX of an own port (R109). -/
def linkIndex (p : Nat) : Nat := if isAccess p then p else (p - 128) % 16

/-- The module's own card on a port (R109). -/
def ownCard (s : State) (p : Nat) : SurveyCard :=
  let l := linkOf s p
  { cardVer := 1, kind := 0, vendor := 0x4C4B, part := 0x1024, position := modIndex s, portKind := portKind p, linkIndex := linkIndex p,
    width := l.width.toNat, xyzValid := s.ident.learned, admitReq := l.admitReq && !s.ident.skeleton, skeleton := s.ident.skeleton,
    gridRef := srcRef s, merState := s.mer.state.ctorIdx, cardSeq := l.ownCardSeq, idDigest := fit 32 Config.idDigest, replayFlits := replaySize p }

/-- The card's 50 bytes (R109). -/
def cardBytes (c : SurveyCard) : List Byte :=
  leBytes 1 c.cardVer ++ leBytes 1 c.kind ++ leBytes 2 c.vendor ++ leBytes 2 c.part ++ leBytes 1 c.position ++ leBytes 1 (c.portKind % 16) ++
  leBytes 1 c.linkIndex ++ leBytes 1 (c.width % 16 + 16 * bit c.xyzValid + 32 * bit c.admitReq + 64 * bit c.skeleton) ++ leBytes 3 c.gridRef ++
  leBytes 1 c.merState ++ leBytes 2 c.cardSeq ++ fit 32 c.idDigest ++ leBytes 2 c.replayFlits

/-- A management flit waits for its VC7 turn (R155). -/
def queueMgmt (p : Nat) (fs : List Flit) (s : State) : State := modTx s p fun t => { t with mgmt := t.mgmt ++ fs }

/-- SURVEY_SEND (R109): at UP, on any changed field, and again every 1,024 Rounds; every 64 while NO_CARD (R111). -/
def surveySend (p : Nat) (s : State) : State :=
  let l := linkOf s p
  let now := cardBytes { ownCard s p with cardSeq := 0 }
  let changed := decide (l.cardSent ≠ now)
  let due := l.cardDue || changed || decide (roundNo s ≥ l.cardRound + 1024) || (l.noCard && decide (roundNo s ≥ l.cardRound + 64))
  if l.disc = .dark || l.disc = .training || !due then s
  else
    let seq := if changed && !l.cardSent.isEmpty then (l.ownCardSeq + 1) % 65536 else l.ownCardSeq
    let s := modLink s p fun l => { l with cardDue := false, cardRound := roundNo s, cardSent := now, ownCardSeq := seq }
    queueMgmt p [{ type := 10, vc := 7, shared := false, payload := fit 236 (cardBytes { ownCard s p with cardSeq := seq }) }] s

def execSurveySend (p : Nat) (s : State) : Host.Outcome State Fault Refusal := .next (surveySend p s)

/-- The wiring checks of R110. -/
def wiringOk (s : State) (p : Nat) (c : SurveyCard) : Bool :=
  if isAccess p then c.kind = 1 && c.portKind = 9 && c.position = p && c.linkIndex = modIndex s
  else if isTrunk p then c.kind = 0 && c.portKind = oppositeDir (dirOfPort p) && c.linkIndex = linkIndex p && c.position = modIndex s
  else if isPeer p then c.kind = 0 && c.portKind = 7 && c.linkIndex = linkIndex p && c.position = modIndex s ^^^ 1
  else true

/-! ### Admission messages -/

/-- A message in 232-byte fragments, each with its 4-byte fragment header (R112). -/
def admitFlits (msg : Nat) (bytes : List Byte) : List Flit :=
  let n := max 1 ((bytes.length + 231) / 232)
  (List.range n).map fun i =>
    { type := 11, vc := 7, shared := false, payload := fit 236 ([BitVec.ofNat 8 msg, BitVec.ofNat 8 i, BitVec.ofNat 8 n, 0] ++ (bytes.drop (232 * i)).take 232) }

/-- The bytes of a digest, first byte first. -/
def digestBytes (d : BitVec 512) : List Byte := (List.range 64).map fun i => BitVec.ofNat 8 (d.toNat / 2 ^ (8 * (63 - i)))

/-- SHA-512 as bytes. -/
def sha (l : List Byte) : List Byte := digestBytes (Config.sha512 l)

/-- A key digest (R344). -/
def keyDigest (exp : Nat) (modulus : List Byte) : List Byte := (sha ((leBytes 4 exp).reverse ++ fit 512 modulus)).take 32

/-- A certificate's bytes (R346): KIND, flags, VENDOR, PART, SERIAL, subject and issuer digests, public exponent, modulus and signature. -/
def certBytes (kind flags vendor part serial : Nat) (subject issuer : List Byte) (exp : Nat) (modulus sig : List Byte) : List Byte :=
  leBytes 1 1 ++ leBytes 1 kind ++ leBytes 1 flags ++ zeros 1 ++ leBytes 2 vendor ++ leBytes 2 part ++ leBytes 8 serial ++ fit 32 subject ++ fit 32 issuer ++
  (leBytes 4 exp).reverse ++ zeros 4 ++ fit 512 modulus ++ fit 512 sig

/-- The module's own chain (R347): its identity certificate, KIND 3 with ADMIT, then its manufacturing CA's, KIND 1 with SIGN_CERTS. -/
def ownChain : List Byte :=
  certBytes 3 4 0x4C4B 0x1024 Config.serial.toNat Config.idDigest (keyDigest Config.caExp Config.caModulus) 65537 Config.idModulus Config.idSignature ++
  certBytes 1 1 Config.caVendor.toNat Config.caPart.toNat Config.caSerial.toNat (keyDigest Config.caExp Config.caModulus)
    (keyDigest Config.rootExp Config.rootModulus) Config.caExp Config.caModulus Config.caSignature

/-- This end is L: its ID_DIGEST is the lower (R112). -/
def isLow (peer : List Byte) : Bool := decide (beNat (fit 32 Config.idDigest) < beNat (fit 32 peer))

/-- Own and peer byte strings in the order L, H. -/
def lowHigh (low : Bool) (own peer : List Byte) : List Byte := if low then own ++ peer else peer ++ own

/-- Admission fails (R111, R112, R365): REFUSED, its secrets erased, ADMIT_FAIL with the step, the peer's ID_DIGEST and the failed check. -/
def refuseAdmission (p step check : Nat) (st : Status) (s : State) : State :=
  let d := ((linkOf s p).card.map (·.idDigest)).getD []
  let s := modLink s p fun l => { l with disc := .refused, refusedNs := s.mer.ns, adm := {}, keys := {} }
  reportSt 0x0203 p st (leBytes 1 step ++ fit 32 d ++ leBytes 1 check) s

/-- ABORT is sent (R110, R112). -/
def sendAbort (p : Nat) (s : State) : State := queueMgmt p (admitFlits 6 []) s

/-- Admission begins (R111, R112): both cards show ADMIT_REQ, the Seal runs fewer than 16, not in skeleton service (R365): HELLO leaves. -/
def startAdmission (p : Nat) (s : State) : State :=
  let l := linkOf s p
  let running := (s.links.filter fun x => x.2.disc = .admitting).length
  let both := l.admitReq && (match l.card with | some c => c.admitReq | none => false)
  if (l.disc = .surveyed || l.disc = .refused) && both && running < 16 && !s.ident.skeleton then
    let (r, s) := drawRandom s
    let hello := fit 2224 ownChain ++ r
    let s := modLink s p fun l => { l with disc := .admitting, adm := { step := 1, stepNs := s.mer.ns, rOwn := r, helloOwn := hello } }
    queueMgmt p (admitFlits 1 hello) s
  else s

/-- SURVEY_RECEIVE (R110, R111): the wiring checks; a failing card raises MISWIRE and takes the link to MISWIRED. -/
def surveyReceive (p : Nat) (c : SurveyCard) (s : State) : State :=
  let l := linkOf s p
  if l.disc = .dark || l.disc = .training then s
  else if wiringOk s p c then
    let fresh := match l.card with | some o => decide (o ≠ c) | none => true
    let s := modLink s p fun l => { l with card := some c, noCard := false, disc := if l.disc = .up || l.disc = .miswired then .surveyed else l.disc }
    if (linkOf s p).disc = .surveyed || (l.disc = .refused && fresh) then startAdmission p s else s
  else
    let s := alert 0x0104 p ((cardBytes c).take 16) s
    let s := match l.disc with
      | .admitting => sendAbort p (modLink s p fun l => { l with adm := {}, keys := {} })
      | .admitted => withdraw p s
      | _ => s
    modLink s p fun l => { l with disc := .miswired, card := some c, noCard := false }

def execSurveyReceive (p : Nat) (card : SurveyCard) (s : State) : Host.Outcome State Fault Refusal := .next (surveyReceive p card s)

/-- SURVEY_NO_CARD (R111): no card in 64 Rounds of UP. -/
def surveyNoCard (p : Nat) (s : State) : State :=
  let l := linkOf s p
  if l.disc = .up && l.card.isNone && roundNo s ≥ l.upRound + 64 then
    modLink s p fun l => { l with noCard := true, cardDue := l.cardDue || !l.noCard }
  else s

def execSurveyNoCard (p : Nat) (s : State) : Host.Outcome State Fault Refusal := .next (surveyNoCard p s)

/-! ### The admission policy (R365) -/

/-- A certificate's fields as its 1,112 bytes spell them (R346). -/
def certOf (l : List Byte) : Cert :=
  let b2 := fieldAt l 2 1
  { certVer := fieldAt l 0 1, kind := fieldAt l 1 1, signCerts := bitOf b2 0, signFw := bitOf b2 1, admitOk := bitOf b2 2,
    reservedZero := decide (b2 / 8 = 0) && decide (fieldAt l 3 1 = 0) && decide (fieldAt l 84 4 = 0),
    vendor := fieldAt l 4 2, part := fieldAt l 6 2, serial := fieldAt l 8 8, subjectDigest := sliceAt l 16 32, issuerDigest := sliceAt l 48 32,
    pubExp := beNat (sliceAt l 80 4), modulus := sliceAt l 88 512, signature := sliceAt l 600 512, bytes := fit 1112 l }

/-- A certificate's form (R346): its fields are those that its signed bytes spell, and SUBJECT_DIGEST is the digest of its key (R344). -/
def certFormed (c : Cert) : Bool :=
  c.bytes.length = 1112 && certOf c.bytes = c && c.certVer = 1 && decide (c.kind ≤ 5) && c.reservedZero && c.subjectDigest = keyDigest c.pubExp c.modulus

/-- An issuer's key verifies a certificate's signature over bytes 0–599 (R346). -/
def signedBy (exp : Nat) (modulus : List Byte) (c : Cert) : Bool := Config.rsaVerify exp modulus (c.bytes.take 600) c.signature

/-- Each certificate but the last names and is signed by the next (R365 check 4). -/
def chainLinked : List Cert → Bool
  | a :: b :: r => a.issuerDigest = b.subjectDigest && b.signCerts && signedBy b.pubExp b.modulus a && chainLinked (b :: r)
  | _ => true

/-- The keys that may end a chain (R365 check 5): the Lerlek root for KIND 3, the enrolled anchors of the kind for KIND 4 and 5. -/
def rootKeys (s : State) (kind : Nat) : List (Nat × List Byte) :=
  if kind = 3 then [(Config.rootExp, Config.rootModulus)]
  else if s.trust.authority.isNone then []
  else (s.trust.anchors.filter (·.kind = kind - 3)).map fun a => (a.pubExp, a.modulus)

/-- The last issuer is one of those keys (R365 check 5). -/
def chainRooted (s : State) (kind : Nat) (last : Cert) : Bool := (rootKeys s kind).any fun k => last.issuerDigest = keyDigest k.1 k.2

/-- The signature of a chain's last certificate (R365 check 4), under the key that its ISSUER_DIGEST names; an issuer that no key of check 5 is fails
there. -/
def lastSigned (s : State) (kind : Nat) (last : Cert) : Bool :=
  (rootKeys s kind).all fun k => last.issuerDigest ≠ keyDigest k.1 k.2 || signedBy k.1 k.2 last

/-- The first check of R365 that a chain fails. -/
def chainFails (s : State) (p : Nat) (card : SurveyCard) (chain : List Cert) : Option Nat :=
  match chain.head?, chain.getLast? with
  | some leaf, some last =>
    if chain.length > 7 || sumNat (chain.map (·.bytes.length)) > 8192 || !chain.all certFormed then some 1
    else if leaf.subjectDigest ≠ card.idDigest then some 2
    else if leaf.kind ≠ card.kind + 3 || !leaf.admitOk then some 3
    else if !chainLinked chain || !lastSigned s leaf.kind last then some 4
    else if !chainRooted s leaf.kind last then some 5
    else if leaf.kind = 3 && !(leaf.vendor = 0x4C4B && leaf.part = 0x1024 && card.vendor = 0x4C4B && card.part = 0x1024) then some 6
    else if !(if leaf.kind = 3 then isTrunk p || isPeer p else if leaf.kind = 4 then isAccess p else isMaint p) then some 7
    else if chain.any fun c => s.trust.revoked.contains c.subjectDigest || s.trust.revoked.contains c.issuerDigest then some 8
    else none
  | _, _ => some 1

/-- A listed digest is in the peer's chain (R363). -/
def peerRevoked (s : State) (l : Link) : Bool := l.adm.peerDigests.any s.trust.revoked.contains

/-- A HELLO's bytes are the chain's certificates, one after the other, and r, in at most 64 fragments of 232 bytes (R112). -/
def helloOk (chain : List Cert) (r bytes : List Byte) : Bool :=
  let m := chain.flatMap (·.bytes) ++ fit 32 r
  decide (bytes.length ≤ 64 * 232) && bytes.take m.length = m

/-- ADMIT_HELLO (R112 steps 1–3): the peer's HELLO; the chain is checked by R365, then KEY leaves. -/
def admitHello (p : Nat) (chain : List Cert) (r bytes : List Byte) (s : State) : State :=
  let s := if (linkOf s p).disc = .surveyed then startAdmission p s else s
  let l := linkOf s p
  if l.disc ≠ .admitting || l.adm.step ≠ 1 then s
  else match l.card with
    | none => s
    | some card =>
      match (if helloOk chain r bytes then chainFails s p card chain else some 1) with
      | some k => refuseAdmission p 2 k .refusedSignature (sendAbort p s)
      | none =>
        let leaf := chain.head?
        let m := (leaf.map (·.modulus)).getD []
        let (sec, s) := drawRandom s
        let hello := fit (bytes.length) bytes
        let key := fit 512 (Config.oaepSeal m sec) ++ fit 512 (Config.rsaSign (lowHigh (isLow card.idDigest) l.adm.helloOwn hello))
        let s := modLink s p fun l => { l with adm := { l.adm with
          step := 2, stepNs := s.mer.ns, rPeer := r, helloPeer := hello, sOwn := sec, keyOwn := key, peerExp := (leaf.map (·.pubExp)).getD 0,
          peerModulus := m, peerDigests := chain.flatMap fun c => [c.subjectDigest, c.issuerDigest] } }
        queueMgmt p (admitFlits 2 key) s

def execAdmitHello (p : Nat) (chain : List Cert) (r : List Byte) (bytes : List Byte) (s : State) : Host.Outcome State Fault Refusal :=
  .next (admitHello p chain r bytes s)

/-- Key and SALT of a 64-byte derivation (R113). -/
def keyOf (m : List Byte) : BitVec 256 := BitVec.ofNat 256 (beNat (m.take 32))
def saltOf (m : List Byte) : BitVec 32 := BitVec.ofNat 32 (beNat ((m.drop 32).take 4))

/-- T of R113. -/
def transcript (low : Bool) (a : Adm) (keyPeer : List Byte) : List Byte :=
  sha (lowHigh low a.helloOwn a.helloPeer ++ lowHigh low a.keyOwn keyPeer)

/-- ADMIT_KEY (R112 steps 3–5): the signature is verified and the peer's secret opened; the keys are derived (R113) and FINISH leaves. -/
def admitKey (p : Nat) (cipher sig : List Byte) (s : State) : State :=
  let l := linkOf s p
  if l.disc ≠ .admitting || l.adm.step ≠ 2 then s
  else
    let low := isLow ((l.card.map (·.idDigest)).getD [])
    let ok := Config.rsaVerify l.adm.peerExp l.adm.peerModulus (lowHigh low l.adm.helloOwn l.adm.helloPeer) sig
    if peerRevoked s l then refuseAdmission p 4 8 .refusedSignature (sendAbort p s)
    else match (if ok then Config.oaepOpen cipher else none) with
      | none => refuseAdmission p 4 0 .refusedSignature (sendAbort p s)
      | some sp =>
        let sp := fit 32 sp
        let t := transcript low l.adm (cipher ++ sig)
        let mix := lowHigh low l.adm.sOwn sp ++ lowHigh low l.adm.rOwn l.adm.rPeer ++ t
        let m1 := sha ([1] ++ mix)
        let m2 := sha ([2] ++ mix)
        let (mt, mr) := if low then (m1, m2) else (m2, m1)
        let s := modLink s p fun l => { l with
          keyPhaseTx := false, keyPhaseRx := false,
          tx := { l.tx with flitsUnderKey := 0, unseqUnderKey := 0 },
          keys := { tx := keyOf mt, saltTx := saltOf mt, rx := keyOf mr, saltRx := saltOf mr, chain := (m1.drop 36).take 28, interval := s.bank.regs.rekeyLog2 },
          adm := { step := 3, stepNs := s.mer.ns, peerDigests := l.adm.peerDigests, finish := t.take 32 } }
        queueMgmt p (admitFlits 3 (t.take 32)) s

def execAdmitKey (p : Nat) (cipher sig : List Byte) (s : State) : Host.Outcome State Fault Refusal := .next (admitKey p cipher sig s)

/-- ADMIT_FINISH (R112 step 6): the peer's FINISH, its content and its TAG, is checked; ADMITTED or REFUSED. -/
def admitFinish (p : Nat) (content : List Byte) (tag : Nat) (s : State) : State :=
  let l := linkOf s p
  if l.disc ≠ .admitting || l.adm.step ≠ 3 then s
  else if peerRevoked s l then refuseAdmission p 6 8 .refusedSignature (sendAbort p s)
  else if l.adm.finishTag = some tag && content.take 32 = l.adm.finish then
    let s := modLink s p fun l => { l with
      disc := .admitted, silent := false, parked := false, rollRound := some (roundNo s), keys := { l.keys with lastRekey := roundNo s },
      adm := { peerDigests := l.adm.peerDigests } }
    let i := p - homeBase s
    let s := if homeBase s ≤ p && i < 16 then modAcc s i fun a => { a with due := true } else s
    { s with mer := { s.mer with firstAdmission := match s.mer.firstAdmission with | some r => some r | none => some (roundNo s) } }
  else refuseAdmission p 6 0 .refusedSignature s

def execAdmitFinish (p : Nat) (content : List Byte) (tag : Nat) (s : State) : Host.Outcome State Fault Refusal :=
  .next (admitFinish p content tag s)

/-- ADMIT_ABORT (R112, R116): the peer's ABORT ends an admission, or withdraws an admitted link. -/
def execAdmitAbort (p : Nat) (s : State) : Host.Outcome State Fault Refusal :=
  let l := linkOf s p
  if l.disc = .admitting then .next (refuseAdmission p l.adm.step 0 .ok s)
  else if l.disc = .admitted then .next (withdraw p s)
  else .next s

/-- ADMIT_STEP_TIMEOUT (R112): a step waits at most 10 ms for the peer. -/
def execAdmitStepTimeout (p : Nat) (s : State) : Host.Outcome State Fault Refusal :=
  let l := linkOf s p
  if l.disc = .admitting && s.mer.ns ≥ l.adm.stepNs + 10000000 then .next (refuseAdmission p l.adm.step 0 .ok s) else .next s

/-- ADMIT_RETRY (R111): 1 s after a refusal; and the start of an admission that has waited in SURVEYED for its turn or for ADMIT_REQ. -/
def execAdmitRetry (p : Nat) (s : State) : Host.Outcome State Fault Refusal :=
  let l := linkOf s p
  if (l.disc = .refused && s.mer.ns ≥ l.refusedNs + 1000000000) || l.disc = .surveyed then .next (startAdmission p s) else .next s

/-- ADMIT_REQ_RESTORE (R116): ADMIT_REQ returns 1,024 Rounds after a withdrawal. -/
def execAdmitReqRestore (p : Nat) (s : State) : Host.Outcome State Fault Refusal :=
  let l := linkOf s p
  if !l.admitReq && roundNo s ≥ l.reqRestore then .next (modLink s p fun l => { l with admitReq := true, cardDue := true }) else .next s

/-! ### Rekeying (R114) -/

/-- A rekey begins: REKEY with a fresh n_I. -/
def beginRekey (p : Nat) (s : State) : State :=
  let (n, s) := drawRandom s
  queueMgmt p (admitFlits 4 n) (modLink s p fun l => { l with keys := { l.keys with
    nOwn := n, initiator := true, rekeySince := some s.mer.ns, ackSent := false, ackGot := false, nextTx := none, nextRx := none } })

/-- REKEY_START (R114): every REKEY_INTERVAL Rounds, or once 2³⁶ flits of either space have gone under one key. -/
def execRekeyStart (p : Nat) (s : State) : Host.Outcome State Fault Refusal :=
  let l := linkOf s p
  if l.disc = .admitted && l.keys.rekeySince.isNone &&
      (roundNo s ≥ l.keys.lastRekey + 2 ^ l.keys.interval || l.tx.flitsUnderKey ≥ 2 ^ 36 || l.tx.unseqUnderKey ≥ 2 ^ 36) then .next (beginRekey p s)
  else .next s

/-- New key pairs from C, n_I and n_R (R113, R114); the old keys are kept. -/
def deriveNext (p : Nat) (nI nR : List Byte) (s : State) : State :=
  let l := linkOf s p
  let low := isLow ((l.card.map (·.idDigest)).getD [])
  let m1 := sha ([3] ++ l.keys.chain ++ nI ++ nR)
  let m2 := sha ([4] ++ l.keys.chain ++ nI ++ nR)
  let (mt, mr) := if low then (m1, m2) else (m2, m1)
  modLink s p fun l => { l with keys := { l.keys with
    nextTx := some (keyOf mt, saltOf mt), nextRx := some (keyOf mr, saltOf mr), nextChain := (m1.drop 36).take 28 } }

/-- REKEY_RECEIVE (R114): the responder answers with n_R; of two that start at once L's REKEY proceeds. -/
def rekeyReceive (p : Nat) (nI : List Byte) (s : State) : State :=
  let l := linkOf s p
  let low := isLow ((l.card.map (·.idDigest)).getD [])
  if l.disc ≠ .admitted || (l.keys.initiator && l.keys.rekeySince.isSome && l.keys.nextTx.isNone && low) then s
  else
    let (n, s) := drawRandom s
    let s := modLink s p fun l => { l with keys := { l.keys with
      nOwn := n, nPeer := nI, initiator := false, rekeySince := some s.mer.ns, ackSent := false, ackGot := false } }
    queueMgmt p (admitFlits 5 n) (deriveNext p (fit 32 nI) n s)

def execRekeyReceive (p : Nat) (nI : List Byte) (s : State) : Host.Outcome State Fault Refusal := .next (rekeyReceive p nI s)

/-- REKEY_ACK_RECEIVE (R114): the initiator derives the keys and acknowledges in turn; each end switches once it has sent and received one.
The initiator's own carries n_I again (notes/assumptions/124.md). -/
def rekeyAckReceive (p : Nat) (nR : List Byte) (s : State) : State :=
  let l := linkOf s p
  if l.disc ≠ .admitted || l.keys.rekeySince.isNone || l.keys.ackGot then s
  else if l.keys.initiator then
    let s := modLink (deriveNext p l.keys.nOwn (fit 32 nR) s) p fun l => { l with keys := { l.keys with nPeer := nR, ackGot := true } }
    queueMgmt p (admitFlits 5 l.keys.nOwn) s
  else modLink s p fun l => { l with keys := { l.keys with ackGot := true } }

def execRekeyAckReceive (p : Nat) (nR : List Byte) (s : State) : Host.Outcome State Fault Refusal := .next (rekeyAckReceive p nR s)

/-- OLD_KEY_ERASE (R114): no flit under the old key is left in the replay buffer and T_RT + 128 ns have passed since the switch. -/
def execOldKeyErase (p : Nat) (s : State) : Host.Outcome State Fault Refusal :=
  let l := linkOf s p
  if !(l.tx.replay.any (·.oldKey)) && (s.mer.ns - l.keys.switchNs) * 256 ≥ rtt256 s p + 128 * 256 then
    .next (modLink s p fun l => { l with keys := { l.keys with oldTx := none, oldRx := none } })
  else .next s

/-- REKEY_TIMEOUT (R114): not finished within 10 ms it is tried again; the third failure withdraws the link (R116). Which end tries again R114 does not
say: either end, the responder too, begins a REKEY of its own, the model's choice (DESIGN CHOICE: notes/assumptions/149.md). -/
def execRekeyTimeout (p : Nat) (s : State) : Host.Outcome State Fault Refusal :=
  let l := linkOf s p
  match l.keys.rekeySince with
  | none => .next s
  | some t =>
    if l.disc ≠ .admitted || s.mer.ns < t + 10000000 then .next s
    else
      let fails := l.keys.rekeyFails + 1
      let s := modLink s p fun l => { l with keys := { l.keys with rekeyFails := fails } }
      if fails ≥ 3 then .next (withdraw p s) else .next (beginRekey p s)

end Sys2Proof.Machine
end

