-- ==== Sys2Proof/Machine/Optical.lean ====
section
/-! DEFINITION. Optical lanes and edge tiles (spec/03): laser light and the spare fibre, rings, loss of signal, adaptation freezes, and the
diagnostic claims on a lane's ADC: PRBS and Echo. Powers are in 0.01 dBm, reflectances in 0.1 dB and loss steps in 0.01 dB. -/

namespace Sys2Proof.Machine

/-! ### Claims on a lane's ADC (R72–R74) -/

/-- BUSY_CLAIMED naming the holder of a lane's ADC (R73, R332). -/
def adcBusy (g : Nat) (s : State) : Ans := busy (laneOf s g).claim.ctorIdx g s

/-- A lane's PRBS test is over: generator and checker off, adaptation with its claim, which ends with a status, the lane sent back (R74, R84, R108). -/
def endPrbs (g : Nat) (st : Status) (s : State) : State :=
  returnLane g (modLane s g fun x => { x with
    genEn := false, chkEn := false, chkLock := false, testEnd := none, claim := if x.claim = .prbs then .none else x.claim, adaptOn := x.adaptOn && x.claim ≠ .prbs,
    claimResult := some st, claimLast := .prbs })

/-- An Echo measurement ends with a RESULT other than DONE (R82, R83): the claim reports a status, and the record is
valid, with no events (notes/assumptions/26.md). -/
def endEcho (t c result : Nat) (st : Status) (s : State) : State :=
  let k := tget {} (tileOf s t).corr c
  if !k.busy then s
  else
    let k' : Corr := { k with busy := false, done := true, result := result, more := false, doneTime := s.mer.ns, events := [] }
    let s := modTile s t fun x => { x with corr := tset {} x.corr c k' }
    returnLane k.portLane (modLane s k.portLane fun x => { x with claim := if x.claim = .echo then .none else x.claim, probe := none, line := [],
                                                                               claimResult := some st, claimLast := .echo })

/-- Every PRBS, ECHO and CAPTURE claim ends with a status: a ladder entry (R74), skeleton service, PULL_WARN_N (R438). A generator that runs without a
claim stops with them, which R74 does not say (DESIGN CHOICE: notes/assumptions/136.md). -/
def endLaneClaims (st : Status) (s : State) : State :=
  let s := (s.tiles.map (·.1)).foldl (fun s t => [0, 1, 2, 3].foldl (fun s c => endEcho t c 2 st s) s) s
  let s := ((s.lanes.filter fun x => x.2.claim = .prbs || x.2.genEn).map (·.1)).foldl (fun s g => endPrbs g st s) s
  if s.capture.adcBusy then
    let g := s.capture.adcLane
    returnLane g { modLane s g (fun x => { x with claim := if x.claim = .capture then .none else x.claim, claimResult := some st, claimLast := .capture }) with
      capture := { s.capture with adcBusy := false, adcLeft := 0, adcWait := none } }
  else s

/-! ### Rings (R60, R70) -/

/-- A transmit ring loses lock: the lane is blanked, with an alert (R70). -/
def ringUnlock (lane : Nat) (s : State) : State :=
  if (laneOf s lane).ringLock then
    alert 0x0103 lane [] (modLane s lane fun x => { x with ringLock := false, blank := true, lit := false, txPwr := -32768, searchRound := roundNo s })
  else s

/-! ### Laser light (R58–R61) -/

/-- The four OK bits of a fibre. -/
def fibreOk (x : Tile) (f : Nat) : BitVec 4 := if f = 0 then x.workOk else x.spareOk

def setFibreOk (f w : Nat) (ok : Bool) (x : Tile) : Tile :=
  let m := laneBit w
  let v := if ok then fibreOk x f ||| m else fibreOk x f &&& ~~~m
  if f = 0 then { x with workOk := v } else { x with spareOk := v }

/-- LASER_PWR as last measured, at `ns`, and since when the wavelength has been below +6.0 dBm (R60, R84). -/
def notePower (f w : Nat) (pwr : Int) (ns : Nat) (x : Tile) : Tile :=
  let k := 4 * f + w
  { x with
    pwr := tset (-32768) x.pwr k pwr,
    lowSince := if pwr ≥ 600 then tdel x.lowSince k else if (tfind x.lowSince k).isSome then x.lowSince else tput x.lowSince k ns }

/-- A tile switches to the other fibre (R59, R61): SWAPS counts it, running Echo measurements are cancelled (R83), PRBS tests note it (R78).
SELECT keeps what a command wrote (notes/assumptions/123.md). -/
def switchFibre (t : Nat) (s : State) : State :=
  let s := modTile s t fun x => { x with active := 1 - x.active, swaps := min 255 (x.swaps + 1) }
  let s := [0, 1, 2, 3].foldl (fun s c => endEcho t c 2 .notReady s) s
  ((s.lanes.filter fun x => x.1 / 64 = t && (x.2.genEn || x.2.chkEn)).map (·.1)).foldl (fun s g => modLane s g fun x => { x with swapSeen := true }) s

/-- Below +6.0 dBm for 1 µs on the fibre in use, the rings of the wavelength lose lock: lane w of the tile's sixteen ports is blanked (R60). -/
def lightGone (t f w : Nat) (s : State) : State :=
  let x := tileOf s t
  let gone := match tfind x.lowSince (4 * f + w) with | some b => decide (b + 1000 ≤ s.mer.ns) | none => false
  if gone && x.active = f then (List.range 16).foldl (fun s k => ringUnlock (64 * t + 4 * k + w) s) s else s

/-- What has been below +6.0 dBm for 1 µs when a Round ends, with no new measurement (R60). -/
def lightExpire (s : State) : State :=
  (s.tiles.map (·.1)).foldl (fun s t => ((tileOf s t).lowSince.map (·.1)).foldl (fun s k => lightGone t (k / 4) (k % 4) s) s) s

/-- LASER_WAVELENGTH_LOW (R58–R60): below +16 dBm; on the fibre in use the tile switches to a fully OK other fibre, else LASER_NO_SPARE, and
lanes keep transmitting down to +6.0 dBm. -/
def wavelengthLow (t f w : Nat) (pwr : Int) (s : State) : State :=
  let x := tileOf s t
  let s := modTile s t (notePower f w pwr s.mer.ns)
  if pwr ≥ 1600 then s
  else if !(fibreOk x f).getLsbD w then lightGone t f w s
  else
    let s := modTile s t (setFibreOk f w false)
    if x.active ≠ f then s
    else if fibreOk x (1 - f) = 15 then alert 0x0101 t [] (switchFibre t s)
    else lightGone t f w (alert 0x0102 t [BitVec.ofNat 8 w] s)

def execLaserWavelengthLow (tile fibre w : Nat) (pwr : Int) (s : State) : Host.Outcome State Fault Refusal := .next (wavelengthLow tile fibre w pwr s)

/-- LASER_WAVELENGTH_OK (R58): +17 dBm or above. -/
def execLaserWavelengthOk (tile fibre w : Nat) (pwr : Int) (s : State) : Host.Outcome State Fault Refusal :=
  let s := modTile s tile (notePower fibre w pwr s.mer.ns)
  .next (if pwr ≥ 1700 then modTile s tile (setFibreOk fibre w true) else s)

/-- LASER_SELECT (R61): to the named fibre where all four of its wavelengths are OK; nothing where it is in use already. -/
def laserSelectAns (t f : Nat) (s : State) : Ans :=
  let x := tileOf s t
  if x.active = f then okAns (modTile s t fun x => { x with select := f })
  else if fibreOk x f ≠ 15 then refuse .notReady s
  else okAns (modTile (switchFibre t s) t fun x => { x with select := f })

def execLaserSelect (c : Ctx) (tile fibre : Nat) (s : State) : Host.Outcome State Fault Refusal := .next (gmiRun c 0x801 (laserSelectAns tile (fibre % 2)) s)

/-! ### Rings and loss of signal (R63, R69, R70) -/

/-- RING_UNLOCK (R70). -/
def execRingUnlock (lane : Nat) (s : State) : Host.Outcome State Fault Refusal := .next (ringUnlock lane s)

/-- RING_SEARCH (R70, R379): every 64 Rounds while blank, once the tiles run on REFCLK; the lane is relit when lock returns, in ST2 without its
modulator (R71). -/
def execRingSearch (lane heater : Nat) (found : Bool) (s : State) : Host.Outcome State Fault Refusal :=
  let x := laneOf s lane
  if x.ringLock || (x.blank && roundNo s < x.searchRound + 64) || s.pow.ladder ≥ 3 || s.ident.boot = 0 || !s.clk.coreChosen then .next s
  else
    let lit := decide (s.pow.ladder ≤ 1)
    .next (modLane s lane fun x =>
      if found then { x with
        ringLock := true, blank := false, lit := lit, txPwr := if lit then litPower lane x else -32768, heater := heater % 65536, searchRound := roundNo s }
      else { x with blank := true, searchRound := roundNo s })

/-- LOS_ASSERT (R63): below −15.0 dBm for 1,024 ns; adaptation freezes (R69). Without light clock recovery is taken as out of lock
(notes/assumptions/121.md). -/
def execLosAssert (lane : Nat) (pwr : Int) (s : State) : Host.Outcome State Fault Refusal :=
  if pwr < -1500 then .next (modLane s lane fun x => { x with los := true, cdrLock := false, rxPwr := pwr, losClearRound := none, fzGap := true, gapBack := none })
  else .next s

/-- LOS_DEASSERT (R63): above −13.0 dBm for 1,024 ns, which is since the Round before, with clock recovery locked. -/
def execLosDeassert (lane : Nat) (pwr : Int) (s : State) : Host.Outcome State Fault Refusal :=
  if pwr > -1300 then .next (modLane s lane fun x => { x with
    los := false, cdrLock := true, rxPwr := pwr, losClearRound := some (roundNo s), gapBack := some (x.gapBack.getD (roundNo s - 1)) })
  else .next s

/-- ADAPT_FREEZE_START (R69), by cause as FREEZE_CAUSE numbers them (R84): 0 signal gap, `reading` the received power in 0.01 dBm; 1 SNR, the
estimate in 0.25 dB; 2 FEC; 4 ladder. FREEZE (3) is a register bit. A gap during a PRBS test is what a switch-over on the peer's end looks like
here: SWAP_SEEN (R78; notes/assumptions/122.md). -/
def execAdaptFreezeStart (lane cause : Nat) (s : State) (reading : Int := 0) : Host.Outcome State Fault Refusal :=
  .next (modLane s lane fun x =>
    if cause = 0 && reading < -1500 then { x with fzGap := true, gapBack := none, rxPwr := reading, swapSeen := x.swapSeen || x.chkEn }
    else if cause = 1 && reading < 56 then { x with fzSnr := true, snr := reading.toNat }
    else if cause = 2 then { x with fzFec := true, fecRound := some (roundNo s) }
    else if cause = 4 && s.pow.ladder ≥ 2 then { x with fzLadder := true }
    else x)

/-- ADAPT_FREEZE_END (R69): a gap ends 4 Rounds after power is back above −13.0 dBm, the first report of which notes the Round, and not while LOS
stands; an SNR freeze at 15.0 dB; a FEC freeze at the end of the following Round; a ladder freeze in ST0 and ST1. -/
def execAdaptFreezeEnd (lane cause : Nat) (s : State) (reading : Int := 0) : Host.Outcome State Fault Refusal :=
  .next (modLane s lane fun x =>
    if cause = 0 && reading > -1300 then
      let back := x.gapBack.getD (roundNo s)
      { x with rxPwr := reading, gapBack := some back, fzGap := x.fzGap && (x.los || decide (roundNo s < back + 4)) }
    else if cause = 1 && 60 ≤ reading && reading ≤ 255 then { x with fzSnr := false, snr := reading.toNat }
    else if cause = 2 && (match x.fecRound with | some r => decide (r + 2 ≤ roundNo s) | none => true) then { x with fzFec := false }
    else if cause = 4 && s.pow.ladder ≤ 1 then { x with fzLadder := false }
    else x)

/-! ### Adaptation (R67–R69) -/

/-- No cause of R69 holds the lane's coefficients. -/
def laneFree (s : State) (x : Lane) : Bool :=
  !x.los && !x.fzGap && !x.fzSnr && !x.fzFec && !x.freeze && !x.fzLadder && decide (s.pow.ladder ≤ 1)

/-- The coefficients adapt: the lane is held for data service or runs a test, and nothing freezes it (R68, R69, R72). -/
def adapting (s : State) (x : Lane) : Bool := x.adaptOn && (x.claim = .adapt || x.claim = .prbs) && laneFree s x

/-- The decided level nearest to a slicer input given in 1/4,096. -/
def sliceLevel (z : Int) : Int := if z < -8192 then -3 else if z < 0 then -1 else if z < 8192 then 1 else 3

/-- A quotient rounded down, or up where that is asked and it is not exact. -/
def divRound (a : Int) (b : Nat) (up : Bool) : Int := a / b + (if up && a % b ≠ 0 then 1 else 0)

/-- An ADC sample: 7 bits, signed (R56, R67). What it samples is free. -/
def adcCode (g n : Nat) : Int := max (-64) (min 63 (Config.adcSample g n))

/-- An FFE tap: c7 is held at 1.0 (R67). -/
def ffeTap (x : Lane) (k : Nat) : Int := if k = 7 then 256 else tget 0 x.ffe k

/-- What the updates of 256 symbols add is applied to a tap, which keeps within its limits (R67, R68). -/
def applyTaps (cfg : LaneCfg) (g : Nat) (x : Lane) : Lane :=
  { x with
    ffe := (List.range 32).foldl (fun t k =>
      if k = 7 then t
      else tset 0 t k (max (-512) (min 511 (tget 0 t k + divRound (tget 0 x.accFfe k) (2 ^ (cfg.muFfe + 16)) (Config.tapRoundUp g x.updates k))))) x.ffe,
    dfe := (List.range 4).foldl (fun t i =>
      tset 0 t (i + 1) (max (-64) (min 63 (tget 0 t (i + 1) + divRound (tget 0 x.accDfe (i + 1)) (2 ^ (cfg.muDfe + 1)) (Config.tapRoundUp g x.updates (32 + i)))))) x.dfe,
    accFfe := [], accDfe := [] }

/-- One symbol of a lane that adapts (R67, R68): its decision, from the FFE and from the four decisions before it; of one symbol in 16 the update of
the taps; and every 256 symbols the updates are applied. Samples are in ADC codes, 16 to a level; z and e are in 1/4,096 of a level, the FFE taps in
1/256 and the DFE taps in 1/128. What an ADC samples and how an update is rounded to a tap's unit are free; which symbol of the 16 is used, and that
16 updates are added up, is the model's (DEDUCED: notes/assumptions/122.md). -/
def lmsSymbol (cfg : LaneCfg) (g : Nat) (x : Lane) : Lane :=
  let n := x.updates
  let smp := fun (k : Nat) => adcCode g (n + 31 - k)
  let z := (List.range 32).foldl (fun a k => a + ffeTap x k * smp k) 0 -
    32 * (List.range 4).foldl (fun a i => a + tget 0 x.dfe (i + 1) * x.decided.getD i 0) 0
  let ah := sliceLevel z
  let e := z - 4096 * ah
  let y : Lane :=
    if n % 16 ≠ 0 then x
    else { x with
      accFfe := (List.range 32).foldl (fun t k => if k = 7 then t else tset 0 t k (tget 0 t k - e * smp k)) x.accFfe,
      accDfe := (List.range 4).foldl (fun t i => tset 0 t (i + 1) (tget 0 t (i + 1) + e.sign * (x.decided.getD i 0).sign)) x.accDfe }
  let y : Lane := { y with updates := n + 1, decided := (ah :: x.decided).take 4 }
  if (n + 1) % 256 = 0 then applyTaps cfg g y else y

/-- What adaptation does in `cycles` core cycles of 144 symbols (R68). -/
def adaptLane (cycles g : Nat) (s : State) : State :=
  if adapting s (laneOf s g) then modLane s g fun x => forIdx (144 * cycles) (fun x _ => lmsSymbol (laneCfg s g) g x) x else s

/-- A committed CTLE_MODE fixes the code at once; where training chose it, it holds until the link trains again (R68). -/
def fixCtle (s : State) : State :=
  s.bank.lane.foldl (fun s x => if x.2.ctleMode then modLane s x.1 fun y => { y with ctle := x.2.ctleCode } else s) s

/-- LANE_FREEZE_WRITE: the FREEZE bit of LANE_CTL (R69, R84). -/
def laneFreezeAns (lane : Nat) (freeze : Bool) (s : State) : Ans := okAns (modLane s lane fun x => { x with freeze := freeze })

def execLaneFreezeWrite (c : Ctx) (lane : Nat) (freeze : Bool) (s : State) : Host.Outcome State Fault Refusal :=
  .next (gmiRun c 0x801 (laneFreezeAns lane freeze) s)

/-! ### PRBS (R75–R78) -/

/-- The Round at which a test of a DURATION ends; 0 runs until stopped (R84). -/
def testEndOf (s : State) (duration : Nat) : Option Nat := if duration = 0 then none else some (roundNo s + duration * 1024)

/-- PRBS_GEN_START (R76, R108): GEN_EN from 0 to 1 takes the seed; a lane of a link in service is released first, which needs an x4 link. With
GEN_EN set already the generator runs on. -/
def prbsGenAns (g pattern seed duration : Nat) (s : State) : Ans :=
  let p := portOfLane g
  let l := linkOf s p
  let start := fun (s : State) => okAns (modLane s g fun x => { x with
    genEn := true, pattern := pattern, seed := seed % 2 ^ 31, duration := duration,
    lfsr := if x.genEn then x.lfsr else prbsStart pattern seed, testEnd := if x.genEn then x.testEnd else testEndOf s duration })
  if pattern > 3 then badArg 8 s
  else if s.pow.ladder ≥ 2 then refuse .notReady s
  else if inService l && l.width.getLsbD (g % 4) then
    match releaseLane p (g % 4) s with
    | some s' => start s'
    | none => busy 1 g s
  else if (laneOf s g).claim = .adapt then busy 1 g s
  else start s

def execPrbsGenStart (c : Ctx) (lane pattern seed duration : Nat) (s : State) : Host.Outcome State Fault Refusal :=
  .next (gmiRun c 0x801 (prbsGenAns lane pattern seed duration) s)

/-- PRBS_CHECK_START (R72, R73, R77, R78): CHK_EN from 0 to 1 claims the ADC and clears the counters. -/
def prbsCheckAns (g pattern duration : Nat) (s : State) : Ans :=
  if pattern > 3 then badArg 8 s
  else if s.pow.ladder ≥ 2 then refuse .notReady s
  else if (laneOf s g).claim ≠ .none then adcBusy g s
  else okAns (modLane s g fun x => { x with
    claim := .prbs, adaptOn := true, chkEn := true, chkLock := false, pattern := pattern, duration := duration, testEnd := testEndOf s duration,
    errs := 0, symErrs := 0, bits := 0, chkReg := 0, chkFill := 0, chkRun := 0, chkErrs := [], claimResult := none })

def execPrbsCheckStart (c : Ctx) (lane pattern duration : Nat) (s : State) : Host.Outcome State Fault Refusal :=
  .next (gmiRun c 0x801 (prbsCheckAns lane pattern duration) s)

/-- PRBS_CLEAR (R78). -/
def prbsClearAns (g : Nat) (s : State) : Ans := okAns (modLane s g fun x => { x with errs := 0, symErrs := 0, bits := 0 })

def execPrbsClear (c : Ctx) (lane : Nat) (s : State) : Host.Outcome State Fault Refusal := .next (gmiRun c 0x801 (prbsClearAns lane) s)

/-- What the generator sends in `cycles` core cycles, 144 symbols each, through the precoder where the lane's precoding is on; the lane keeps
the symbols of the last cycle (R75). A lane whose ring is not locked sends nothing (R70). -/
def prbsSend (cycles g : Nat) (s : State) : State :=
  modLane s g fun x =>
    if !x.genEn || cycles = 0 || x.probe.isSome then x
    else
      let one := fun (a : Nat × Nat) =>
        let (r, v) := prbsSymbol x.pattern a.1
        (r, if x.precodeTx then (v + 4 - a.2) % 4 else v)
      let (r, y) := forIdx (144 * (cycles - 1)) (fun a _ => one a) (x.lfsr, x.yTx)
      let (r', l) := prbsRun x.pattern 144 r
      let (out, y') := if x.precodeTx then precode y l else (l, y)
      { x with lfsr := r', yTx := if x.precodeTx then y' else x.yTx, line := if x.ringLock && !x.blank then out else [] }

/-- The checker takes one bit (R77, R78): seeding, then lock after 128 error-free bits in a row; 32 wrong of the last 1,024 lose lock and the
seeding starts again, as they do before lock (notes/assumptions/122.md). The Bool says that a wrong bit was counted. -/
def checkBit (b : Bool) (x : Lane) : Lane × Bool :=
  let n := (prbsPoly x.pattern).1
  if x.chkFill < n then ({ x with chkReg := (2 * x.chkReg + bit b) % 2 ^ n, chkFill := x.chkFill + 1 }, false)
  else
    let (r, want) := prbsNext x.pattern x.chkReg
    let wrong := want != b
    let errs := (wrong :: x.chkErrs).take 1024
    let run := if wrong then 0 else x.chkRun + 1
    let x' : Lane := if x.chkLock then { x with bits := min (2 ^ 64 - 1) (x.bits + 1), errs := min (2 ^ 32 - 1) (x.errs + bit wrong) } else x
    if (errs.filter id).length ≥ 32 then ({ x' with chkLock := false, chkReg := 0, chkFill := 0, chkRun := 0, chkErrs := [] }, x.chkLock && wrong)
    else ({ x' with chkReg := r, chkRun := run, chkErrs := errs, chkLock := x.chkLock || decide (run ≥ 128) }, x.chkLock && wrong)

/-- The checker takes one decided symbol, after the decoder (R65, R75): two bits of a quaternary one, which counts once in SYMERRS with either bit
wrong, or one NRZ bit (R78). -/
def checkSymbol (x : Lane) (y : Nat) : Lane :=
  let v := if x.precodeRx then (y + x.yRx) % 4 else y % 4
  let x := { x with yRx := y % 4 }
  let (x, wrong) := if prbsNrz x.pattern then checkBit (decide (v ≥ 2)) x
    else
      let (x, w1) := checkBit (grayBits v).1 x
      let (x, w0) := checkBit (grayBits v).2 x
      (x, w1 || w0)
  { x with symErrs := min (2 ^ 32 - 1) (x.symErrs + bit wrong) }

/-- The checker runs over the symbols received since the last command that brought any (R77, R78). -/
def checkRun (received : List Nat) (x : Lane) : Lane := if x.chkEn then received.foldl checkSymbol x else x

/-- The symbol that the checker's own sequence expects next, as it stands on the line (R65, R75). -/
def goodSymbol (x : Lane) : Nat :=
  let v := (prbsSymbol x.pattern x.chkReg).2
  if x.precodeRx then (v + 4 - x.yRx) % 4 else v

/-- A stretch as the checker hears it: the symbols `first`, then `free` symbols free of error, then the symbols `last`. -/
def checkHeard (first : List Nat) (free : Nat) (last : List Nat) (x : Lane) : Lane :=
  let x := checkRun first x
  let x := if x.chkEn then forIdx free (fun x _ => checkSymbol x (goodSymbol x)) x else x
  checkRun last x

/-- PRBS_CHK_LOCK (R77): the symbols in which 128 consecutive bits were free of error. -/
def execPrbsChkLock (lane : Nat) (s : State) (received : List Nat := []) : Host.Outcome State Fault Refusal := .next (modLane s lane (checkRun received))

/-- PRBS_CHK_LOCK_LOST (R77): the symbols in which 32 or more of the last 1,024 bits were in error. -/
def execPrbsChkLockLost (lane : Nat) (first : List Nat) (free : Nat) (last : List Nat) (s : State) : Host.Outcome State Fault Refusal :=
  .next (modLane s lane (checkHeard first free last))

/-- PRBS_DURATION_END (R74): the test's duration has run out; the claim reports OK. -/
def execPrbsDurationEnd (lane : Nat) (first : List Nat) (free : Nat) (last : List Nat) (s : State) : Host.Outcome State Fault Refusal :=
  match (laneOf s lane).testEnd with
  | some r => if roundNo s ≥ r then .next (endPrbs lane .ok (modLane s lane (checkHeard first free last))) else .next s
  | none => .next s

/-- PRBS_STOP (R84, R108): GEN_EN and CHK_EN are cleared, the claim ends and the lane goes back. -/
def prbsStopAns (g : Nat) (first : List Nat) (free : Nat) (last : List Nat) (s : State) : Ans :=
  let x := laneOf s g
  if x.genEn || x.chkEn then okAns (endPrbs g .ok (modLane s g (checkHeard first free last))) else okAns s

def execPrbsStop (c : Ctx) (lane : Nat) (first : List Nat) (free : Nat) (last : List Nat) (s : State) : Host.Outcome State Fault Refusal :=
  .next (gmiRun c 0x801 (prbsStopAns lane first free last) s)

/-! ### Echo (R79–R83) -/

/-- The tile has light OK for wavelength w on the fibre in use. -/
def lightOk (s : State) (t w : Nat) : Bool := (fibreOk (tileOf s t) (tileOf s t).active).getLsbD w

/-- The probe at a symbol (R79): chips of 110 symbols, NRZ on the outer levels, in the order of PRBS13's 8,191 bits. The generator's state at its first
chip is the model's, all ones (DESIGN CHOICE: notes/assumptions/26.md). -/
def probeSymbol (n : Nat) : Nat :=
  3 * bit (forIdx (n / 110 % 8191) (fun (a : Nat × Bool) _ => prbsNext 1 a.1) (prbsNext 1 8191)).2

/-- Symbols of a whole probe: 4,096 periods (R79). -/
def probeLength : Nat := 110 * 8191 * 4096

/-- What a lane's probe sends in `cycles` core cycles, 144 symbols each; the lane keeps the symbols of the last cycle (R79). -/
def probeSend (cycles g : Nat) (s : State) : State :=
  modLane s g fun x =>
    match x.probe with
    | none => x
    | some n =>
      let m := min probeLength (n + 144 * cycles)
      if cycles = 0 then x
      else { x with probe := some m, line := if n = probeLength then [] else (List.range 144).map fun i => probeSymbol (m - 144 + i) }

/-- ECHO_START (R73, R74, R79): the lane's ADC is claimed as ECHO and its modulator begins the probe. The order of the refusals is the model's
(notes/assumptions/123.md). -/
def echoStartAns (t c portK laneJ startCm : Nat) (s : State) : Ans :=
  let g := 64 * t + 4 * portK + laneJ
  if startCm > 15000 then badArg 8 s
  else if s.pow.ladder ≥ 2 then refuse .notReady s
  else if (tget {} (tileOf s t).corr c).busy then busy 3 (t * 0x10000) s
  else if (laneOf s g).claim ≠ .none then adcBusy g s
  else if !lightOk s t laneJ || !(laneOf s g).ringLock then refuse .notReady s
  else
    let s := modLane s g fun x => { x with claim := .echo, probe := some 0, line := [], claimResult := none }
    okAns (modTile s t fun x => { x with corr := tset {} x.corr c {
      portK := portK, laneJ := laneJ, busy := true, done := false, startCm := startCm, result := 0, more := false, portLane := g,
      groupIndex := tget 0x5BC s.bank.groupIndex t, doneTime := 0, events := [], startNs := s.mer.ns } })

def execEchoStart (c : Ctx) (tile corr portK laneJ startCm : Nat) (s : State) : Host.Outcome State Fault Refusal :=
  .next (gmiRun c 0x801 (echoStartAns tile corr portK laneJ startCm) s)

/-- The distance of a round-trip time in ps: c × t / (2 × n_g), to the nearest cm; n_g in 1/1,000 (R80). -/
def echoDist (ng : Nat) (e : EchoEvent) : Nat := (29979 * e.tPs + 1000 * ng) / (2000 * ng)

/-- Whether a point is an event (R81). -/
def echoReported (e : EchoEvent) : Bool := e.refl ≥ -520 || e.loss ≥ 20

/-- Type and verdict of an event (R81). -/
def echoClass (e : EchoEvent) : Nat × Bool :=
  if e.loss > 300 || (e.last && e.refl > -140) then (2, true)
  else if e.last then (3, false)
  else if e.refl ≥ -520 then (0, e.refl > -400 || e.loss > 50)
  else (1, e.loss > 50)

/-- An event as its record holds it (R80, R82): reflectance below the floor of −55 dB reads −32,768. -/
def echoResult (ng : Nat) (e : EchoEvent) : EchoResult :=
  let (t, v) := echoClass e
  { distCm := echoDist ng e, refl := if e.refl < -550 then -32768 else e.refl, loss := e.loss, type := t, inspect := v }

/-- Of events in order of distance, those that Echo can tell apart (R80): none within 0.50 m after one above −30 dB, or within 5 cm after any
other. `last` is the distance of the last one kept, `dead` where the dead zone ends. Of two too close the nearer is kept (DESIGN CHOICE:
notes/assumptions/26.md). -/
def echoResolve (ng : Nat) (last : Option Nat) (dead : Nat) : List EchoEvent → List EchoEvent
  | [] => []
  | e :: r =>
    let d := echoDist ng e
    let hidden := decide (d < dead) || (match last with | some q => decide (d < q + 5) | none => false)
    let dead' := if e.refl > -300 then max dead (d + 50) else dead
    if hidden then echoResolve ng last dead' r else e :: echoResolve ng (some d) dead' r

/-- The events of a measurement from START_CM on, in order of distance, in the range of 0.10 m to 150.00 m (R80–R82). A point that is no event
hides none. -/
def echoFound (ng startCm : Nat) (events : List EchoEvent) : List EchoEvent :=
  (echoResolve ng none 0 (sortBy (fun a b => decide (a.tPs ≤ b.tPs))
    (events.filter fun e => decide (10 ≤ echoDist ng e) && decide (echoDist ng e ≤ 15000) && echoReported e))).filter fun e => decide (startCm ≤ echoDist ng e)

/-- ECHO_DONE (R80–R82): events in order of distance from START_CM on, at most 16; the claim reports OK. Light or ring lock lost in the meantime
gives NO_LIGHT (notes/assumptions/26.md). -/
def echoDone (t c : Nat) (events : List EchoEvent) (s : State) : State :=
  let k := tget {} (tileOf s t).corr c
  if !k.busy then s
  else if !lightOk s t k.laneJ || !(laneOf s k.portLane).ringLock then endEcho t c 1 .notReady s
  else
    let found := echoFound k.groupIndex k.startCm events
    let s := modTile s t fun x => { x with corr := tset {} x.corr c { k with
      busy := false, done := true, result := 0, more := decide (found.length > 16), doneTime := s.mer.ns, events := (found.take 16).map (echoResult k.groupIndex) } }
    returnLane k.portLane (modLane s k.portLane fun x => { x with
      claim := if x.claim = .echo then .none else x.claim, probe := none, line := [], claimResult := some .ok, claimLast := .echo })

/-- A measurement holds its claim for at most 25 ms (R74, R79): one that no result has ended by then ends with what it has, no event. -/
def echoExpire (s : State) : State :=
  (s.tiles.map (·.1)).foldl (fun s t => [0, 1, 2, 3].foldl (fun s c =>
    let k := tget {} (tileOf s t).corr c
    if k.busy && decide (s.mer.ns ≥ k.startNs + 25000000) then endEcho t c 0 .ok s else s) s) s

/-! ### What the lanes do in a Round -/

/-- FEC corrections of the Round that ends: more than 1 per 1,000 of the 57,600 bytes that a lane carries in a Round (R105). -/
def fecRound (g : Nat) (s : State) : State :=
  modLane s g fun x => if x.fecErr = 0 && x.fecBad = 0 then x else { x with fecErr := 0, fecBad := if x.fecErr * 1000 > 57600 then x.fecBad + 1 else 0 }

/-- The lanes run through the `cycles` core cycles that end a Round: adaptation, generators and probes (R68, R75, R79), the FEC count of R105,
training frames (R103), light that is gone (R60), and Echo claims whose time is up (notes/assumptions/122.md). -/
def lanesRun (cycles : Nat) (s : State) : State :=
  let s := (s.lanes.map (·.1)).foldl (fun s g => fecRound g (probeSend cycles g (prbsSend cycles g (adaptLane cycles g s)))) s
  echoExpire (lightExpire ((s.links.map (·.1)).foldl (fun s p => framesRun cycles p s) s))

def execEchoDone (tile corr : Nat) (events : List EchoEvent) (s : State) : Host.Outcome State Fault Refusal := .next (echoDone tile corr events s)

end Sys2Proof.Machine
end

