-- ==== Sys2Proof/Machine/Groups.lean ====
section
/-! DEFINITION. What several families do to the group table and the staging bank: pages and reservations, a group that becomes FREE, and the
discard of the staged bank (R245–R247, R333, R334). -/

namespace Sys2Proof.Machine

/-- Data pages of an office that no group holds (R206). -/
def pagesFree (s : State) (o : Nat) : Nat := 5888 - sumNat ((officeOf s o).regions.map fun x => x.2.2)

/-- The lowest first page, from 256 on, at which `n` pages in a row are free (R206; notes/assumptions/24.md). -/
def fitPages (regions : List (Nat × Nat × Nat)) (n : Nat) : Option Nat :=
  minNat? ((256 :: regions.map fun x => x.2.1 + x.2.2).filter fun a =>
    decide (a + n ≤ 6144) && regions.all fun x => decide (a + n ≤ x.2.1) || decide (x.2.1 + x.2.2 ≤ a))

/-- First pages of an input and a result region, each a run of its own (R476; notes/assumptions/24.md): the input region's first, else the other. -/
def fitRegions (regions : List (Nat × Nat × Nat)) (inP outP : Nat) : Option (Nat × Nat) :=
  let first := fun (a b : Nat) => (fitPages regions a).bind fun x => (fitPages (regions ++ [(64, x, a)]) b).map fun y => (x, y)
  (first inP outP).orElse fun _ => (first outP inP).map fun x => (x.2, x.1)

/-- The group-table entries in ascending order that are not FREE. -/
def openEntries (s : State) : List Nat := (s.groups.filter fun x => x.2.state ≠ .free).map (·.1)

/-- A group's number. -/
def groupNumber (g : Group) : Nat := (g.record.map (·.group)).getD 0

/-- The entry that holds a group number, in any state but FREE. -/
def entryOf (s : State) (group : Nat) : Option Nat := (s.groups.find? fun x => x.2.state ≠ .free && groupNumber x.2 = group).map (·.1)

/-- A group's own slot-map entries taken out of a bank (R245, R247). -/
def removeSlots (group : Nat) (b : Bank) : Bank := { b with slot := b.slot.filter fun x => !(x.2.valid && x.2.source ≥ 256 && x.2.route = group) }

/-- A group becomes FREE: its pages, its spill area and its route queues are given back, and its bundles leave its office (R246, R247). -/
def freeGroup (e : Nat) (s : State) : State :=
  let g := groupOf s e
  let n := groupNumber g
  let s := modOffice s g.office fun o => { o with regions := o.regions.filter fun x => x.1 ≠ e }
  let s := modMem s (hemOfOffice g.office) fun m => { m with mspill := tdel m.mspill e }
  let s := { s with sw := { s.sw with officeRoutes := s.sw.officeRoutes.filter fun x => x.2.1 ≠ n } }
  { s with groups := tdel s.groups e }

/-- The staged bank is discarded (R333, R334): staged opens go to FREE, closes made under manager or operator authority are undone, closes
made under member authority stay. -/
def discardStaging (s : State) : State :=
  let opens := s.staging.opens.map (·.entry)
  let undone := (s.staging.closes.filter fun x => !x.2).map (·.1)
  let s := opens.foldl (fun s e => if (groupOf s e).state = .staged then freeGroup e s else s) s
  let s := undone.foldl (fun s n => match entryOf s n with
    | some e => if (groupOf s e).state = .closing then modGroup s e fun g => { g with state := .running } else s
    | none => s) s
  { s with staging := { closes := s.staging.closes.filter (·.2) }, route := { s.route with draining := false, drainArmed := false } }

end Sys2Proof.Machine
end

