-- ==== Sys2Proof/Machine/Postmaster.lean ====
section
/-! DEFINITION. The postmaster and its Triad (spec/11): the voter, reintegration, restart, self-test and the health report, roll call, tray
lead and standby, standing orders and the timer set. -/

namespace Sys2Proof.Machine

/-! ### The channels and the voter (R288–R294) -/

/-- The channels in service. -/
def channels (s : State) : List Nat := [0, 1, 2].filter fun c => (chanOf s c).inService

/-- Voter mode (R290). -/
def triadMode (s : State) : Triad :=
  if s.pm.noneMode then .none
  else match (channels s).length with
    | 3 => .triplex
    | 2 => .duplex
    | 1 => .simplex
    | _ => .none

/-- The Triad enters NONE: held outputs are discarded and skeleton service follows, with its cause (R290, R293, R444). -/
def enterNone (cause : Nat) (s : State) : State :=
  { s with pm := { s.pm with noneMode := true, holding := false, diagnosing := false, healthDue := true },
           gmi := { s.gmi with held := [] },
           ident := { s.ident with skeletonDue := match s.ident.skeletonDue with | some c => some c | none => some cause } }

/-- Retirements of a channel that still count: those of the last 2²² Rounds (R294). -/
def liveRetires (s : State) (c : Nat) : List Nat := (chanOf s c).retires.filter fun r => roundNo s < r + 2 ^ 22

/-- A retirement is recorded; the third within 2²² Rounds is for good, with TRIAD_DUPLEX (R294). -/
def noteRetire (c : Nat) (s : State) : State :=
  let rs := liveRetires s c ++ [roundNo s]
  let good := decide (rs.length ≥ 3)
  let s := modChan s c fun x => { x with retires := rs, forGood := x.forGood || good }
  if good then alert 0x010B c [] s else s

/-- A channel leaves service (R291–R294): SIMPLEX with a verified channel raises TRIAD_SIMPLEX, no verified channel left is NONE. A second
retirement stops a reintegration: its copy starts again (R295). -/
def retire (c : Nat) (s : State) : State :=
  let s := noteRetire c (modChan s c fun x => { x with inService := false, verified := false, stage := 0, inputs := [] })
  let s := { s with pm := { s.pm with healthDue := true, holding := s.pm.diagnosing } }
  let s := [0, 1, 2].foldl (fun s k => modChan s k fun x => { x with stage := if x.stage ≥ 3 then 2 else x.stage }) s
  match channels s with
  | [] => enterNone 0 s
  | [one] => if (chanOf s one).verified then releaseHeld (alert 0x010A one [] s) else enterNone 0 s
  | _ => releaseHeld s

/-- A voted disagreement is counted and reported (R291). -/
def countMismatch (c : Nat) (s : State) : State :=
  report 0x0204 c [] (cnt1 13 { s with pm := { s.pm with mismatch := min (2 ^ 32 - 1) (s.pm.mismatch + 1) } })

/-- The voter holds outputs from this word on, and both channels run their self-test (R292). -/
def holdOutputs (s : State) : State := { s with pm := { s.pm with holding := true, diagnosing := true } }

/-- VOTER_DISAGREE (R290–R293): masked and retired in TRIPLEX, held in DUPLEX, a self-test failure in SIMPLEX. -/
def voterDisagree (c : Nat) (s : State) : State :=
  match triadMode s with
  | .triplex => retire c (countMismatch c s)
  | .duplex => if s.pm.diagnosing then s else holdOutputs s
  | .simplex => enterNone 0 s
  | .none => s

def execVoterDisagree (differs : Nat) (s : State) : Host.Outcome State Fault Refusal := .next (voterDisagree differs s)

/-- DUPLEX_WORD_TIMEOUT (R292): one channel presents no word within 16 channel cycles. -/
def execDuplexWordTimeout (s : State) : Host.Outcome State Fault Refusal :=
  if triadMode s = .duplex && !s.pm.diagnosing then .next (holdOutputs s) else .next s

/-- CHANNEL_FAULT_LOCATED (R291): a fault that the hardware locates retires its channel, in DUPLEX without diagnosis; in SIMPLEX it is NONE. -/
def faultLocated (c : Nat) (s : State) : State :=
  if !(chanOf s c).inService || s.pm.noneMode then s
  else if triadMode s = .simplex then enterNone 0 s
  else report 0x0204 c [] (retire c s)

def execChannelFaultLocated (ch : Nat) (s : State) : Host.Outcome State Fault Refusal := .next (faultLocated ch s)

/-- The postmaster restarts as soon as it can (R292, R296). -/
def restartNow (s : State) : State := { s with pm := { s.pm with restartDue := true, restartFrom := roundNo s } }

/-- DUPLEX_DIAGNOSIS_DONE (R292): one channel fails and what the other put out is released in order; both pass and the postmaster restarts, what is
held being discarded there; or both fail. A channel that passes is verified (R293). -/
def duplexDiagnosis (failed : List Nat) (s : State) : State :=
  if !s.pm.diagnosing then s
  else
    let bad := (channels s).filter failed.contains
    let s := { s with pm := { s.pm with holding := false, diagnosing := false } }
    let s := ((channels s).filter fun c => !failed.contains c).foldl (fun s c => modChan s c fun x => { x with verified := true }) s
    match bad with
    | [] => restartNow s
    | [c] => retire c s
    | _ => enterNone 0 s

def execDuplexDiagnosisDone (failed : List Nat) (s : State) : Host.Outcome State Fault Refusal := .next (duplexDiagnosis failed s)

/-! ### Reintegration (R295) -/

/-- A boundary has come since a Round (R295). -/
def boundarySince (r : Nat) (s : State) : Bool := decide (roundNo s > r)

/-- The Round in which a channel last retired. -/
def retiredAt (s : State) (c : Nat) : Nat := (chanOf s c).retires.foldl max 0

/-- REINTEGRATE_START (R295 step 1): at a boundary after the retirement a channel retired, not for good, is reset, one at a time; its RAM and registers
are lost. -/
def execReintegrateStart (ch : Nat) (s : State) : Host.Outcome State Fault Refusal :=
  let c := chanOf s ch
  if !c.inService && !c.forGood && c.stage = 0 && [0, 1, 2].all (fun k => (chanOf s k).stage = 0) && !s.pm.noneMode && !s.pm.diagnosing &&
      boundarySince (retiredAt s ch) s then
    let s := { s with pm := { s.pm with rams := tdel s.pm.rams ch, cores := tdel s.pm.cores ch } }
    .next (modChan s ch fun c => { c with stage := 1, verified := false, stageRound := roundNo s })
  else .next s

/-- REINTEGRATE_SELFTEST_DONE (R295 step 1): a failure leaves it retired and counts as a retirement. -/
def execReintegrateSelftestDone (ch : Nat) (pass : Bool) (s : State) : Host.Outcome State Fault Refusal :=
  if (chanOf s ch).stage ≠ 1 then .next s
  else if pass then .next (modChan s ch fun c => { c with stage := 2, verified := true, stageRound := roundNo s })
  else .next (report 0x0211 ch [] (noteRetire ch (modChan s ch fun c => { c with stage := 0 })))

/-- A copy may be taken from the channels in service: no diagnosis is under way and each of them is verified (R295). -/
def copySource (s : State) : Bool := !s.pm.diagnosing && !s.pm.noneMode && (channels s).all fun c => (chanOf s c).verified

/-- What one channel in service holds is copied into another. -/
def copied {α : Type} (s : State) (ch : Nat) (t : Tbl α) : Tbl α :=
  match (channels s).head?.bind (tfind t) with
  | some v => tput t ch v
  | none => tdel t ch

/-- REINTEGRATE_COPY_DONE (R295 step 2): the RAM has been copied, writes of the meantime mirrored. -/
def execReintegrateCopyDone (ch : Nat) (s : State) : Host.Outcome State Fault Refusal :=
  if (chanOf s ch).stage = 2 && copySource s then
    let s := { s with pm := { s.pm with rams := copied s ch s.pm.rams } }
    .next (modChan s ch fun c => { c with stage := 3, stageRound := roundNo s })
  else .next s

/-- Step 3 of R295, at the first boundary after the copy: the Triad pauses, the architectural registers are copied, and the voter holds outputs. -/
def reintegratePause (s : State) : State :=
  match [0, 1, 2].find? fun c => (chanOf s c).stage = 3 && boundarySince (chanOf s c).stageRound s with
  | some c =>
    if copySource s && !s.pm.absent then
      modChan { s with pm := { s.pm with holding := true, cores := copied s c s.pm.cores } } c fun x => { x with stage := 4, stageRound := roundNo s }
    else s
  | none => s

/-- REINTEGRATE_REJOIN (R295 step 4): the pause ends, the mode rises by one channel, and what was held is released. -/
def execReintegrateRejoin (ch : Nat) (s : State) : Host.Outcome State Fault Refusal :=
  if (chanOf s ch).stage = 4 && copySource s then
    let s := modChan s ch fun c => { c with stage := 0, inService := true }
    .next (releaseHeld { s with pm := { s.pm with healthDue := true, holding := false } })
  else .next s

/-! ### Restart (R296–R298) -/

/-- ALIVE_WRITE (R296). -/
def execAliveWrite (s : State) : Host.Outcome State Fault Refusal :=
  if s.pm.absent then .next s else .next { s with pm := { s.pm with aliveRound := roundNo s } }

/-- The Triad runs its firmware: not in NONE, not restarting, not held by its voter for a self-test or a pause (R292, R295), not stopped in ST4. -/
def triadRuns (s : State) : Bool := triadMode s ≠ .none && !s.pm.absent && !s.pm.holding && decide (s.pow.ladder < 4)

/-- The watchdog counts (R296): only while the Triad runs, the firmware of this boot in service. -/
def watchdogRuns (s : State) : Bool := triadRuns s && decide (s.ident.boot ≥ 2)

/-- WATCHDOG_EXPIRY (R296): no ALIVE for 1,024 Rounds restarts the postmaster at the next boundary, which a boundary itself is. -/
def execWatchdogExpiry (s : State) : Host.Outcome State Fault Refusal :=
  if watchdogRuns s && roundNo s ≥ s.pm.aliveRound + 1024 then
    .next { s with pm := { s.pm with restartDue := true, restartFrom := if s.mer.cycle = 0 then roundNo s else roundNo s + 1 } }
  else .next s

/-- Restarts of the last 60 s, in Rounds of 1,024 ns (R298, R300). -/
def recentRestarts (s : State) : List Nat := s.pm.restartRounds.filter fun r => (roundNo s - r) * 1024 < 60000000000

/-- Commands accepted and not completed end with NOT_READY (R297). -/
def endAccepted (s : State) : State :=
  -- held completions are discarded: their commands have not completed (R292, R297)
  let s := s.gmi.held.foldl (fun s o =>
      release { o with record := { o.record with status := .notReady, ownerKind := 0, ownerId := 0, detail := 0, response := [] } } s)
    { s with gmi := { s.gmi with held := [] }, pm := { s.pm with holding := false } }
  let s := (s.links.map (·.1)).foldl (fun s p =>
    let ctxs := (linkOf s p).returning.filterMap (·.2.2)
    let s := modLink s p fun l => { l with returning := l.returning.map fun x => (x.1, x.2.1, none) }
    ctxs.foldl (fun s c => complete c 0x803 { status := .notReady, post := s }) s) s
  let caps := s.pm.trayCaps.filterMap fun x => x.2.2
  let s := { s with pm := { s.pm with trayCaps := s.pm.trayCaps.map fun x => (x.1, x.2.1, none) } }
  caps.foldl (fun s c => complete c 0x600 { status := .notReady, post := s }) s

/-- POSTMASTER_RESTART (R296–R298), in the Round in which it may begin or later: a staged bank that no COMMIT has sealed is discarded, accepted commands end, POSTMASTER_ABSENT is set; a fourth restart within
60 s is NONE instead. -/
def postmasterRestart (s : State) : State :=
  if !s.pm.restartDue || s.pm.absent || s.pm.noneMode || decide (roundNo s < s.pm.restartFrom) then s
  else if (recentRestarts s).length ≥ 3 then enterNone 1 { s with pm := { s.pm with restartDue := false } }
  else
    -- a sealed bank is an accepted action, in the hardware that holds it (notes/assumptions/130.md)
    let s := endAccepted (if s.staging.sealed.isSome then s else discardStaging s)
    { s with pm := { s.pm with
      restartDue := false, absent := true, absentClearDue := false, chainDone := false, holding := false, diagnosing := false, restarts := min 255 (s.pm.restarts + 1),
      restartRounds := recentRestarts s ++ [roundNo s], healthDue := true },
             gmi := { s.gmi with lastSeq := s.gmi.seqFloor } }

def execPostmasterRestart (s : State) : Host.Outcome State Fault Refusal := .next (postmasterRestart s)

/-- POSTMASTER_RESTART_DONE (R296, R297): the boot chain has passed and the state is rebuilt; POSTMASTER_ABSENT clears at the first boundary after
it, and the watchdog counts from 0. -/
def execPostmasterRestartDone (s : State) : Host.Outcome State Fault Refusal :=
  if s.pm.absent && s.pm.chainDone then .next { s with pm := { s.pm with absentClearDue := true, aliveRound := roundNo s }, trust := { s.trust with serviceSince := roundNo s } }
  else .next s

/-! ### Self-test (R299) -/

/-- A self-test item has run (R299, R300). -/
def noteTest (k : Nat) (pass : Bool) (s : State) : State :=
  let t := tget {} s.pm.tests k
  { s with pm := { s.pm with tests := tset {} s.pm.tests k { last := roundNo s, result := bit (!pass), fails := min 255 (t.fails + bit (!pass)) } } }

/-- A self-test item's period in Rounds (R293, R299). -/
def testPeriod (k : Nat) (s : State) : Nat :=
  if k = 0 then (if triadMode s = .simplex then 64 else 1024) else if k = 1 then 2 ^ 20 else if k = 2 then 4096 else if k = 3 then 64 else 1

/-- A self-test item is due (R299): it has not run, or its period has passed since it did, or the Round stands before that in which it ran (R42); it runs
on the channels in service. -/
def testDue (k : Nat) (s : State) : Bool :=
  let t := tget {} s.pm.tests k
  triadMode s ≠ .none && (t.result = 2 || decide (roundNo s < t.last) || decide (roundNo s ≥ t.last + testPeriod k s))

/-- CORE_SIG (R293, R299): a channel that differs goes by R291 or R292; a voted signature that is wrong is NONE. -/
def coreSig (wrong : List Nat) (s : State) : State :=
  let live := channels s
  let bad := live.filter wrong.contains
  let s := noteTest 0 bad.isEmpty s
  let s := bad.foldl (fun s c => modChan s c fun x => { x with verified := false }) s
  if bad.isEmpty then live.foldl (fun s c => modChan s c fun x => { x with verified := true }) s
  else if 2 * bad.length > live.length then enterNone 0 s
  else match triadMode s, bad with
    | .triplex, c :: _ => retire c (countMismatch c s)
    | .duplex, _ => if s.pm.diagnosing then s else holdOutputs s
    | _, _ => s

def execCoreSig (wrong : List Nat) (s : State) : Host.Outcome State Fault Refusal := .next (if testDue 0 s then coreSig wrong s else s)

/-- RAM_SCRUB (R299): single-bit errors are corrected and counted; a double-bit error retires its channel by R291. -/
def ramScrub (doubleBit : List Nat) (singleBit : Nat) (s : State) : State :=
  let bad := (channels s).filter doubleBit.contains
  let s := { s with pm := { s.pm with scrubErrors := s.pm.scrubErrors + singleBit } }
  bad.foldl (fun s c => faultLocated c s) (noteTest 1 bad.isEmpty s)

def execRamScrub (doubleBit : List Nat) (s : State) (singleBit : Nat := 0) : Host.Outcome State Fault Refusal :=
  .next (if testDue 1 s then ramScrub doubleBit singleBit s else s)

/-- VOTER_CHECK (R299): a difference that is not masked or held is NONE. -/
def execVoterCheck (masked : Bool) (s : State) : Host.Outcome State Fault Refusal :=
  if !testDue 2 s then .next s
  else
    let s := noteTest 2 masked s
    .next (if masked then s else enterNone 0 s)

/-- ROLL_CHECK (R299): ROLL_FAULT. -/
def execRollCheck (ok : Bool) (s : State) : Host.Outcome State Fault Refusal :=
  if !testDue 3 s then .next s
  else
    let s := noteTest 3 ok s
    .next (if ok then s else alert 0x010C 0 [] s)

/-! ### The health report (R300, R301) -/

/-- The 128 bytes of the health report as it stands now (R300). -/
def healthBytes (s : State) : List Byte :=
  let p := s.pm
  let flag := fun (f : Chan → Bool) => bit (f (chanOf s 0)) + 2 * bit (f (chanOf s 1)) + 4 * bit (f (chanOf s 2))
  let item := fun k => let t := tget {} p.tests k; leBytes 4 t.last ++ leBytes 1 t.result ++ leBytes 1 t.fails ++ zeros 2
  leBytes 3 (srcRef s) ++ leBytes 1 p.role.ctorIdx ++
  leBytes 1 ((triadMode s).ctorIdx + 4 * flag (·.inService) + 32 * flag (·.forGood)) ++
  leBytes 1 (bit p.absent + 2 * bit s.ident.skeleton + 4 * bit p.standing + 8 * bit p.diverged + 16 * bit (p.path1 || p.path2) + 32 * bit p.partnerLost) ++
  leBytes 1 (s.pow.ladder + 8 * s.mer.state.ctorIdx) ++ leBytes 1 (min 255 (recentRestarts s).length) ++ leBytes 8 (roundNo s) ++ leBytes 4 p.epoch ++
  leBytes 2 p.accLost.toNat ++ leBytes 2 p.accErr.toNat ++ ([0, 1, 2].flatMap fun c => leBytes 1 (min 255 (liveRetires s c).length)) ++ zeros 1 ++
  leBytes 4 p.mismatch ++ ([0, 1, 2, 3, 4].flatMap item) ++ zeros 52 ++ leBytes 4 p.healthSeq

/-- What a change of which is sent and reported at once: ROLE, TRIAD_MODE and byte 5 (R301). -/
def healthKey (l : List Byte) : List Byte := [l.getD 3 0, (l.getD 4 0) &&& 3, l.getD 5 0]

/-- The report rebuilt at a boundary (R301); a change is written to the event ring. -/
def rebuildHealth (s : State) : State :=
  if !triadRuns s then s
  else
    let s := { s with pm := { s.pm with healthSeq := (s.pm.healthSeq + 1) % 2 ^ 32 } }
    let now := healthBytes s
    let changed := !s.pm.lastHealth.isEmpty && healthKey now ≠ healthKey s.pm.lastHealth
    let s := { s with pm := { s.pm with lastHealth := now, healthDue := s.pm.healthDue || changed } }
    if changed then report 0x0205 0 (now.take 40) s else s

/-- The report that HEALTH_READ and HEALTH_SEND use. -/
def ownHealth (s : State) : List Byte := if s.pm.lastHealth.isEmpty then healthBytes s else s.pm.lastHealth

/-- The partner module's grid reference (R24, R28). -/
def partnerRef (s : State) : Nat :=
  if s.ident.learned then gridOf s.ident.x s.ident.y s.ident.z (112 + (modIndex s ^^^ 1)) 31 else gridOf 0 0 0 (112 + (modIndex s ^^^ 1)) 31

/-- A roll-call letter to the partner's PM0 (R308). -/
def sendPartner (kind : Nat) (payload : List Byte) (s : State) : State :=
  sendIfPath { blankHeader with dest := partnerRef s, cls := 7, vc := 7, groupOp := kind, raddr := 16 } payload s

/-- HEALTH_SEND (R301): every 64 Rounds, and within 1 Round of a change. -/
def execHealthSend (s : State) : Host.Outcome State Fault Refusal :=
  if triadRuns s && s.pow.ladder ≤ 1 && (s.pm.healthDue || roundNo s ≥ s.pm.healthSentRound + 64) then
    .next (sendPartner 0 (ownHealth s) { s with pm := { s.pm with healthDue := false, healthSentRound := roundNo s } })
  else .next s

/-- HEALTH_LETTER_RECEIVE (R301, R308). -/
def healthLetter (report : List Byte) (s : State) : State := { s with pm := { s.pm with partnerHealth := some (fit 128 report) } }

def execHealthLetterReceive (report : List Byte) (s : State) : Host.Outcome State Fault Refusal := .next (healthLetter report s)

/-- ACC_NOTE_RECEIVE (R308): the last note of an accelerator is kept. -/
def accNote (slot : Nat) (note : List Byte) (s : State) : State :=
  { s with pm := { s.pm with accNotes := tput s.pm.accNotes slot (note.take 256) } }

def execAccNoteReceive (slot : Nat) (note : List Byte) (s : State) : Host.Outcome State Fault Refusal := .next (accNote slot note s)

/-- HEALTH_READ (R301). -/
def healthReadAns (what slot : Nat) (s : State) : Ans :=
  match what with
  | 0 => okWith (ownHealth s) 0 s
  | 1 => match s.pm.partnerHealth with
    | some r => okWith r 0 s
    | none => refuse .notReady s
  | 2 => if slot > 127 then badArg 1 s else match tfind s.pm.accNotes slot with
    | some n => okWith n 0 s
    | none => refuse .notReady s
  | _ => badArg 0 s

def execHealthRead (c : Ctx) (what slot : Nat) (s : State) : Host.Outcome State Fault Refusal := .next (gmiRun c 3 (healthReadAns what slot) s)

/-! ### Roll call (R302–R307) -/

/-- A roll record that parks its link: LEAVING set or LADDER above 0 (R306). -/
def parks (r : RollRecord) : Bool := r.leaving || decide (r.ladder > 0)

/-- A record of the partner is noted (R312): its paths, its absence, and that it is heard again. -/
def partnerHeard (r : RollRecord) (s : State) : State :=
  { s with pm := { s.pm with
      absentSince := if r.lead && r.postmasterAbsent then (match s.pm.absentSince with | some a => some a | none => some (roundNo s)) else none } }

/-- A heartbeat on a path (R312); a partner declared lost is back, and a lead alone has its standby again. -/
def pathAlive (path : Nat) (s : State) : State :=
  { s with pm := { s.pm with
      hb1Round := if path = 1 then roundNo s else s.pm.hb1Round, hb2Round := if path = 2 then roundNo s else s.pm.hb2Round,
      path1 := s.pm.path1 && path ≠ 1, path2 := s.pm.path2 && path ≠ 2, partnerLost := false, takeoverDue := false,
      role := if s.pm.role = .sole then .lead else s.pm.role } }

/-- A link becomes PARKED, its peer reported once (R306). -/
def park (p : Nat) (ladder : Nat) (s : State) : State :=
  if (linkOf s p).parked then s
  else report 0x0208 p [BitVec.ofNat 8 ladder] (modLink s p fun l => { l with parked := true, silent := false })

/-- ROLL_RECEIVE (R305, R306, R312): the link is heard; a silent link whose record parks it passes straight to PARKED. -/
def rollReceive (p : Nat) (r : RollRecord) (s : State) : State :=
  let l := linkOf s p
  if l.disc ≠ .admitted || r.kind > 1 then s
  else
    let s := modLink s p fun l => { l with rollRound := some (roundNo s), peerRoll := some r, silent := false, parkDue := true }
    let s := if l.silent && parks r then park p r.ladder s else s
    if isPeer p then partnerHeard r (pathAlive 1 { s with pm := { s.pm with partnerRoll := some r, partnerLast := some r } }) else s

def execRollReceive (p : Nat) (r : RollRecord) (s : State) : Host.Outcome State Fault Refusal := .next (rollReceive p r s)

/-- PARKED is taken up or left at the boundary after the record (R306). -/
def parkStep (p : Nat) (s : State) : State :=
  let l := linkOf s p
  match (if l.parkDue then l.peerRoll else none) with
  | none => s
  | some r =>
    let s := modLink s p fun l => { l with parkDue := false }
    if parks r then park p r.ladder s else modLink s p fun l => { l with parked := false }

/-- ROLL_WINDOW_EVAL (R305): silent at the boundary of Round n + 4 after a last ROLL in Round n; only in ST0 and ST1. -/
def rollWindow (p : Nat) (s : State) : State :=
  let l := linkOf s p
  if l.disc ≠ .admitted || s.pow.ladder ≥ 2 then s
  else
    let s := parkStep p s
    let l := linkOf s p
    let late := match l.rollRound with | some r => decide (roundNo s ≥ r + 4) | none => true
    if late && !l.parked && !l.silent then report 0x0207 p [] (modLink s p fun l => { l with silent := true, troubleRound := some (roundNo s) }) else s

def execRollWindowEval (p : Nat) (s : State) : Host.Outcome State Fault Refusal := .next (rollWindow p s)

/-- The roll-call engine runs (R302): not in reset, SEAL_HALT or CLOCK_HALT, and not after step 3 of R439. -/
def rollRuns (s : State) : Bool :=
  s.ident.boot ≥ 1 && !s.trust.halt && !s.clk.halt && decide (s.tray.pull < 3) && s.tray.start = .running && !s.clk.pwrReset && !s.clk.rstLow

/-- ROLL_FRAME_SEND (R307): every 500 µs a roll frame is due at the next transmit opportunity. -/
def execRollFrameSend (s : State) : Host.Outcome State Fault Refusal :=
  if rollRuns s && s.mer.ns ≥ s.tray.rollNs + 500000 then .next { s with tray := { s.tray with rollDue := true, rollNs := s.mer.ns } } else .next s

/-- ALIVE_FRAME_SEND (R307, R457): every 100 ms while the firmware runs: bytes 0–31 of the health report. -/
def execAliveFrameSend (s : State) : Host.Outcome State Fault Refusal :=
  if triadRuns s && !s.ident.skeleton && s.ident.boot ≥ 2 && s.mer.ns ≥ s.tray.aliveNs + 100000000 then
    .next (queueFrame 3 0 ((ownHealth s).take 32) { s with tray := { s.tray with aliveNs := s.mer.ns } })
  else .next s

/-! ### Tray lead and standby (R309–R313) -/

/-- TRAY_STEP_RECEIVE (R310): the standby compares both digests; 3 mismatches in a row diverge it, 16 matches in a row clear the flag. -/
def trayStepReceive (round : Nat) (same : Bool) (s : State) : State :=
  if s.pm.role ≠ .standby then s
  else
    let s := noteTest 4 same s
    let p := s.pm
    if same then
      { s with pm := { p with mismatches := 0, matches_ := p.matches_ + 1, diverged := p.diverged && decide (p.matches_ + 1 < 16) } }
    else
      let n := p.mismatches + 1
      let first := if p.mismatches = 0 then round else p.firstMismatch
      let s := { s with pm := { p with mismatches := n, matches_ := 0, firstMismatch := first } }
      if n ≥ 3 && !p.diverged then
        alert 0x010D 0 (leBytes 8 first) { s with pm := { s.pm with diverged := true, copyDue := some (roundNo s + 64), copyAsked := false } }
      else s

def execTrayStepReceive (round : Nat) (inDigest outDigest ownIn ownOut : List Byte) (s : State) : Host.Outcome State Fault Refusal :=
  .next (trayStepReceive round (inDigest = ownIn && outDigest = ownOut) s)

/-- The class 0 letter with TRAY_STATE_READ that asks the partner's PM0 for its tray state (R310, R325): OFFSET 0 and the most a completion holds.
REPLY_ADDR is 0: R325 wants a multiple of 4,096, which names no PM0 (notes/assumptions/148.md). -/
def stateReadLetter (tag : Nat) : List Byte :=
  envelopeBytes { version := 1, auth := .observer, signed := false, opcode := 6, tag := tag % 65536, fragLen := 8, partIndex := 0, partCount := 1, bodyLen := 8,
                  seq := 0, validUntil := 0, target := zeros 16, replyAddr := 0, reservedZero := true } ++ leBytes 4 0 ++ leBytes 4 4064

/-- A copy that is due is asked for over PM0 (R310, R313, R325); without an answer within its 64 Rounds it is asked for again (R329). -/
def askState (s : State) : State :=
  match s.pm.copyDue with
  | none => s
  | some r =>
    let late := decide (roundNo s ≥ r)
    if s.pm.role ≠ .standby || !triadRuns s || (s.pm.copyAsked && !late) then s
    else
      let s := { s with pm := { s.pm with copyAsked := true, copyDue := some (if late then roundNo s + 64 else r) } }
      sendIfPath { blankHeader with dest := partnerRef s, cls := 0, vc := 7, raddr := 16 } (stateReadLetter (roundNo s)) s

/-- STANDBY_STATE_COPY (R310, R313): the lead's tray state. -/
def stateCopy (state : List Byte) (s : State) : State :=
  if s.pm.role = .standby then { s with pm := { s.pm with trayCopy := state, copyDue := none, copyAsked := false } } else s

def execStandbyStateCopy (state : List Byte) (s : State) : Host.Outcome State Fault Refusal := .next (stateCopy state s)

/-- A class 1 letter at PM0, the completion of the module's own TRAY_STATE_READ (R310, R324, R325). -/
def partnerCompletion (l : List Byte) (s : State) : State :=
  if s.pm.copyAsked && fieldAt l 2 2 = 6 && fieldAt l 4 1 = 0 then stateCopy ((l.drop 32).take (fieldAt l 6 2)) s else s

/-- ACC_ERR_ASSERT (R300, R311): ACC_ERR_N[i] has been asserted for 1 µs, or it has deasserted; both modules read the wires. -/
def accErrPin (i : Nat) (asserted : Bool) (s : State) : State :=
  let m : BitVec 16 := BitVec.ofNat 16 (2 ^ i)
  let s := deliverInput (.pin i) s
  { s with pm := { s.pm with
      accErr := if asserted then s.pm.accErr ||| m else s.pm.accErr &&& ~~~m, accBad := tput s.pm.accBad i (roundNo s) } }

def execAccErrAssert (i : Nat) (s : State) (asserted : Bool := true) : Host.Outcome State Fault Refusal := .next (accErrPin i asserted s)

/-- The access link to home accelerator i is roll-silent (R311). -/
def accSilent (s : State) (i : Nat) : Bool := (linkOf s (homeBase s + i)).silent

/-- Home accelerators declared lost at a boundary (R311); the lead reports them. A condition that holds is noted with its Round. -/
def declareLost (s : State) : State :=
  (List.range 16).foldl (fun s i =>
    let s := if s.pm.accErr.getLsbD i || accSilent s i then { s with pm := { s.pm with accBad := tput s.pm.accBad i (roundNo s) } } else s
    if !s.pm.accLost.getLsbD i && (s.pm.accErr.getLsbD i || (s.pm.role ≠ .standby && accSilent s i)) then
      let s := { s with pm := { s.pm with accLost := s.pm.accLost ||| BitVec.ofNat 16 (2 ^ i) } }
      if s.pm.role ≠ .standby then report 0x0209 (homeBase s + i) [] s else s
    else s) s

/-- ACC_BACK (R311): both conditions have been clear for 64 Rounds. -/
def execAccBack (i : Nat) (s : State) : Host.Outcome State Fault Refusal :=
  let m : BitVec 16 := BitVec.ofNat 16 (2 ^ i)
  if s.pm.accLost.getLsbD i && !s.pm.accErr.getLsbD i && !accSilent s i && roundNo s ≥ (tfind s.pm.accBad i).getD 0 + 64 then
    let s := { s with pm := { s.pm with accLost := s.pm.accLost &&& ~~~m } }
    .next (if s.pm.role ≠ .standby then report 0x020A (homeBase s + i) [] s else s)
  else .next s

/-- TRAY_HB_EDGE (R312): a heartbeat on path 2. -/
def execTrayHbEdge (s : State) : Host.Outcome State Fault Refusal := .next (pathAlive 2 s)

/-- The partner is parked in ST2 or lower, as its last roll records say (R312). -/
def partnerParked (s : State) : Bool := rollOut s.pm.partnerLast

/-- A path has been silent for 8 consecutive Rounds of service (R312). -/
def pathSilent (s : State) (path : Nat) : Bool :=
  decide (s.ident.boot ≥ 2) &&
  if path = 1 then !partnerParked s && decide (roundNo s ≥ s.pm.hb1Round + 9) else decide (roundNo s ≥ s.pm.hb2Round + 9)

/-- TRAY_PATH_SILENT (R312): PATH_LOST and TRAY_PATH. -/
def execTrayPathSilent (path : Nat) (s : State) : Host.Outcome State Fault Refusal :=
  let known := if path = 1 then s.pm.path1 else s.pm.path2
  if known || !pathSilent s path then .next s
  else .next (alert 0x010E path [] { s with pm := { s.pm with path1 := s.pm.path1 || path = 1, path2 := s.pm.path2 || path ≠ 1, healthDue := true } })

/-- PARTNER_LOST (R312): both paths silent for 8 Rounds; a standby takes over at the following boundary, a lead is SOLE. -/
def execPartnerLost (s : State) : Host.Outcome State Fault Refusal :=
  if s.pm.partnerLost || !pathSilent s 1 || !pathSilent s 2 then .next s
  else
    let s := { s with pm := { s.pm with partnerLost := true, healthDue := true, path1 := true, path2 := true, lostRound := roundNo s } }
    let waiting : List Ctx := s.pm.trayCaps.filterMap fun x => x.2.2
    let s := { s with pm := { s.pm with trayCaps := [] } }
    let s := waiting.foldl (fun (s : State) (c : Ctx) => complete c 0x600 (okAns s)) s
    .next (if s.pm.role = .standby then { s with pm := { s.pm with takeoverDue := true } }
      else alert 0x010F 0 [] { s with pm := { s.pm with role := .sole } })

/-- The module takes over as lead (R309, R312): LEAD_EPOCH + 1, and every home accelerator is sent its current cap. -/
def takeLead (s : State) : State :=
  let s := { s with pm := { s.pm with role := if s.pm.partnerLost then .sole else .lead, epoch := (s.pm.epoch + 1) % 2 ^ 32, takeoverDue := false,
                                      absentSince := none, healthDue := true } }
  (List.range 16).foldl (fun s i => modAcc s i fun a => { a with due := true }) s

/-- The sender of a roll record with LEAVING has entered the state it announced: two boundaries after the Round of the record (R306, R387). -/
def hasLeft (s : State) (r : RollRecord) : Bool :=
  let d := (roundNo s + 2 ^ 32 - r.roundLo) % 2 ^ 32
  !r.leaving || (2 ≤ d && d < 2 ^ 31)

/-- The lead's roll record calls for a takeover without waiting for silence: SKELETON, or a park in ST2 or lower while this module is in ST0 or
ST1, at the boundary at which the lead enters that state (R312). -/
def leadYields (s : State) : Bool :=
  [s.pm.partnerRoll, s.pm.partnerSideRoll].any fun x => match x with
    | some r => r.lead && (r.skeleton || (decide (r.ladder ≥ 2) && decide (s.pow.ladder ≤ 1) && hasLeft s r))
    | none => false

/-- LEAD_TAKEOVER (R312): at the boundary that follows the one at which the partner was declared lost. -/
def execLeadTakeover (s : State) : Host.Outcome State Fault Refusal :=
  if s.pm.role = .standby && !s.ident.skeleton && ((s.pm.takeoverDue && decide (roundNo s > s.pm.lostRound)) || leadYields s) then .next (takeLead s)
  else .next s

/-- LEAD_ABSENT_TIMEOUT (R312): POSTMASTER_ABSENT shown for 500,000 Rounds. -/
def execLeadAbsentTimeout (s : State) : Host.Outcome State Fault Refusal :=
  match s.pm.absentSince with
  | some r => if s.pm.role = .standby && !s.ident.skeleton && roundNo s ≥ r + 500000 then .next (takeLead s) else .next s
  | none => .next s

/-- A roll record of the partner shows LEAD where this module leads too, and this module is the one that yields (R313). -/
def yieldsTo (s : State) (r : RollRecord) : Bool := r.lead && (r.leadEpoch > s.pm.epoch || (r.leadEpoch = s.pm.epoch && s.clk.posId.getLsbD 0))

/-- Two leads (R313), as the partner's record on either path shows: the lower LEAD_EPOCH, or with equal epochs the module with POS_ID[0] = 1, becomes
standby and copies the tray state. -/
def leadConflict (s : State) : State :=
  if s.pm.role ≠ .standby && !s.pm.partnerLost && [s.pm.partnerRoll, s.pm.partnerSideRoll].any (fun x => match x with | some r => yieldsTo s r | none => false) then
    { s with pm := { s.pm with role := .standby, copyDue := some (roundNo s + 64), copyAsked := false, healthDue := true } }
  else s

/-! ### Standing orders (R314–R316) -/

/-- Both managers have been silent for 2 s (R314). -/
def managersSilent (s : State) : Bool := s.mer.ns ≥ s.pm.rackHeard + 2000000000 && s.mer.ns ≥ s.pm.fabHeard + 2000000000

/-- STANDING_ORDERS_ENTER (R314): evaluated when a restart has completed. -/
def execStandingOrdersEnter (s : State) : Host.Outcome State Fault Refusal :=
  if !s.pm.standing && !s.pm.absent && managersSilent s then
    .next (report 0x0330 1 [] { s with pm := { s.pm with standing := true, standingExitDue := none, healthDue := true } })
  else .next s

/-- STANDING_ORDERS_EXIT (R316): at the first boundary after an arrival that R314 counts; DETAIL names the manager, 0 rack and 1 fabric. -/
def execStandingOrdersExit (s : State) : Host.Outcome State Fault Refusal :=
  match s.pm.standingExitDue with
  | some w =>
    if s.pm.standing && boundarySince s.pm.standingRound s then .next (report 0x0330 0 [BitVec.ofNat 8 w] { s with pm := { s.pm with standing := false, standingExitDue := none, healthDue := true } })
    else .next s
  | none => .next s

/-! ### The timer set (R317) -/

/-- OWNER_ID of a timer (R332). -/
def timerOwner (t : Nat) (x : Timer) : Nat := x.cls.ctorIdx * 2 ^ 16 + t

/-- The entry with the least key. -/
def leastBy (key : Nat × Timer → Nat) (l : List (Nat × Timer)) : Option (Nat × Timer) :=
  l.foldl (fun b x => match b with
    | none => some x
    | some y => if key x < key y then some x else some y) none

/-- A timer is given to a claim. -/
def giveTimer (t : Nat) (cls : ClaimClass) (rounds : Nat) (s : State) : State :=
  { s with pm := { s.pm with timers := tput s.pm.timers t { cls := cls, expiry := roundNo s + rounds, order := s.pm.timerOrder },
                             timerOrder := s.pm.timerOrder + 1, timerAns := some (.ok, 14, cls.ctorIdx * 2 ^ 16 + t) } }

/-- The lowest class present among the timers (R317): 3 capture, 2 diagnostics, 1 data service, 0 protection. -/
def lowestClass (s : State) : Nat := (s.pm.timers.map fun x => x.2.cls.ctorIdx).foldl max 0

/-- TIMER_CLAIM (R317): a free timer, or for protection the most recent of the lowest class; else BUSY_CLAIMED naming the soonest. -/
def timerClaim (cls : ClaimClass) (rounds : Nat) (s : State) : State :=
  let busyAns := match leastBy (fun x => x.2.expiry) s.pm.timers with
    | some (t, x) => { s with pm := { s.pm with timerAns := some (.busyClaimed, 14, timerOwner t x) } }
    | none => s
  match (List.range 64).find? fun t => (tfind s.pm.timers t).isNone with
  | some t => giveTimer t cls rounds s
  | none =>
    let low := lowestClass s
    if cls ≠ .protection || low = 0 then busyAns
    else match leastBy (fun x => 2 ^ 64 - x.2.order) (s.pm.timers.filter fun x => x.2.cls.ctorIdx = low) with
      | some (t, x) =>
        let s := report 0x0206 t [BitVec.ofNat 8 x.cls.ctorIdx] s
        giveTimer t cls rounds { s with pm := { s.pm with timerTold := some (.busyClaimed, 7, t) } }
      | none => busyAns

def execTimerClaim (cls : ClaimClass) (rounds : Nat) (s : State) : Host.Outcome State Fault Refusal := .next (timerClaim cls rounds s)

/-- TIMER_EXPIRY (R297, R317): delivered at a boundary, after a restart where it fell due in one. -/
def execTimerExpiry (t : Nat) (s : State) : Host.Outcome State Fault Refusal :=
  match tfind s.pm.timers t with
  | some x => if roundNo s ≥ x.expiry && !s.pm.absent then
      .next (deliverInput (.timer t) { s with pm := { s.pm with timers := tdel s.pm.timers t, expired := s.pm.expired ++ [t] } })
    else .next s
  | none => .next s

end Sys2Proof.Machine
end

