-- ==== Sys2Proof/Machine/Telemetry.lean ====
section
/-! DEFINITION. Telemetry and counters (spec/16): timed actions (R47, R51, R52), reads and snapshots, programmable counters, contour maps,
detail sets, sampling and the telemetry ring. -/

namespace Sys2Proof.Machine

/-! ### Timed actions (R47, R51, R52) -/

/-- Why a timed action that names its Round is refused: timed service is off (R47), or the Round is too near (R52). -/
def timedRefusal (atRound : Nat) (s : State) : Option Status :=
  if atRound < roundNo s + 2 then some .badArgument else if !s.mer.timed then some .notReady else none

/-- The boundary that a COMMIT naming none takes; a deferral is counted in MER_DEFERRED (R51, R55). -/
def takeBoundary (s : State) : Nat × State :=
  if nextSlotted s = roundNo s + 1 then (roundNo s + 1, s)
  else (nextSlotted s, cnt1 15 { s with mer := { s.mer with deferred := s.mer.deferred + 1 } })

/-! ### The telemetry ring (R427) -/

/-- Records not yet consumed. -/
def teleUnread (s : State) : Nat := (s.tele.produce + 2 ^ 32 - s.cxl.teleConsume % 2 ^ 32) % 2 ^ 32

/-- FILL_MARK as it acts: 0 means 32 (R428). -/
def fillMark (s : State) : Nat := if s.tele.cfg.fillMark = 0 then 32 else s.tele.cfg.fillMark

/-- A record for the telemetry ring, written while the CXL link is up and dropped where 63 are unread. -/
def putTele (kind : Nat) (data : List Byte) (s : State) : State :=
  if !cxlUp s then s
  else
    let r : TeleRec := { seq := s.tele.seq, kind := kind, round := roundNo s, data := fit 48 data }
    let n := teleUnread s
    if n ≥ 63 then
      cnt1 19 { s with tele := { s.tele with lost := (s.tele.lost + 1) % 2 ^ 32, seq := (s.tele.seq + 1) % 2 ^ 32 } }
    else
      let s := { s with tele := { s.tele with
        seq := (s.tele.seq + 1) % 2 ^ 32, produce := (s.tele.produce + 1) % 2 ^ 32, ring := (s.tele.ring ++ [r]).drop ((s.tele.ring.length + 1) - 63) } }
      if n + 1 = fillMark s then raiseVec 5 s else s

/-- The 64 bytes of a telemetry record. -/
def teleBytes (r : TeleRec) : List Byte := leBytes 4 r.seq ++ leBytes 1 r.kind ++ zeros 3 ++ leBytes 8 r.round ++ fit 48 r.data

/-! ### Reading and snapshots (R415, R416) -/

/-- COUNTER_READ in MODE 0 and 1; MODE 2 is COUNTER_READ_ARM. -/
def counterReadAns (first count mode : Nat) (s : State) : Ans :=
  if count = 0 || count > 507 then badArg 4 s
  else if mode ≥ 2 then badArg 6 s
  else if first + count > 0x80000 then badArg 0 s
  else if mode = 1 && !s.tele.snapValid then refuse .notReady s
  else
    let t := if mode = 0 then s.tele.cnt else s.tele.snap
    okWith (leBytes 8 (if mode = 0 then roundNo s else s.tele.snapRound) ++
      (List.range count).flatMap fun i => leBytes 8 (tget 0 t (first + i))) 4 s

def execCounterRead (c : Ctx) (first count mode : Nat) (s : State) : Host.Outcome State Fault Refusal :=
  .next (gmiRun c 0x0702 (counterReadAns first count mode) s)

/-- COUNTER_READ in MODE 2, with manager authority: the snapshot is armed, in place of one not yet taken (R415, R416). -/
def counterArmAns (c : Ctx) (first count atRound : Nat) (s : State) : Ans :=
  if authCode (granted s c) < 2 then refuse .notPermitted s
  else if count = 0 || count > 507 then badArg 4 s
  else if first + count > 0x80000 then badArg 0 s
  else if atRound = 0 then okAns { s with tele := { s.tele with snapArmed := some (nextSlotted s) } }
  else match timedRefusal atRound s with
    | some .badArgument => badArg 8 s
    | some st => refuse st s
    | none => okAns { s with tele := { s.tele with snapArmed := some atRound } }

def execCounterReadArm (c : Ctx) (first count atRound : Nat) (s : State) : Host.Outcome State Fault Refusal :=
  .next (gmiRun c 0x0702 (counterArmAns c first count atRound) s)

/-- Occurrences of a sampled event at an office (R425): 1 BACK_PRESS, 3 SATURATION, 4 NAN. -/
def noteEvent (o kind n : Nat) (s : State) : State :=
  if s.tele.sampleMode = 2 && s.tele.sampleEvent = kind && s.tele.sampleOffices.getLsbD o then
    modOffice s o fun x => { x with eventCount := x.eventCount + n }
  else s

/-- `n` slots of a clocked clerk that issue nothing (R423): STARVED_FRONT without a bundle; STARVED_BACK and BACK_PRESS while it waits for the
press. -/
def idleSlots (n k : Nat) (s : State) : State :=
  let x := clerkOf s k
  if x.bundle.isNone then cntAdd (idClerk 2 k) n s
  else if x.waiting then noteEvent (k / 32) 1 n (cntAdd (idClerk 6 k) n (cntAdd (idClerk 3 k) n s))
  else s

/-- The clerks of the offices whose clocks run (R238). -/
def clockedClerks (s : State) : List Nat :=
  if s.pow.ladder ≠ 0 then [] else ((List.range 8).filter fun o => (officeOf s o).state = .ready).flatMap fun o => (List.range 32).map (32 * o + ·)

/-- `n` core cycles are counted, while the core domain runs (R413 ID 0, R417 SEL 0), and the slots of clerks that issue nothing in them. -/
def countCycles (n : Nat) (s : State) : State :=
  if s.pow.ladder ≤ 2 then (clockedClerks s).foldl (fun s k => idleSlots n k s) (pcntSel 0 n (fun _ => true) (cntAdd 0 n s)) else s

/-- The snapshot armed for the boundary that comes (R416, R473): every counter is copied as it stands at the end of the Round, the `left` cycles that
are left of it counted, and SNAP_TAKEN is posted. -/
def takeSnapshot (left : Nat) (s : State) : State :=
  match s.tele.snapArmed with
  | none => s
  | some n =>
    if n > roundNo s + 1 then s
    else
      let s := logTimed 0x0702 s
      let e := (countCycles left s).tele
      report 0x0322 0 (leBytes 8 n) { s with tele := { s.tele with
        snap := e.cnt, snapPcnt := e.pcnt, snapArmed := none, snapValid := true, snapRound := n } }

/-- SNAPSHOT_TAKE (R416, R473): before item 1 of the armed boundary, which is in the last core cycle of the Round. -/
def execSnapshotTake (s : State) : Host.Outcome State Fault Refusal :=
  .next (if cyclesLeft s ≤ 1 then takeSnapshot (cyclesLeft s) s else s)

/-! ### Programmable counters (R417, R418, R431) -/

/-- PCNT[k] written by DIAG_WRITE: the value takes effect at the next boundary. -/
def pcntWriteAns (k value : Nat) (s : State) : Ans := okAns (setPcnt s k { pcntOf s k with pendingValue := some (value % 2 ^ 32) })

def execPcntWrite (c : Ctx) (k : Nat) (value : Word) (s : State) : Host.Outcome State Fault Refusal :=
  .next (gmiRun c 0x801 (pcntWriteAns k value.toNat) s)

/-- The largest ARG of a selector (R431). -/
def argMax (sel : Nat) : Nat := if sel = 4 || sel = 5 then 7 else if sel = 6 || sel = 7 then 1 else 255

/-- PCNT_CTL[k] written: SEL, ARG and ID are checked, reserved bits and an even counter's CHAIN are dropped, and the word takes effect at
the next boundary; OVF is cleared there where a 1 was written to it, by this write or an earlier one of the Round (R10). -/
def pcntCtlAns (k : Nat) (value : BitVec 64) (s : State) : Ans :=
  let v := value.toNat
  let sel := bitsOf v 7 4
  if (9 ≤ sel && sel ≤ 14) || decide (bitsOf v 15 8 > argMax sel) || decide (bitsOf v 51 32 ≥ 0x80000) then badArg 8 s
  else
    let keep : BitVec 64 := if k % 2 = 1 then 0x000FFFFF0007FFFF else 0x000FFFFF0007FFFD
    let x := pcntOf s k
    okAns (setPcnt s k { x with pendingCtl := some ((value &&& keep) ||| (x.pendingCtl.getD 0 &&& 4)) })

def execPcntCtlWrite (c : Ctx) (k : Nat) (value : Word64) (s : State) : Host.Outcome State Fault Refusal :=
  .next (gmiRun c 0x801 (pcntCtlAns k value) s)

/-- What a boundary does to a programmable counter: writes of the Round before take effect (R417). -/
def pcntBoundary (x : Pcnt) : Pcnt :=
  { x with value := x.pendingValue.getD x.value, pendingValue := none,
           ctl := match x.pendingCtl with | some c => c &&& 0xFFFFFFFFFFFFFFFB | none => x.ctl,
           ovf := match x.pendingCtl with | some c => x.ovf && !c.getLsbD 2 | none => x.ovf,
           pendingCtl := none }

/-- PCNT_WRAP (R418): the counter counts on from its value to 2³² and wraps. -/
def pcntWrap (k : Nat) (s : State) : State :=
  let x := pcntOf s k
  if !pcEn x || pcOddChained k x then s
  else
    let (post, s) := pcntCount k (2 ^ 32 - x.value) s
    if post then report 0x0321 k [] s else s

def execPcntWrap (k : Nat) (s : State) : Host.Outcome State Fault Refusal := .next (pcntWrap k s)

/-! ### Contour maps (R419, R420) -/

/-- The level of a contour cell from its peak (R419). -/
def contourLevel (peak : Nat) : Nat := if peak < 8 then 0 else min 15 (Nat.log2 peak - 2)

/-- The 1,088 bytes of a contour record (R420). -/
def contourBytes (r : Contour) : List Byte :=
  leBytes 8 r.round ++ leBytes 3 r.gridRef ++ leBytes 1 (bit r.absent + 2 * bit r.skeleton + 4 * bit r.partialPeriod) ++ leBytes 4 r.seq ++
  leBytes 2 r.rounds ++ leBytes 2 r.slowSent ++ zeros 44 ++
  (List.range 256).flatMap fun p => leBytes 4 (sumNat ((List.range 8).map fun v => 2 ^ (4 * v) * tget 0 r.levels (8 * p + v)))

/-- A cell of two is the higher, ties by lower port and then lower VC (R427). -/
def higherCell (a b : Nat × Nat) : Bool := a.2 > b.2 || (a.2 = b.2 && decide (a.1 ≤ b.1))

/-- The eight highest cells of a contour, highest first; cells of level 0 fill up from port 0 (R427). -/
def topCells (levels : Tbl Nat) : List (Nat × Nat) :=
  let listed := (sortBy higherCell levels).take 8
  listed ++ (((List.range 16).filter fun k => tget 0 levels k = 0).map fun k => (k, 0)).take (8 - listed.length)

/-- The cells' bytes in a CONTOUR_PEAK record: port, VC and level, a reserved byte. -/
def peakBytes (l : List (Nat × Nat)) : List Byte := l.flatMap fun x => leBytes 1 (x.1 / 8) ++ leBytes 1 (x.1 % 8 + 16 * x.2) ++ [0]

/-- The contour letter of R420, sent in ST0 and ST1 where there is a path. -/
def contourLetter (r : Contour) (s : State) : State :=
  if !s.tele.cfg.contourEn || decide (s.pow.ladder > 1) then s
  else
    let h := { blankHeader with dest := s.tele.cfg.contourDest, cls := 5, vc := 7, groupOp := 0x0701,
                                raddr := s.tele.cfg.contourBase + 4096 * (r.seq % 16) }
    match sendOwn h 0 (contourBytes r) none s with
    | some (_, s') => cnt1 17 s'
    | none => cnt1 18 s

/-- CONTOUR_PERIOD_CLOSE (R420): at a boundary whose Round number mod 64 is 0 the record is built, kept, posted and peaks start anew. -/
def closeContour (s : State) : State :=
  if roundNo s % 64 ≠ 0 || s.tele.periodRounds = 0 || decide (s.pow.ladder > 2) then s
  else
    let levels : Tbl Nat := s.tele.peaks.foldl (fun (t : Tbl Nat) (x : Nat × Nat) => tset 0 t x.1 (contourLevel x.2)) []
    let r : Contour := { round := roundNo s, gridRef := srcRef s, absent := s.pm.absent, skeleton := s.ident.skeleton,
                         partialPeriod := decide (s.tele.periodRounds < 64), seq := s.tele.contourSeq, rounds := min 65535 s.tele.periodRounds,
                         slowSent := min 65535 (cntOf s 4 - s.tele.slowAtClose), levels := levels }
    let s := { s with tele := { s.tele with
      contours := (r :: s.tele.contours).take 2, contourSeq := (s.tele.contourSeq + 1) % 2 ^ 32, peaks := [], periodRounds := 0,
      slowAtClose := cntOf s 4 } }
    putTele 2 (leBytes 4 r.seq ++ peakBytes (topCells levels)) (contourLetter r s)

def execContourPeriodClose (s : State) : Host.Outcome State Fault Refusal := .next (closeContour s)

/-- CONTOUR_READ: the latest record, or the one before; NOT_READY while it has not been built. -/
def contourReadAns (which : Nat) (s : State) : Ans :=
  if which > 1 then badArg 0 s
  else match s.tele.contours[which]? with
    | some r => okWith (contourBytes r) 0 s
    | none => refuse .notReady s

def execContourRead (c : Ctx) (which : Nat) (s : State) : Host.Outcome State Fault Refusal := .next (gmiRun c 0x0701 (contourReadAns which) s)

/-! ### The telemetry settings (R428) -/

/-- SNAP_PERIOD as it acts: 0 means 1,024. -/
def snapPeriod (s : State) : Nat := if s.tele.cfg.snapPeriod = 0 then 1024 else s.tele.cfg.snapPeriod

/-- COUNTER_SNAP_RECORD (R428): at every boundary whose Round number mod SNAP_PERIOD is 0, once. -/
def counterSnap (s : State) : State :=
  if !s.tele.cfg.snapEn || roundNo s % snapPeriod s ≠ 0 || decide (s.pow.ladder > 2) || s.tele.ring.any (fun r => r.kind = 0 && r.round = roundNo s) then s
  else putTele 0 (s.tele.cfg.snapIds.flatMap fun i => leBytes 8 (cntOf s i)) s

def execCounterSnapRecord (s : State) : Host.Outcome State Fault Refusal := .next (counterSnap s)

/-- TELE_CFG (R428): its fields are checked; it takes effect at the next boundary. -/
def teleCfgAns (t : TeleCfg) (s : State) : Ans :=
  if t.fillMark > 62 then badArg 1 s
  else if t.snapPeriod ≠ 0 && (t.snapPeriod < 64 || t.snapPeriod > 65535) then badArg 2 s
  else if unitPart t.contourDest = 31 then badArg 4 s
  else if t.contourBase % 4096 ≠ 0 then badArg 8 s
  else match t.snapIds.findIdx? (fun i => decide (i ≥ 0x80000)) with
    | some i => badArg (16 + 4 * i) s
    | none => okAns { s with tele := { s.tele with cfgNext := some { t with reservedZero := true } } }

def execTeleCfg (c : Ctx) (t : TeleCfg) (s : State) : Host.Outcome State Fault Refusal := .next (gmiRun c 0x0700 (teleCfgAns t) s)

/-! ### Detail sets (R421, R422) -/

/-- The detail phase that a port is in: 0 start-up, 1 test, 2 recovery (R421). -/
def detailPhase (s : State) (p : Nat) : Option Nat :=
  let l := linkOf s p
  if l.disc ≠ .admitted || !s.ident.learned then some 0
  else if s.sw.testPorts.contains p || l.released ≠ 0 || s.pow.ladder = 1 then some 1
  else if s.pm.standing || (match l.troubleRound with | some r => decide (roundNo s ≤ r + 2 ^ 20) | none => false) then some 2
  else none

/-- Engine e's state. -/
def detailOf (s : State) (e : Nat) : Detail := tget {} s.tele.details e

def setDetail (e : Nat) (d : Detail) (s : State) : State := { s with tele := { s.tele with details := tset {} s.tele.details e d } }

/-- An engine runs or starts at the next boundary. -/
def detailTaken (d : Detail) : Bool := d.running || d.startDue

/-- DETAIL_SET with OP start (R422). -/
def detailStartAns (port duration : Nat) (s : State) : Ans :=
  if port > 255 then badArg 2 s
  else match detailPhase s port with
    | none => refuse .notReady s
    | some ph =>
      if s.tele.details.any (fun x => detailTaken x.2 && x.2.port = port) then busy 6 port s
      else match (List.range 16).find? (fun e => !detailTaken (detailOf s e)) with
        | none =>
          let first := s.tele.details.foldl (fun (b : Option Detail) (x : Nat × Detail) =>
            match b with | some d => if x.2.order < d.order then some x.2 else b | none => some x.2) none
          busy 6 ((first.map (·.port)).getD 0) s
        | some e =>
          let s := setDetail e { port := port, startDue := true, phase := ph, duration := duration, order := s.tele.detailOrder } s
          okWith (leBytes 1 e) 0 { s with tele := { s.tele with detailOrder := s.tele.detailOrder + 1 } }

def execDetailStart (c : Ctx) (port duration : Nat) (s : State) : Host.Outcome State Fault Refusal :=
  .next (gmiRun c 0x0703 (detailStartAns port duration) s)

/-- DETAIL_SET with OP stop: the engine stops at the next boundary. -/
def detailStopAns (engine : Nat) (s : State) : Ans :=
  if engine > 15 then badArg 1 s
  else if detailTaken (detailOf s engine) then okAns (setDetail engine { detailOf s engine with stopDue := true } s)
  else okAns s

def execDetailStop (c : Ctx) (engine : Nat) (s : State) : Host.Outcome State Fault Refusal := .next (gmiRun c 0x0703 (detailStopAns engine) s)

/-- An engine stops, keeps its values and posts DETAIL_ENDED with its cause: 0 command, 1 duration, 2 phase (R422, R432). -/
def endDetail (e cause : Nat) (s : State) : State :=
  let d := detailOf s e
  report 0x0320 e (leBytes 2 d.port ++ leBytes 1 cause) (setDetail e { d with running := false, startDue := false, stopDue := false } s)

/-- Why a running engine is to stop at this boundary. -/
def detailEndCause (e : Nat) (s : State) : Option Nat :=
  let d := detailOf s e
  if !d.running then none
  else if d.stopDue then some 0
  else if d.duration ≠ 0 && decide (roundNo s ≥ d.started + d.duration) then some 1
  else if (detailPhase s d.port).isNone then some 2
  else none

/-- DETAIL_ENGINE_END (R422). -/
def execDetailEngineEnd (e : Nat) (s : State) : Host.Outcome State Fault Refusal :=
  match detailEndCause e s with
  | some k => .next (endDetail e k s)
  | none => .next s

/-- What a boundary does to an engine: it stops where a cause holds, and a start clears its counters and begins (R412, R422). -/
def detailBoundary (e : Nat) (s : State) : State :=
  let d := detailOf s e
  match detailEndCause e s with
  | some k => endDetail e k s
  | none =>
  if d.startDue && d.stopDue then endDetail e 0 s
  else if d.startDue then
    let s := (List.range 70).foldl (fun s n => { s with tele := { s.tele with cnt := tset 0 s.tele.cnt (idDetail n e) 0 } }) s
    setDetail e { d with startDue := false, running := true, started := roundNo s } s
  else { s with tele := { s.tele with details := tset {} s.tele.details e { d with phase := (detailPhase s d.port).getD d.phase } } }

/-! ### Sampling (R425, R426) -/

/-- SAMPLE_CFG (R425). -/
def sampleCfgAns (mode event : Nat) (offices : BitVec 8) (toCapture : Bool) (period : Nat) (s : State) : Ans :=
  if mode > 2 then badArg 0 s
  else if event > 4 then badArg 1 s
  else if period < 1024 || period > 16777216 then badArg 4 s
  else okAns { s with tele := { s.tele with sampleNext := some (mode, event, offices, toCapture, period) } }

def execSampleCfg (c : Ctx) (mode event : Nat) (offices : BitVec 8) (toCapture : Bool) (period : Nat) (s : State) :
    Host.Outcome State Fault Refusal := .next (gmiRun c 0x0704 (sampleCfgAns mode event offices toCapture period) s)

/-- A setting of SAMPLE_CFG or TELE_CFG takes effect at the boundary. -/
def teleBoundary (s : State) : State :=
  let t := s.tele
  let t := match t.sampleNext with
    | some (m, e, o, c, p) =>
      { t with sampleMode := m, sampleEvent := e, sampleOffices := o, sampleCapture := c, samplePeriod := p, sampleNext := none }
    | none => t
  { s with tele := { t with cfg := t.cfgNext.getD t.cfg, cfgNext := none, periodRounds := t.periodRounds + 1 } }

/-- Bytes 16–63 of a CLERK_SAMPLE record (R427). -/
def sampleBytes (k skid : Nat) (skidEnd : Bool) (instr : Word64) (b : Bundle) (pc : Nat) (foreign : Bool) (s : State) : List Byte :=
  leBytes 2 k ++ leBytes 2 b.group ++ leBytes 2 b.step ++ leBytes 2 b.index ++ leBytes 1 (b.prog % 64 + 64 * bit b.retry + 128 * bit foreign) ++
  leBytes 1 (s.tele.sampleMode + 4 * s.tele.sampleEvent + 32 * bit skidEnd) ++ leBytes 2 (pc % 8192) ++ leBytes 1 skid ++ zeros 3 ++
  leBytes 8 instr.toNat ++ leBytes 2 s.mer.cycle ++ zeros 22

/-- The office has taken no sample for 1,024 cycles (R425). -/
def sampleAllowed (s : State) (o : Nat) : Bool :=
  match (officeOf s o).sampleNs with
  | some t => decide ((s.mer.ns - t) * 100 ≥ 65536)
  | none => true

/-- A sample of the clerk is due: its issued count has reached PERIOD, or its office has met EVENT PERIOD times (R425). -/
def sampleDue (s : State) (k : Nat) : Bool :=
  let o := k / 32
  s.tele.sampleOffices.getLsbD o &&
    (if s.tele.sampleMode = 1 then decide ((clerkOf s k).sinceSample ≥ s.tele.samplePeriod)
     else s.tele.sampleMode = 2 && decide ((officeOf s o).eventCount ≥ s.tele.samplePeriod))

/-- CLERK_SAMPLE (R425, R426): the sample of the instruction last issued is taken or suppressed; a period sample's SKID is 0. -/
def clerkSample (k skid : Nat) (skidEnd : Bool) (instr : Word64) (s : State) : State :=
  let o := k / 32
  if !sampleDue s k then s
  else match (clerkOf s k).last with
    | none => s
    | some (b, pc, foreign) =>
      let s := if s.tele.sampleMode = 1 then modClerk s k fun x => { x with sinceSample := 0 }
        else modOffice s o fun x => { x with eventCount := 0 }
      if !sampleAllowed s o || (s.tele.sampleCapture && decide (captureFree s < 112)) then cnt1 (idOffice 14 o) s
      else
        let data := sampleBytes k (if s.tele.sampleMode = 1 then 0 else skid) (s.tele.sampleMode = 2 && skidEnd) instr b pc foreign s
        let s := modOffice s o fun x => { x with sampleNs := some s.mer.ns }
        if s.tele.sampleCapture then putRecord 3 0 false 0 0 s.mer.ns data s else putTele 1 data s

def execClerkSample (k skid : Nat) (skidEnd : Bool) (instr : Word64) (s : State) : Host.Outcome State Fault Refusal :=
  .next (clerkSample k skid skidEnd instr s)

end Sys2Proof.Machine
end

