-- ==== Sys2Proof/Machine/Caps.lean ====
section
/-! DEFINITION. CAP_SET and the cap terms passed between the two modules of a tray (R308, R394). -/

namespace Sys2Proof.Machine

/-! ### CAP_SET and the tray (R394) -/

/-- A term set: 0 RACK, 1 FABRIC, 2 HOST. -/
def setTerm (term v : Nat) (t : Terms) : Terms :=
  if term = 0 then { t with rack := v } else if term = 1 then { t with fabric := v } else { t with host := v }

/-- A cap term applied to its scope (R394). -/
def applyCap (c : TimedCap) (s : State) : State :=
  if c.scope = 0 then { s with pow := { s.pow with terms := setTerm c.term c.permille s.pow.terms } }
  else if c.scope = 1 then modAcc s c.index fun a => { a with terms := setTerm c.term c.permille a.terms }
  else (List.range 16).foldl (fun s i => modAcc s i fun a => { a with terms := setTerm c.term c.permille a.terms }) s

/-- The fields of a CAP_SET: the offset of the first that fails. -/
def capFields (scope index permille : Nat) : Option Nat :=
  if scope > 2 then some 0
  else if index > 15 || (scope ≠ 1 && index ≠ 0) then some 1
  else if permille < 100 || permille > 1000 then some 2
  else none

/-- The 32 payload bytes of a TRAY_CAP or TRAY_CAP_ACK (R308). -/
def trayCapBytes (r : TrayCap) (st : Status) : List Byte :=
  leBytes 1 r.scope ++ leBytes 1 r.index ++ leBytes 2 r.permille ++ leBytes 1 r.term ++ zeros 3 ++ leBytes 8 r.atRound ++ leBytes 2 r.tag ++
  leBytes 1 (statusCode st) ++ zeros 13

/-- A cap waits for its boundary: the one named, or that of R51. -/
def queueCap (scope index permille term atRound : Nat) (s : State) : State :=
  { s with pow := { s.pow with timedCaps := s.pow.timedCaps ++
      [{ round := if atRound = 0 then nextSlotted s else atRound, timed := decide (atRound ≠ 0), term := term, scope := scope, index := index,
         permille := permille }] } }

/-- CAP_SET (R394): the box selects the term; SCOPE 1 and 2 go on to the partner, and the command completes with its answer. -/
def capSetAns (c : Ctx) (scope index permille atRound : Nat) (s : State) : Ans :=
  let term := if isSb c.box then 0 else if isFm c.box then 1 else 2
  if s.pm.standing && isHb c.box then refuse .notReady s
  else match capFields scope index permille with
    | some d => badArg d s
    | none =>
      match (if atRound = 0 then none else timedRefusal atRound s) with
        | some .badArgument => badArg 8 s
        | some st => refuse st s
        | none =>
          let s := queueCap scope index permille term atRound s
          if scope = 0 || s.pm.partnerLost then okAns s
          else
            let r : TrayCap := { scope := scope, index := index, permille := permille, term := term, atRound := atRound, tag := c.tag }
            let s := sendPartner 3 (trayCapBytes r .ok) { s with pm := { s.pm with trayCaps := s.pm.trayCaps ++ [(r, roundNo s, some c)] } }
            { okAns s with later := true }

def execCapSet (c : Ctx) (scope index permille atRound : Nat) (_reservedZero : Bool) (s : State) : Host.Outcome State Fault Refusal :=
  .next (gmiRun c 0x600 (capSetAns c scope index permille atRound) s)

/-- TIMED_CAP_DUE (R394): caps whose boundary has come are applied; with timed service off a timed one is logged (R47). Under standing
orders caps hold at their present values (R315), and what waits is applied after the exit. -/
def capsDue (s : State) : State :=
  if s.pm.standing then s
  else
  let due := s.pow.timedCaps.filter fun c => c.round ≤ roundNo s
  let s := { s with pow := { s.pow with timedCaps := s.pow.timedCaps.filter fun c => c.round > roundNo s } }
  due.foldl (fun s c => applyCap c (if c.timed then logTimed 0x0600 s else s)) s

def execTimedCapDue (s : State) : Host.Outcome State Fault Refusal := .next (capsDue s)

/-- TRAY_CAP_RECEIVE (R394): the term is set as if the command had arrived at the module's own box of that kind, and the answer sent: SKELETON in
skeleton service, as every command of a box but two has it (R445). While the Triad does not run there is no answer, and the record comes again. -/
def trayCapReceive (r : TrayCap) (s : State) : State :=
  if s.ident.skeleton then sendPartner 4 (trayCapBytes r .skeleton) s
  else if !triadRuns s then s
  else
    let (st, s) : Status × State :=
      if (capFields r.scope r.index r.permille).isSome || r.scope = 0 || r.term > 2 then (.badArgument, s)
      else if s.pm.standing && r.term = 2 then (.notReady, s)
      else match (if r.atRound = 0 then none else timedRefusal r.atRound s) with
        | some st => (st, s)
        | none => (.ok, queueCap r.scope r.index r.permille r.term r.atRound s)
    sendPartner 4 (trayCapBytes r st) s

def execTrayCapReceive (r : TrayCap) (s : State) : Host.Outcome State Fault Refusal := .next (trayCapReceive r s)

/-- TRAY_CAP_ACK_RECEIVE (R394): the command that waits for this answer completes with its status. -/
def trayCapAck (r : TrayCap) (status : Status) (s : State) : State :=
  match s.pm.trayCaps.find? fun x => x.1 = r with
  | none => s
  | some x =>
    let s := { s with pm := { s.pm with trayCaps := s.pm.trayCaps.erase x } }
    match x.2.2 with
    | some c => complete c 0x600 (refuse status s)
    | none => s

def execTrayCapAckReceive (r : TrayCap) (status : Status) (s : State) : Host.Outcome State Fault Refusal := .next (trayCapAck r status s)

/-- TRAY_CAP_RESEND (R394): every 2 Rounds until it is answered. -/
def execTrayCapResend (tag : Nat) (s : State) : Host.Outcome State Fault Refusal :=
  match s.pm.trayCaps.find? fun x => x.1.tag = tag && roundNo s ≥ x.2.1 + 2 with
  | none => .next s
  | some x => .next (sendPartner 3 (trayCapBytes x.1 .ok) { s with pm := { s.pm with
      trayCaps := s.pm.trayCaps.map fun y => if y = x then (x.1, roundNo s, x.2.2) else y } })

end Sys2Proof.Machine
end

