-- ==== Sys2Proof/Machine/Boxes.lean ====
section
/-! DEFINITION. What a post box does with a letter that the reorder unit delivers to it (R133, R139, R308, R325). -/

namespace Sys2Proof.Machine

/-- The post box that RADDR names (R133). -/
def letterBox (n : Nat) : Option Box :=
  if 8 ≤ n && n ≤ 11 then some (.fm (n - 8)) else if n = 16 then some .pm else if 128 ≤ n && n ≤ 255 then some (.ap (n - 128)) else none

/-- The status that a code spells. -/
def statusOf (n : Nat) : Status :=
  [.ok, .busyClaimed, .drainRequired, .notReady, .refusedSignature, .staleSequence, .badArgument, .notPermitted, .skeleton, .noHoldup, .memberMissing,
    .incomplete, .overflowReturned, .lateDiscard].getD n .ok

/-- The cap term that a TRAY_CAP or TRAY_CAP_ACK carries (R308). -/
def trayCapOf (l : List Byte) : TrayCap :=
  { scope := fieldAt l 0 1, index := fieldAt l 1 1, permille := fieldAt l 2 2, term := fieldAt l 4 1 % 4, atRound := fieldAt l 8 8, tag := fieldAt l 16 2 }

/-- A roll-call letter by its kind (R308): HEALTH, TRAY_STEP, TRAY_CAP and TRAY_CAP_ACK at PM0, ACC_NOTE at an AP box; a reserved kind is
discarded and counted. -/
def rollLetter (b : Box) (kind : Nat) (l : List Byte) (s : State) : State :=
  match b, kind with
  | .pm, 0 => healthLetter l s
  | .pm, 1 =>
    let r := fieldAt l 0 8
    trayStepReceive r (decide (sliceAt l 8 32 = (sha (Config.trayInputs r)).take 32) && decide (sliceAt l 40 32 = (sha (Config.trayOutputs r)).take 32)) s
  | .pm, 3 => trayCapReceive (trayCapOf l) s
  | .pm, 4 => trayCapAck (trayCapOf l) (statusOf (fieldAt l 18 1)) s
  | .ap slot, 2 => accNote slot l s
  | _, k => if k ≥ 5 then cnt1 12 s else s

/-- A letter delivered to a post box: a roll-call record, or a part of a command, whose signature is the last 512 bytes of its last part
(R322, R325). -/
def boxLetter (n : Nat) (h : Header) (l : List Byte) (s : State) : State :=
  match letterBox n with
  | none => s
  | some b =>
    if !boxesOpen s b then s
    else if h.cls = 7 then rollLetter b h.groupOp l s
    else if h.cls = 1 && b = .pm then partnerCompletion l s
    else
      let e := envelopeOf (fit 64 l)
      let sig := if e.signed && e.partIndex + 1 = e.partCount then 512 else 0
      -- a payload too short for its header and signature has no FRAG_LEN that fits: step 1 of R330 fails (R325)
      let e := if l.length < 64 + sig then { e with reservedZero := false } else e
      partArrive b e (sliceAt l 64 (l.length - 64 - sig)) (l.drop (l.length - sig)) h.src h.cls h.plot h.groupOp s

end Sys2Proof.Machine
end

