-- ==== Sys2Proof/Machine/Float.lean ====
section
/-! DEFINITION. The number formats of the sorting offices and their arithmetic (spec/08, R219–R223, R225, R226): exact values, rounding into
a format, binary32 operations, conversions from and to memory formats, and the random draws of stochastic rounding. -/

namespace Sys2Proof.Machine

/-- The value of a floating-point datum: fin s m e is (−1)^s × m × 2^e, exactly. -/
inductive FNum where
  | nan
  | inf (neg : Bool)
  | fin (neg : Bool) (mant : Nat) (exp : Int)
  deriving DecidableEq, Repr

/-- A floating-point format (R219). `specials` is 0 where every code is finite, 1 where the top exponent holds infinities and NaNs, 2 where
only the top code is a NaN (E4M3). -/
structure FloatFmt where
  eb : Nat
  mb : Nat
  bias : Nat
  specials : Nat
  deriving DecidableEq, Repr

def fp32 : FloatFmt := ⟨8, 23, 127, 1⟩
def bf16 : FloatFmt := ⟨8, 7, 127, 1⟩
def fp16 : FloatFmt := ⟨5, 10, 15, 1⟩
def e4m3 : FloatFmt := ⟨4, 3, 7, 2⟩
def e5m2 : FloatFmt := ⟨5, 2, 15, 1⟩
def e3m2 : FloatFmt := ⟨3, 2, 3, 0⟩
def e2m3 : FloatFmt := ⟨2, 3, 1, 0⟩
def e2m1 : FloatFmt := ⟨2, 1, 1, 0⟩

/-- The element format of an FMT code (R219); none for the integer formats and 12–15. -/
def elemFmt (fmt : Nat) : Option FloatFmt :=
  match fmt with
  | 0 => some fp32 | 1 => some bf16 | 2 => some fp16 | 3 => some e4m3 | 4 => some e5m2
  | 5 => some e4m3 | 6 => some e5m2 | 7 => some e3m2 | 8 => some e2m3 | 9 => some e2m1
  | _ => none

def isMx (fmt : Nat) : Bool := 5 ≤ fmt && fmt ≤ 9
def isInt (fmt : Nat) : Bool := fmt = 10 || fmt = 11
def fmtOk (fmt : Nat) : Bool := fmt ≤ 11

/-- Bits of an element (R219, R225). -/
def fmtBits (fmt : Nat) : Nat :=
  match fmt with
  | 0 => 32 | 1 => 16 | 2 => 16 | 3 => 8 | 4 => 8 | 5 => 8 | 6 => 8 | 7 => 6 | 8 => 6 | 9 => 4 | 10 => 8 | _ => 32

/-- Bytes of a tile of 256 elements of an MX format (R225). -/
def tileBytes (fmt : Nat) : Nat := 8 + 32 * fmtBits fmt

/-- Bytes of an array of `n` elements (R225: MX arrays fill whole tiles). -/
def arrayBytes (fmt n : Nat) : Nat := if isMx fmt then (n + 255) / 256 * tileBytes fmt else n * fmtBits fmt / 8

/-- Elements in `n` bytes of an array. -/
def arrayElems (fmt n : Nat) : Nat := if isMx fmt then n / tileBytes fmt * 256 else n * 8 / fmtBits fmt

/-! ### Codes and values -/

/-- The value of a code. -/
def decodeNum (f : FloatFmt) (code : Nat) : FNum :=
  let m := code % 2 ^ f.mb
  let e := code / 2 ^ f.mb % 2 ^ f.eb
  let neg := code.testBit (f.eb + f.mb)
  if f.specials = 1 && e = 2 ^ f.eb - 1 then (if m = 0 then .inf neg else .nan)
  else if f.specials = 2 && e = 2 ^ f.eb - 1 && m = 2 ^ f.mb - 1 then .nan
  else if e = 0 then .fin neg m (1 - (f.bias + f.mb : Nat))
  else .fin neg (2 ^ f.mb + m) ((e : Int) - (f.bias + f.mb : Nat))

/-- The magnitude code of the largest finite value (R219). -/
def maxCode (f : FloatFmt) : Nat :=
  if f.specials = 1 then (2 ^ f.eb - 1) * 2 ^ f.mb - 1 else if f.specials = 2 then 2 ^ (f.eb + f.mb) - 2 else 2 ^ (f.eb + f.mb) - 1

/-- The format's quiet NaN (R220, R223); the formats of MX blocks that have none are handled by the block's scale. -/
def quietNan (f : FloatFmt) : Nat :=
  if f.specials = 1 then (2 ^ f.eb - 1) * 2 ^ f.mb + 2 ^ (f.mb - 1) else if f.specials = 2 then 2 ^ (f.eb + f.mb) - 1 else 0

/-- `m` with its low `sh` bits discarded, rounded by RND: 0 nearest even, 1 stochastic with the 16-bit draw `u`, 2 toward zero (R222). -/
def roundOff (rnd u m sh : Nat) : Nat :=
  let q := m / 2 ^ sh
  let r := m % 2 ^ sh
  if rnd = 0 then (if 2 * r > 2 ^ sh || (2 * r = 2 ^ sh && q % 2 = 1) then q + 1 else q)
  else if rnd = 1 then
    let f := if sh ≥ 16 then r / 2 ^ (sh - 16) else r * 2 ^ (16 - sh)
    if f + u ≥ 65536 then q + 1 else q
  else q

/-- A value rounded into a format: the code, and whether it saturated at the largest finite value (R222, R223). -/
def encodeNum (f : FloatFmt) (rnd u : Nat) (x : FNum) : Nat × Bool :=
  let sign := fun (neg : Bool) (c : Nat) => if neg then 2 ^ (f.eb + f.mb) + c else c
  match x with
  | .nan => (quietNan f, false)
  | .inf neg => if f.specials = 1 then (sign neg ((2 ^ f.eb - 1) * 2 ^ f.mb), false) else (sign neg (maxCode f), true)
  | .fin neg m e =>
    if m = 0 then (sign neg 0, false)
    else
      let lsb : Int := max ((Nat.log2 m : Int) + e - f.mb) (1 - (f.bias + f.mb : Nat))
      let sh := lsb - e
      let q := if sh ≤ 0 then m * 2 ^ (-sh).toNat else roundOff rnd u m sh.toNat
      let code := (lsb + (f.mb + f.bias : Nat) - 1).toNat * 2 ^ f.mb + q
      if code > maxCode f then
        (if f.specials = 1 && rnd ≠ 2 then (sign neg ((2 ^ f.eb - 1) * 2 ^ f.mb), false) else (sign neg (maxCode f), true))
      else (sign neg code, false)

/-- The value of a binary32 word, and a value rounded to nearest even into one. -/
def num32 (v : BitVec 32) : FNum := decodeNum fp32 v.toNat
def round32 (x : FNum) : BitVec 32 := BitVec.ofNat 32 (encodeNum fp32 0 0 x).1

/-! ### Exact arithmetic -/

/-- The signed mantissa of a finite value at exponent `e`, which is not above its own. -/
def mantAt (neg : Bool) (m : Nat) (x e : Int) : Int := (if neg then -1 else 1) * ((m * 2 ^ (x - e).toNat : Nat) : Int)

/-- The exact sum; a zero sum is negative only where both are (R221, nearest even). -/
def numAdd (a b : FNum) : FNum :=
  match a, b with
  | .nan, _ => .nan
  | _, .nan => .nan
  | .inf s, .inf t => if s = t then .inf s else .nan
  | .inf s, .fin .. => .inf s
  | .fin .., .inf t => .inf t
  | .fin s m e, .fin t n g =>
    let x := min e g
    let v := mantAt s m e x + mantAt t n g x
    if v = 0 then .fin (s && t && decide (m = 0) && decide (n = 0)) 0 x else .fin (decide (v < 0)) v.natAbs x

/-- The exact product. -/
def numMul (a b : FNum) : FNum :=
  match a, b with
  | .nan, _ => .nan
  | _, .nan => .nan
  | .inf s, .inf t => .inf (s != t)
  | .inf s, .fin t n _ => if n = 0 then .nan else .inf (s != t)
  | .fin s m _, .inf t => if m = 0 then .nan else .inf (s != t)
  | .fin s m e, .fin t n g => .fin (s != t) (m * n) (e + g)

def numNeg : FNum → FNum
  | .nan => .nan
  | .inf s => .inf (!s)
  | .fin s m e => .fin (!s) m e

/-- The value times 2^k. -/
def numScale (k : Int) : FNum → FNum
  | .fin s m e => .fin s m (e + k)
  | x => x

/-- a < b; false where either is NaN. -/
def numLt (a b : FNum) : Bool :=
  match a, b with
  | .nan, _ => false
  | _, .nan => false
  | .inf s, .inf t => s && !t
  | .inf s, .fin .. => s
  | .fin .., .inf t => !t
  | .fin s m e, .fin t n g => decide (mantAt s m e (min e g) < mantAt t n g (min e g))

def numIsNan (a : FNum) : Bool := a = .nan

/-- a = b in value; false where either is NaN. -/
def numEq (a b : FNum) : Bool := !numIsNan a && !numIsNan b && !numLt a b && !numLt b a

/-! ### Binary32 operations, each rounded once to nearest even (R221) -/

def fAdd (a b : BitVec 32) : BitVec 32 := round32 (numAdd (num32 a) (num32 b))
def fSub (a b : BitVec 32) : BitVec 32 := round32 (numAdd (num32 a) (numNeg (num32 b)))
def fMul (a b : BitVec 32) : BitVec 32 := round32 (numMul (num32 a) (num32 b))
def fFma (a b c : BitVec 32) : BitVec 32 := round32 (numAdd (numMul (num32 a) (num32 b)) (num32 c))
def fAbs (a : BitVec 32) : BitVec 32 := a &&& 0x7FFFFFFF
def fScale (a : BitVec 32) (k : Int) : BitVec 32 := round32 (numScale k (num32 a))

/-- The greater of two values, NaN where either is NaN; of two zeros of opposite sign the manual names none (notes/assumptions/9.md). -/
def fMax (a b : BitVec 32) : BitVec 32 :=
  let x := num32 a
  let y := num32 b
  if numIsNan x || numIsNan y then 0x7FC00000#32 else if numLt x y then b else if numLt y x then a
  else if a = b then a else if Config.zeroTie true a b then a else b

/-- The lesser of two values, as fMax. -/
def fMin (a b : BitVec 32) : BitVec 32 :=
  let x := num32 a
  let y := num32 b
  if numIsNan x || numIsNan y then 0x7FC00000#32 else if numLt x y then a else if numLt y x then b
  else if a = b then a else if Config.zeroTie false a b then a else b

/-- One step of the compensated sum of R221: the new sum and the new error. -/
def compensated (sum err x : BitVec 32) : BitVec 32 × BitVec 32 :=
  let t := fAdd sum x
  let z := fSub t sum
  (t, fAdd err (fAdd (fSub sum (fSub t z)) (fSub x z)))

def iMax (a b : BitVec 32) : BitVec 32 := if a.toInt < b.toInt then b else a
def iMin (a b : BitVec 32) : BitVec 32 := if b.toInt < a.toInt then b else a

/-! ### Conversions (R220, R222, R223) -/

/-- An element code of a format other than MX, converted to FP32 or INT32 (R220). -/
def loadElem (fmt code : Nat) : BitVec 32 :=
  match elemFmt fmt with
  | some f => round32 (decodeNum f code)
  | none => if fmt = 10 then BitVec.ofInt 32 (ofSigned 8 code) else BitVec.ofNat 32 code

/-- An MX element with its block's scale, converted to FP32 (R220, R219). -/
def loadMx (fmt code scale : Nat) : BitVec 32 :=
  if scale = 255 then 0x7FC00000#32
  else match elemFmt fmt with
    | some f => round32 (numScale ((scale : Int) - 127) (decodeNum f code))
    | none => 0

/-- The exact value of an element, MX elements with their scale: what a press multiplies (R227). -/
def elemNum (fmt code scale : Nat) : FNum :=
  if isMx fmt && scale = 255 then .nan
  else match elemFmt fmt with
    | some f => if isMx fmt then numScale ((scale : Int) - 127) (decodeNum f code) else decodeNum f code
    | none => let v := if fmt = 10 then ofSigned 8 code else ofSigned 32 code; .fin (decide (v < 0)) v.natAbs 0

/-- A signed integer held within `w` bits. -/
def saturate (w : Nat) (v : Int) : Int × Bool :=
  let hi : Int := (2 ^ (w - 1) : Nat) - 1
  if v > hi then (hi, true) else if v < -hi - 1 then (-hi - 1, true) else (v, false)

/-- A value rounded by RND to an integer of `w` bits; NaN gives 0, what lies beyond saturates (R223). -/
def numToInt (w rnd u : Nat) (x : FNum) : Int × Bool :=
  match x with
  | .nan => (0, false)
  | .inf neg => saturate w (if neg then -(2 ^ 32 : Nat) else (2 ^ 32 : Nat))
  | .fin neg m e =>
    let a := if e ≥ 0 then m * 2 ^ e.toNat else roundOff rnd u m (-e).toNat
    saturate w (if neg then -(a : Int) else a)

/-- What a conversion yields: the element's code, whether it saturated, whether it was a NaN, and whether it took a draw. -/
structure Conv where
  code : Nat
  sat : Bool
  nan : Bool
  drew : Bool
  deriving DecidableEq, Repr

/-- A conversion discards bits, so that stochastic rounding draws (R222); a draw is made by every stochastic conversion to a narrower format. -/
def drawsFor (fmt rnd : Nat) (isIntReg : Bool) : Bool := rnd = 1 && fmt ≠ 0 && !(isIntReg && isInt fmt)

/-- A register lane converted to an element other than MX (R221–R223). An INT32 lane stored in a floating-point format has no stated value:
`free` is stored. -/
def storeElem (fmt rnd u : Nat) (isIntReg : Bool) (free : Nat) (v : BitVec 32) : Conv :=
  let drew := drawsFor fmt rnd isIntReg
  match elemFmt fmt with
  | some f =>
    if isIntReg then ⟨free % 2 ^ fmtBits fmt, false, false, drew⟩
    else
      let (c, sat) := encodeNum f rnd u (num32 v)
      ⟨c, sat, numIsNan (num32 v), drew⟩
  | none =>
    let w := fmtBits fmt
    if isIntReg then
      let (x, sat) := saturate w v.toInt
      ⟨toSigned w x, sat, false, drew⟩
    else
      let (x, sat) := numToInt w rnd u (num32 v)
      ⟨toSigned w x, sat, numIsNan (num32 v), drew⟩

/-! ### MX blocks (R226) -/

/-- floor(log2 |v|) of a binary32 magnitude: 127 for infinity (R226). -/
def log2Of (x : FNum) : Int :=
  match x with
  | .nan => 0
  | .inf _ => 127
  | .fin _ m e => (Nat.log2 m : Int) + e

/-- EMAX of an MX element format (R226). -/
def emaxOf (fmt : Nat) : Int := if fmt = 5 then 8 else if fmt = 6 then 15 else if fmt = 7 then 4 else 2

/-- The greater magnitude of two values. -/
def maxMag (a b : FNum) : FNum :=
  match a, b with
  | .inf _, _ => .inf false
  | _, .inf _ => .inf false
  | .fin _ m e, .fin _ n g => if numLt (.fin false m e) (.fin false n g) then .fin false n g else .fin false m e
  | .nan, x => x
  | x, .nan => x

/-- The scale code of a block of 32 values (R226). -/
def blockScale (fmt : Nat) (vs : List FNum) : Nat :=
  if vs.any numIsNan then 255
  else
    let amax := vs.foldl maxMag (.fin false 0 0)
    if amax = .fin false 0 0 || (match amax with | .fin _ m _ => decide (m = 0) | _ => false) then 0
    else (min 254 (max 0 (log2Of amax - emaxOf fmt + 127))).toNat

/-- An MX element never holds an infinity: it saturates (R223). -/
def satMx (f : FloatFmt) (x : Nat × Bool) : Nat × Bool :=
  if x.1 % 2 ^ (f.eb + f.mb) > maxCode f then (x.1 / 2 ^ (f.eb + f.mb) * 2 ^ (f.eb + f.mb) + maxCode f, true) else x

/-- The element codes of a block under its scale, with the draws of `u` by element (R226). -/
def blockElems (fmt rnd : Nat) (u : Nat → Nat) (scale : Nat) (vs : List FNum) : List (Nat × Bool) :=
  (List.range vs.length).map fun i =>
    if scale = 255 then (0, false)
    else match elemFmt fmt with
      | some f => satMx f (encodeNum f rnd (u i) (numScale (127 - (scale : Int)) (vs.getD i .nan)))
      | none => (0, false)

/-! ### Random draws (R222) -/

def mix64 (x : BitVec 64) : BitVec 64 :=
  let z := x + 0x9E3779B97F4A7C15#64
  let z := (z ^^^ (z >>> 30)) * 0xBF58476D1CE4E5B9#64
  let z := (z ^^^ (z >>> 27)) * 0x94D049BB133111EB#64
  z ^^^ (z >>> 31)

/-- Draw `n` of lane `i` of generator `c` for a bundle: bits [63:48] of mix64(Lseed + n). -/
def drawOf (seed : BitVec 64) (step index c i n : Nat) : Nat :=
  let l := mix64 (seed ^^^ BitVec.ofNat 64 (step * 2 ^ 48) ^^^ BitVec.ofNat 64 (index * 2 ^ 16) ^^^ BitVec.ofNat 64 (c * 2 ^ 6) ^^^ BitVec.ofNat 64 i)
  bitsOf (mix64 (l + BitVec.ofNat 64 n)).toNat 63 48

/-- Whether entry (j, k) of the ±1 projection is −1 (R231). -/
def projNeg (blockSeed : BitVec 64) (j k : Nat) : Bool := (mix64 (blockSeed + BitVec.ofNat 64 (256 * j + k))).getLsbD 63

/-- BLOCK_SEED of a block of a group's step (R231). -/
def blockSeedOf (groupSeed : BitVec 64) (step block : Nat) : BitVec 64 :=
  mix64 (groupSeed ^^^ BitVec.ofNat 64 (step * 2 ^ 48) ^^^ BitVec.ofNat 64 block)

end Sys2Proof.Machine
end

