-- ==== Sys2Proof/Machine/Operands.lean ====
section
/-! DEFINITION. Operand forms of the sorting offices: elements of packed and MX arrays in office SRAM (R210, R225), the windows of a bundle
(R211, R212), a clerk's registers with its masks (R208, R209), and the fields of a clerk instruction and of a press job (R209, R228). -/

namespace Sys2Proof.Machine

/-! ### Elements of arrays (R210, R225) -/

/-- Where element `i` of an array lies: its first byte, the bit in that byte, and its width in bits. -/
def elemPlace (fmt base i : Nat) : Nat × Nat × Nat :=
  let w := fmtBits fmt
  if isMx fmt then
    let b := i % 256 * w
    (base + i / 256 * tileBytes fmt + 8 + b / 8, b % 8, w)
  else (base + i * w / 8, i * w % 8, w)

/-- Address of the scale of element `i`'s block. -/
def scalePlace (fmt base i : Nat) : Nat := base + i / 256 * tileBytes fmt + i % 256 / 32

/-- The bytes that an access to element `i` touches. -/
def elemBytes (fmt base i : Nat) : List Nat :=
  let (a, b, w) := elemPlace fmt base i
  (if isMx fmt then [scalePlace fmt base i] else []) ++ (List.range ((b + w + 7) / 8)).map (a + ·)

/-- The code of element `i`. -/
def elemCode (m : Memory) (fmt base i : Nat) : Nat :=
  let (a, b, w) := elemPlace fmt base i
  leNat (mread m a ((b + w + 7) / 8)) / 2 ^ b % 2 ^ w

/-- The scale code of element `i`'s block; 127 where the format has none. -/
def elemScale (m : Memory) (fmt base i : Nat) : Nat := if isMx fmt then (mget m (scalePlace fmt base i)).toNat else 127

/-- Element `i` converted to FP32 or INT32 (R220). -/
def readElem (m : Memory) (fmt base i : Nat) : BitVec 32 :=
  if isMx fmt then loadMx fmt (elemCode m fmt base i) (elemScale m fmt base i) else loadElem fmt (elemCode m fmt base i)

/-- The exact value of element `i`. -/
def readNum (m : Memory) (fmt base i : Nat) : FNum := elemNum fmt (elemCode m fmt base i) (elemScale m fmt base i)

/-- Element `i` with its code written; bits of its bytes that belong to other elements stay. -/
def writeElem (m : Memory) (fmt base i code : Nat) : Memory :=
  let (a, b, w) := elemPlace fmt base i
  let n := (b + w + 7) / 8
  let old := leNat (mread m a n)
  let v := old % 2 ^ b + code % 2 ^ w * 2 ^ b + old / 2 ^ (b + w) * 2 ^ (b + w)
  mwrite m a (leBytes n v)

/-- Lines of 256 bytes that a range touches, and that a list of addresses touches (R207). -/
def rangeLines (a n : Nat) : Nat := if n = 0 then 0 else (a + n - 1) / 256 - a / 256 + 1

def linesOver (l : List Nat) : Nat := ((l.map (· / 256)).eraseDups).length

/-! ### Windows (R211, R212) -/

/-- Address `a` lies in the window of `size` bytes from `base`. -/
def inside (a base size : Nat) : Bool := decide (base ≤ a) && decide (a < base + size)

/-- A read may touch the IN window, the OUT window and the constant block of 1 KiB. -/
def mayRead (b : Bundle) (a : Nat) : Bool := inside a b.inBase b.inSize || inside a b.outBase b.outSize || inside a b.constBase 1024

/-- A write may touch the OUT window only. -/
def mayWrite (b : Bundle) (a : Nat) : Bool := inside a b.outBase b.outSize

/-! ### A clerk's registers (R208) -/

/-- 64 lanes of zero. -/
def zeroLanes : List (BitVec 32) := List.replicate 64 0

/-- The lanes of register `r`. -/
def vreg (x : Clerk) (r : Nat) : List (BitVec 32) := tget zeroLanes x.v r

/-- Lane `i` of register `r`. -/
def lane (x : Clerk) (r i : Nat) : BitVec 32 := (vreg x r).getD i 0

def mreg (x : Clerk) (i : Nat) : BitVec 64 := tget (BitVec.allOnes 64) x.m i
def areg (x : Clerk) (i : Nat) : Nat := tget 0 x.a i
def sreg (x : Clerk) (i : Nat) : BitVec 32 := tget 0 x.s i
def laneKind (x : Clerk) (r i : Nat) : Nat := (tget [] x.kind r).getD i 0

def setA (i v : Nat) (x : Clerk) : Clerk := { x with a := tset 0 x.a i (v % 2 ^ 25) }
def setS (i : Nat) (v : BitVec 32) (x : Clerk) : Clerk := { x with s := tset 0 x.s i v }
def setM (i : Nat) (v : BitVec 64) (x : Clerk) : Clerk := { x with m := tset (BitVec.allOnes 64) x.m i v }

/-- Lane `i` is active: the instruction is not MASKED, or its mask bit is 1 (R209). -/
def active (x : Clerk) (op : ClerkOp) (i : Nat) : Bool := !op.masked || (mreg x op.mreg).getLsbD i

/-- Register `r` written lane by lane, with what each lane now holds; lanes that are not active keep their old value (R209). -/
def setV (op : ClerkOp) (r : Nat) (kind : Nat → Nat) (f : Nat → BitVec 32) (x : Clerk) : Clerk :=
  { x with v := tset zeroLanes x.v r ((List.range 64).map fun i => if active x op i then f i else lane x r i),
           kind := tset [] x.kind r ((List.range 64).map fun i => if active x op i then kind i else laneKind x r i) }

/-- What a conversion of FMT gives a lane (R220): INT32 of an integer format, FP32 of the others. -/
def fmtKind (op : ClerkOp) (_ : Nat) : Nat := if isInt op.fmt then 2 else 1

/-- The array index of lane `i` of group g (R210). -/
def groupIndexOf (op : ClerkOp) (i : Nat) : Nat := 64 * op.imm + i

/-- An := An + Sn where INC is set, n the index of both (R209). -/
def stepA (op : ClerkOp) (x : Clerk) : Clerk :=
  if op.inc then setA op.an ((((areg x op.an : Nat) : Int) + (sreg x op.an).toInt) % (2 ^ 25 : Nat)).toNat x else x

/-- IMM as a signed 16-bit value. -/
def immInt (op : ClerkOp) : Int := ofSigned 16 op.imm

/-- The instruction word's fields (R209). -/
def opOfWord (w : Word64) : Nat × ClerkOp :=
  let n := w.toNat
  (n % 256, { vd := bitsOf n 12 8, va := bitsOf n 17 13, vb := bitsOf n 22 18, vc := bitsOf n 27 23, fmt := bitsOf n 31 28, rnd := bitsOf n 33 32,
              inc := bitOf n 34, an := bitsOf n 37 35, mreg := bitsOf n 39 38, masked := bitOf n 40, imm := bitsOf n 63 48 })

/-- How many instructions a routine has, from its ENTRY through the DONE that it always reaches, the first outside every LOOP (R235); none where it
reaches none or an ENDL closes no LOOP. `d`: the LOOPs open. -/
def routineLen : List Word64 → Nat → Option Nat
  | [], _ => none
  | w :: r, d =>
    let op := w.toNat % 256
    if d = 0 && op = 0x1A then some 1
    else if d = 0 && op = 0x17 then none
    else (routineLen r (if op = 0x16 then d + 1 else if op = 0x17 then d - 1 else d)).map (· + 1)

/-- A phase's routine. -/
def routineAt (p : Program) (entry : Nat) : List Word64 :=
  (p.code.drop entry).take ((routineLen (p.code.drop entry) 0).getD p.code.length)

/-! ### Press jobs (R228) -/

/-- The fields of a 64-byte job descriptor, before its clerk and bundle are named. -/
def jobOf (l : List Byte) (clerk : Nat) (b : Bundle) : Job :=
  let b1 := fieldAt l 1 1
  let b2 := fieldAt l 2 1
  { mode := fieldAt l 0 1 % 8, fmtA := b1 % 16, fmtOut := b1 / 16, rnd := b2 % 4, accum := bitOf b2 2, resid := bitOf b2 3,
    rank := fieldAt l 3 1 % 8, rows := fieldAt l 4 2, inner := fieldAt l 6 2, outer := fieldAt l 8 2, aAddr := fieldAt l 12 4,
    bAddr := fieldAt l 16 4, cAddr := fieldAt l 20 4, blockSeed := BitVec.ofNat 64 (fieldAt l 28 8), clerk := clerk, bundle := b }

/-- Data input formats of a mode (R227). -/
def modeFmtOk (mode fmt : Nat) : Bool :=
  if mode = 0 then fmt = 3 || fmt = 4 || isMx fmt || fmt = 10
  else if mode = 1 then fmt = 1 || fmt = 2
  else if mode = 2 || mode = 3 then fmt = 0 || fmt = 1 || fmt = 2
  else if mode = 4 then fmt = 0
  else true

/-- Rank r of a job (R228). -/
def rankOf (j : Job) : Nat := 16 * 2 ^ j.rank

/-- The descriptor's fields are in their ranges (R228). -/
def jobFieldsOk (l : List Byte) (j : Job) : Bool :=
  let reserved := fieldAt l 0 1 / 8 = 0 && fieldAt l 2 1 / 16 = 0 && fieldAt l 3 1 / 8 = 0 && fieldAt l 10 2 = 0 && fieldAt l 24 4 = 0 &&
    sliceAt l 36 28 = zeros 28 && j.aAddr < 2 ^ 25 && j.bAddr < 2 ^ 25 && j.cAddr < 2 ^ 25
  reserved && j.mode ≤ 5 && j.rnd ≤ 2 && fmtOk j.fmtA && fmtOk j.fmtOut && modeFmtOk j.mode j.fmtA && (isMx j.fmtOut = decide (j.mode = 4)) &&
  j.rank ≤ 4 && j.rows ≥ 1 && (j.mode = 3 || !j.resid) &&
  (if j.mode = 5 then true else if j.mode ≤ 1 then j.inner ≥ 1 && j.inner % 32 = 0 && j.outer ≥ 1 && j.outer % 256 = 0
   else if j.mode ≤ 3 then j.inner ≥ 256 && j.inner % 256 = 0 && j.inner ≤ 4096 && rankOf j ≤ j.inner
   else j.inner ≥ 1 && j.inner % 32 = 0)

/-- Elements of a job's output (R227, R230). -/
def jobOutElems (j : Job) : Nat :=
  if j.mode ≤ 1 then j.rows * j.outer else if j.mode = 2 then j.rows * rankOf j else j.rows * j.inner

/-- Elements of a job's data input. -/
def jobInElems (j : Job) : Nat := if j.mode = 3 then j.rows * rankOf j else j.rows * j.inner

/-- Byte ranges that a job reads and writes: (address, length) (R228). -/
def jobReads (j : Job) : List (Nat × Nat) :=
  if j.mode = 5 then [] else
  (j.aAddr, arrayBytes j.fmtA (jobInElems j)) ::
    (if j.mode ≤ 1 then [(j.bAddr, arrayBytes j.fmtA (j.inner * j.outer))] else if j.mode = 3 && j.resid then [(j.bAddr, arrayBytes j.fmtA (j.rows * j.inner))] else [])

def jobWrites (j : Job) : Nat × Nat := (j.cAddr, arrayBytes j.fmtOut (jobOutElems j))

/-- The first address from `a` on that no window of the list (base, size) holds, gone through once. -/
def windowEnd (ws : List (Nat × Nat)) (a : Nat) : Nat := ws.foldl (fun a w => if inside a w.1 w.2 then w.1 + w.2 else a) a

/-- Every address of a range lies in some readable window (R211): from its start the windows, one after the other, reach its end. -/
def readable (b : Bundle) (a n : Nat) : Bool :=
  let ws := [(b.inBase, b.inSize), (b.outBase, b.outSize), (b.constBase, 1024)]
  decide (n = 0 ∨ a + n ≤ windowEnd ws (windowEnd ws (windowEnd ws a)))

/-- A range lies in a window. -/
def rangeIn (a n base size : Nat) : Bool := decide (base ≤ a) && decide (a + n ≤ base + size)

/-- A job's addresses lie in its bundle's windows (R211, R228). -/
def jobAddrOk (j : Job) : Bool :=
  ((jobReads j).all fun x => readable j.bundle x.1 x.2) && (j.mode = 5 || rangeIn (jobWrites j).1 (jobWrites j).2 j.bundle.outBase j.bundle.outSize)

/-- Lines that a job reads and writes, each once (R207; notes/assumptions/127.md). -/
def jobLines (j : Job) : Nat :=
  if j.mode = 5 then 0
  else sumNat ((jobReads j ++ [jobWrites j] ++ (if j.accum then [jobWrites j] else [])).map fun x => rangeLines x.1 x.2)

/-- A job's cost in cycles: its products divided by the mode's rate, plus 64 of fill (R227). -/
def jobCycles (j : Job) : Nat :=
  let work := if j.mode ≤ 1 then j.rows * j.inner * j.outer else if j.mode ≤ 3 then j.rows * j.inner * rankOf j else if j.mode = 4 then j.rows * j.inner
    else j.rows * j.inner * j.outer
  let rate := if j.mode = 0 || j.mode = 5 then 65536 else if j.mode = 4 then 256 else 16384
  (work + rate - 1) / rate + 64

end Sys2Proof.Machine
end

