-- ==== Sys2Proof/Machine/Collect.lean ====
section
/-! DEFINITION. Groups in service (spec/09): their geometry, contributions, the results of the library operators, chain letters and
STEP_MARKs, results, return slips and notices, and the end of a step. -/

namespace Sys2Proof.Machine

/-! ### Geometry (R240, R241, R243) -/

/-- The bits set among the low `n` of a mask, ascending. -/
def bitsSet {w : Nat} (n : Nat) (m : BitVec w) : List Nat := (List.range n).filter fun i => m.getLsbD i

def memberSlots (r : GroupRec) : List Nat := bitsSet 128 r.memberMask
def hostModules (r : GroupRec) : List Nat := bitsSet 16 r.hostMask
def shardsOf (r : GroupRec) : Nat := (hostModules r).length
def shardOf (s : State) (r : GroupRec) : Nat := (hostModules r).idxOf (modIndex s)

/-- Extent of the box along an axis, and its first coordinate. -/
def extent (r : GroupRec) (a : Nat) : Nat := 1 + (if a = 0 then r.nxM1 else if a = 1 then r.nyM1 else r.nzM1)
def firstCoord (r : GroupRec) (a : Nat) : Nat := if a = 0 then r.x0 else if a = 1 then r.y0 else r.z0

/-- A rack's position in the box along an axis (R241, R253). -/
def posOf (s : State) (r : GroupRec) (rack a : Nat) : Nat := (coord rack a + axisLen s a - firstCoord r a) % axisLen s a

/-- b of R241: a rack's number in the box. -/
def rackInBox (s : State) (r : GroupRec) (rack : Nat) : Nat :=
  posOf s r rack 0 + extent r 0 * (posOf s r rack 1 + extent r 1 * posOf s r rack 2)

/-- M and P of R241. -/
def membersHere (r : GroupRec) : Nat := (memberSlots r).length
def membersAll (r : GroupRec) : Nat := extent r 0 * extent r 1 * extent r 2 * membersHere r

/-- The global member index of a slot of a rack (R241). -/
def memberIndex (s : State) (r : GroupRec) (rack slot : Nat) : Nat := rackInBox s r rack * membersHere r + (memberSlots r).idxOf slot

/-- Bytes of the shard of each member's step data hosted here, and where it begins (R240). -/
def shardBytes (r : GroupRec) : Nat := r.stepBytes / max 1 (shardsOf r)
def shardBase (s : State) (r : GroupRec) : Nat := shardOf s r * shardBytes r

/-- A member's grid reference, UNIT 0 (R255). -/
def memberRef (s : State) (slot : Nat) : Nat := rackOf (srcRef s) * 4096 + slot * 32

/-- STEP_TIMEOUT, LATE_THRESHOLD and SHARE as they act: 0 means 256, 16 and 4 (R242). -/
def stepTimeoutOf (r : GroupRec) : Nat := if r.stepTimeout = 0 then 256 else r.stepTimeout
def lateThresholdOf (r : GroupRec) : Nat := if r.lateThreshold = 0 then 16 else r.lateThreshold

/-- Bytes of a line of a contribution: 256, or a whole tile for an MX format (R250, R251). -/
def lineUnit (r : GroupRec) : Nat := if isMx r.fmtIn then tileBytes r.fmtIn else 256

/-- Lines of the shard. -/
def linesOf (r : GroupRec) : Nat := if r.operator = 0 then 1 else (shardBytes r + lineUnit r - 1) / lineUnit r

/-- Bytes between two members' shards in the input region (R476). -/
def inStride (r : GroupRec) : Nat := if r.operator = 4 then 0 else shardBytes r

/-- The root's rack is this one, and its slot (R242 ROOT). -/
def rootHere (s : State) (r : GroupRec) : Bool := r.root / max 1 (membersHere r) = rackInBox s r (rackOf (srcRef s))
def rootSlot (r : GroupRec) : Nat := (memberSlots r).getD (r.root % max 1 (membersHere r)) 0

/-- Members of this rack whose contribution a step needs (R249). -/
def contributors (s : State) (r : GroupRec) : List Nat :=
  if r.operator = 4 then (if rootHere s r then [rootSlot r] else []) else memberSlots r

/-- A member's lines have all arrived. -/
def memberComplete (g : Group) (r : GroupRec) (slot : Nat) : Bool := (tget [] g.lines slot).length ≥ linesOf r

def presentMembers (s : State) (g : Group) (r : GroupRec) : List Nat := (contributors s r).filter (memberComplete g r)
def absentMembers (s : State) (g : Group) (r : GroupRec) : List Nat := (contributors s r).filter fun x => !memberComplete g r x

/-- T, TOK_BYTES and CAP of a DISPATCH group (R249, R257). -/
def tokBytes (r : GroupRec) : Nat := r.paramA
def capOf (r : GroupRec) : Nat := r.paramB
def tokensOf (r : GroupRec) : Nat := r.stepBytes / (8 + tokBytes r)

/-- The DISPATCH group of a COMBINE group: its entry and record (R249, R259). -/
def dispatchOf (s : State) (r : GroupRec) : Option (Nat × Group × GroupRec) :=
  match entryOf s r.paramA with
  | some e => (groupOf s e).record.map fun d => (e, groupOf s e, d)
  | none => none

/-- A step level waits for this rack's own members: the axes whose extent is above 1, in order (R253). -/
def axesOf (r : GroupRec) : List Nat := [0, 1, 2].filter fun a => extent r a > 1

/-- A one-rack FOLD_ALL_REDUCE runs as ALL_REDUCE (R253). -/
def opCode (r : GroupRec) : Nat := if r.operator = 9 && (axesOf r).isEmpty then 1 else r.operator

/-- Operators that combine level by level. -/
def combines (r : GroupRec) : Bool := [1, 2, 5, 9, 0xB, 0xC].contains (opCode r)

/-! ### Bundle queues (R216, R217) -/

/-- An office's clerks. -/
def clerksOf (o : Nat) : List Nat := (List.range 32).map (32 * o + ·)

/-- Descriptors in an office's queues. -/
def officeQueued (s : State) (o : Nat) : Nat := sumNat ((clerksOf o).map fun k => (clerkOf s k).queue.length)

/-- The office's queues have changed: since when every one is empty (R217). -/
def noteQueues (o : Nat) (s : State) : State :=
  modOffice s o fun x => { x with emptySince := if officeQueued s o > 0 then none else match x.emptySince with | some t => some t | none => some s.mer.ns }

def noteAllQueues (s : State) : State := (List.range 8).foldl (fun s o => noteQueues o s) s

/-! ### Words of a level (R253, R254): FP32 or INT32 -/

def wordsBytes (ws : List (BitVec 32)) : List Byte := ws.flatMap fun w => leBytes 4 w.toNat

def bytesWords (l : List Byte) : List (BitVec 32) := (List.range (l.length / 4)).map fun i => BitVec.ofNat 32 (fieldAt l (4 * i) 4)

/-- A member's elements of the shard, converted (R220); TOPK_MERGE contributes K FP32 keys and then K INT32 indices, whatever FMT_IN is (R249). -/
def memberWords (s : State) (g : Group) (r : GroupRec) (slot : Nat) : List (BitVec 32) :=
  let base := g.inBase + (memberSlots r).idxOf slot * inStride r
  let sram := (officeOf s g.office).sram
  if opCode r = 0xC then (List.range (shardBytes r / 4)).map fun i => readElem sram (if i < r.paramA then 0 else 11) base i
  else (List.range (arrayElems r.fmtIn (shardBytes r))).map fun i => readElem sram r.fmtIn base i

/-- Words drawn together in a free order: repeatedly two of the list are added until one is left (R221, R224, R474). -/
def sumFree (add : BitVec 32 → BitVec 32 → BitVec 32) (pick : Nat → Nat) : Nat → List (BitVec 32) → BitVec 32
  | _, [] => 0
  | 0, a :: _ => a
  | _, [a] => a
  | n + 1, l =>
    let i := pick (2 * n) % l.length
    let a := l.getD i 0
    let l := l.eraseIdx i
    let j := pick (2 * n + 1) % l.length
    sumFree add pick n (add a (l.getD j 0) :: l.eraseIdx j)

/-- The list in an order freely chosen. -/
def freeOrder (pick : Nat → Nat) : Nat → List (BitVec 32) → List (BitVec 32)
  | 0, l => l
  | _, [] => []
  | n + 1, l =>
    let i := pick n % l.length
    l.getD i 0 :: freeOrder pick n (l.eraseIdx i)

/-- The reduction of one element's values by REDOP (R242, R249): integers exactly, FP32 sums in a free order, with compensation for SUM_COMP. -/
def reduceWords (r : GroupRec) (pick : Nat → Nat) (ws : List (BitVec 32)) : BitVec 32 :=
  let int := isInt r.fmtIn
  match r.redop with
  | 0 => if int then ws.foldl (· + ·) 0 else sumFree fAdd pick ws.length ws
  | 1 =>
    if int then ws.foldl (· + ·) 0
    else let (sm, er) := (freeOrder pick ws.length ws).foldl (fun x w => compensated x.1 x.2 w) (0, 0); fAdd sm er
  | 2 => match ws with | [] => 0 | a :: l => l.foldl (if int then iMax else fMax) a
  | _ => match ws with | [] => 0 | a :: l => l.foldl (if int then iMin else fMin) a

/-- Two partials combined at an axis position (R253). -/
def combineWord (r : GroupRec) (a b : BitVec 32) : BitVec 32 :=
  let int := isInt r.fmtIn
  if r.redop ≤ 1 then (if int then a + b else fAdd a b)
  else if r.redop = 2 then (if int then iMax a b else fMax a b)
  else if int then iMin a b else fMin a b

/-- A key and index pair comes before another: greater key, ties to the lower index (R210 VMRG). -/
def keyBefore (a b : BitVec 32 × BitVec 32) : Bool :=
  numLt (num32 b.1) (num32 a.1) || (!numLt (num32 a.1) (num32 b.1) && decide (a.2.toInt ≤ b.2.toInt))

/-- The K greatest keys and their indices of several lists of K keys and K indices (R249 TOPK_MERGE). -/
def topK (k : Nat) (ls : List (List (BitVec 32))) : List (BitVec 32) :=
  let pairs := ls.flatMap fun l => (l.take k).zip (l.drop k)
  let top := (sortBy keyBefore pairs).take k
  top.map (·.1) ++ top.map (·.2)

/-- Two levels' data combined: element by element, by merging, or end to end (R253). A rack that adds nothing is left out (R262). -/
def combineLevel (r : GroupRec) (prev own : List Byte) : List Byte :=
  if opCode r = 3 then prev ++ own
  else if prev.isEmpty then own
  else if own.isEmpty then prev
  else if opCode r = 0xC then wordsBytes (topK r.paramA [bytesWords prev, bytesWords own])
  else wordsBytes (List.zipWith (combineWord (if opCode r = 9 then { r with redop := 0, fmtIn := 0 } else r)) (bytesWords prev) (bytesWords own))

/-- Two lists of partials combined, where there are two. -/
def mergeWords (r : GroupRec) : Option (List (BitVec 32)) → Option (List (BitVec 32)) → Option (List (BitVec 32))
  | none, y => y
  | x, none => x
  | some x, some y => some (List.zipWith (combineWord r) x y)

/-- Row `i` of G folded: (G S) of R230, in a free order of adding. -/
def foldRow (seed : BitVec 64) (n rk : Nat) (pick : Nat → Nat) (row : List (BitVec 32)) : List (BitVec 32) :=
  (List.range rk).map fun k =>
    sumFree fAdd (fun q => pick (k * 8192 + q)) n ((List.range n).map fun j => if projNeg seed j k then row.getD j 0 ^^^ 0x80000000#32 else row.getD j 0)

/-- A folded row unfolded: (1/r) F Sᵀ (R230). -/
def unfoldRow (seed : BitVec 64) (n rk : Nat) (pick : Nat → Nat) (row : List (BitVec 32)) : List (BitVec 32) :=
  (List.range n).map fun j =>
    fScale (sumFree fAdd (fun q => pick (j * 512 + q)) rk
      ((List.range rk).map fun k => if projNeg seed j k then row.getD k 0 ^^^ 0x80000000#32 else row.getD k 0)) (-(Nat.log2 rk : Int))

/-- The seed of a row of a FOLD_ALL_REDUCE step: rows number elements from the start of the step's data, BLOCK is the row div 512 (R253). -/
def rowSeed (s : State) (g : Group) (r : GroupRec) (i : Nat) : BitVec 64 :=
  let row := arrayElems r.fmtIn (shardBase s r) / max 1 r.paramA + i
  blockSeedOf r.groupSeed g.step (row / 512)

def foldRank (r : GroupRec) : Nat := 16 * 2 ^ r.rank

/-- `l` in rows of `n`. -/
def rowsOf (n : Nat) (l : List (BitVec 32)) : List (List (BitVec 32)) := (List.range (l.length / max 1 n)).map fun i => (l.drop (i * n)).take n

/-- A row-wise map of a level's words with each row's seed. -/
def mapRows (s : State) (g : Group) (r : GroupRec) (n d : Nat) (f : BitVec 64 → (Nat → Nat) → List (BitVec 32) → List (BitVec 32))
    (ws : List (BitVec 32)) : List (BitVec 32) :=
  ((rowsOf n ws).zipIdx).flatMap fun x => f (rowSeed s g r x.2) (fun q => Config.opDraw d (x.2 * 2 ^ 32 + q)) x.1

/-- Words of what a combining level carries (R253, R254). -/
def levelWords (r : GroupRec) : Nat :=
  if opCode r = 9 then arrayElems r.fmtIn (shardBytes r) / max 1 r.paramA * foldRank r
  else if opCode r = 0xC then 2 * r.paramA
  else arrayElems r.fmtIn (shardBytes r)

/-- What each member adds to a level (R262): a missing one zeros to a sum, and nothing to MAX, MIN and TOPK_MERGE. A SCAN goes by its REDOP
(DEDUCED, notes/assumptions/143.md). -/
def memberColumns (s : State) (g : Group) (r : GroupRec) : List (Nat × Option (List (BitVec 32))) :=
  (contributors s r).map fun x => (x,
    if memberComplete g r x then some (memberWords s g r x)
    else if r.redop ≤ 1 && opCode r ≠ 0xC then some (List.replicate (arrayElems r.fmtIn (shardBytes r)) 0)
    else none)

/-- The in-rack level's result for the members present (R253 item 1), before folding: nothing where nobody adds anything. -/
def rackResult (s : State) (g : Group) (r : GroupRec) (d : Nat) : List Byte :=
  let here := presentMembers s g r
  let sram := (officeOf s g.office).sram
  let cols := (memberColumns s g r).filterMap (·.2)
  match opCode r with
  | 3 => (memberSlots r).flatMap fun x =>
      if here.contains x then mread sram (g.inBase + (memberSlots r).idxOf x * inStride r) (shardBytes r) else zeros (shardBytes r)
  | 4 => if here.isEmpty then [] else mread sram g.inBase (shardBytes r)
  | 0xC => if cols.isEmpty then [] else wordsBytes (topK r.paramA cols)
  | 0xB => wordsBytes ((cols.foldl (fun acc c => mergeWords r acc (some c)) none).getD [])
  | _ =>
    if !combines r || cols.isEmpty then []
    else
      wordsBytes ((List.range (arrayElems r.fmtIn (shardBytes r))).map fun i =>
        reduceWords r (fun q => Config.opDraw d (i * 1024 + q)) (cols.map fun c => c.getD i 0))

/-- The data with which the axis levels begin: folded for FOLD_ALL_REDUCE (R253). -/
def axisInput (s : State) (g : Group) (r : GroupRec) (d : Nat) (rack : List Byte) : List Byte :=
  if opCode r = 9 then wordsBytes (mapRows s g r r.paramA d (fun seed pick => foldRow seed r.paramA (foldRank r) pick) (bytesWords rack)) else rack

/-! ### Conversion of results (R222–R226, R254) -/

/-- A block's 32 values as scale and codes; a stochastic draw is the routine's (R222, R474). -/
def quantBlock (fmt rnd : Nat) (u : Nat → Nat) (vs : List (BitVec 32)) : Nat × List (Nat × Bool) :=
  let ns := (vs ++ List.replicate (32 - vs.length) 0).map num32
  let sc := blockScale fmt ns
  (sc, blockElems fmt rnd u sc ns)

/-- A tile of up to 256 values (R225, R226): its bytes and how many elements saturated. -/
def quantTile (fmt rnd : Nat) (u : Nat → Nat) (vs : List (BitVec 32)) : List Byte × Nat :=
  let bs := (List.range 8).map fun b => if 32 * b < vs.length then quantBlock fmt rnd (fun i => u (32 * b + i)) ((vs.drop (32 * b)).take 32) else (0, [])
  let codes := bs.flatMap fun x => (x.2.map (·.1)) ++ List.replicate (32 - x.2.length) 0
  let w := fmtBits fmt
  (bs.map (fun x => BitVec.ofNat 8 x.1) ++ leBytes (32 * w) (codes.foldr (fun c n => c % 2 ^ w + 2 ^ w * n) 0),
   sumNat (bs.map fun x => (x.2.filter (·.2)).length))

/-- Values converted to a result format: bytes, saturations and NaNs (R223). -/
def convertOut (fmt rnd : Nat) (isIntReg : Bool) (u free : Nat → Nat) (ws : List (BitVec 32)) : List Byte × Nat × Nat :=
  if isMx fmt then
    let ts := (List.range ((ws.length + 255) / 256)).map fun t => quantTile fmt rnd (fun i => u (256 * t + i)) ((ws.drop (256 * t)).take 256)
    (ts.flatMap (·.1), sumNat (ts.map (·.2)), (ws.filter fun w => numIsNan (num32 w)).length)
  else
    let cs := ws.zipIdx.map fun x => storeElem fmt rnd (u x.2 % 65536) isIntReg (free x.2) x.1
    (cs.flatMap fun c => leBytes (fmtBits fmt / 8) c.code, (cs.filter (·.sat)).length, (cs.filter (·.nan)).length)

/-- A group's words converted to FMT_OUT, the office's saturations and NaNs counted. -/
def groupOut (g : Group) (r : GroupRec) (d : Nat) (ws : List (BitVec 32)) (s : State) : List Byte × State :=
  let (l, sat, nan) := convertOut r.fmtOut r.rnd (isInt r.fmtIn) (fun i => Config.opDraw d (2 ^ 60 + i)) (fun i => Config.opDraw d (2 ^ 61 + i)) ws
  (l, cntAdd (idOffice 12 g.office) nan (cntAdd (idOffice 11 g.office) sat s))

/-! ### Named entries, notices and marks (R254, R256, R263, R264) -/

/-- The order of R263: missing entries first in member order, hosts after the members of their rack; then late members, latest first. -/
def namedKey (s : State) (r : GroupRec) (x : Named) : Nat × Nat × Nat :=
  let i := rackInBox s r (rackOf x.ref) * 256 + (if x.host then 200 else (memberSlots r).idxOf (slotOf x.ref))
  if x.missing then (0, 0, i) else (1, 65535 - min 65535 x.lateness, i)

def keyLe (a b : Nat × Nat × Nat) : Bool :=
  a.1 < b.1 || (a.1 = b.1 && (a.2.1 < b.2.1 || (a.2.1 = b.2.1 && decide (a.2.2 ≤ b.2.2))))

def sortNamed (s : State) (r : GroupRec) (l : List Named) : List Named := sortBy (fun a b => keyLe (namedKey s r a) (namedKey s r b)) l

/-- Lateness of a member: the Round of its last line minus the Round in which the level's timer started (R264). -/
def latenessOf (g : Group) (slot : Nat) : Nat := tget 0 g.lastLine slot - g.timer.getD 0

/-- The late members of the step (R264). -/
def lateMembers (s : State) (g : Group) (r : GroupRec) : List Named :=
  ((presentMembers s g r).filter fun x => g.timer.isSome && decide (latenessOf g x ≥ lateThresholdOf r)).map fun x =>
    { ref := memberRef s x, lateness := latenessOf g x, missing := false, host := false }

/-- Eight named entries of 6 bytes (R256). -/
def namedBytes (l : List Named) : List Byte :=
  fit 48 ((l.take 8).flatMap fun x => leBytes 3 x.ref ++ leBytes 2 (if x.missing then 0xFFFF else x.lateness) ++ leBytes 1 (bit x.missing + 2 * bit x.host))

/-- Entries added to those there are, each named once (R254). -/
def addNamed (l more : List Named) : List Named := l ++ more.filter fun x => !(l.any fun y => y.ref = x.ref && y.host = x.host)

/-- What notices and marks name: the missing, then the late, the first eight (R263, R264). -/
def namedOf (s : State) (g : Group) (r : GroupRec) : List Named := (sortNamed s r (addNamed g.named (lateMembers s g r))).take 8

/-- A notice's 64 bytes (R256). -/
def noticeBytes (s : State) (g : Group) (r : GroupRec) (kind : Nat) (st : Status) (cause : Nat) (delivered : Bool) (slot : Nat) : List Byte :=
  leBytes 2 r.group ++ leBytes 2 g.step ++ leBytes 1 kind ++ leBytes 1 (statusCode st) ++ leBytes 1 (shardOf s r % 16 + 16 * bit delivered) ++
  leBytes 1 cause ++ leBytes 2 g.missing ++ leBytes 2 (lateMembers s g r).length ++ leBytes 4 (tget 0 g.dropped slot) ++ namedBytes (namedOf s g r)

/-- A class 3 letter of a group to a member, discarded where it cannot be delivered (R252, R255). -/
def sendMember (e : Nat) (r : GroupRec) (slot addr : Nat) (reg : Bool) (payload : List Byte) (s : State) : State :=
  let h := { blankHeader with dest := memberRef s slot, cls := 3, vc := 5, plot := r.plot, groupOp := r.group, raddr := addr, reg := reg }
  match sendOwn h (e + 1) payload none s with
  | some (_, s') => s'
  | none => s

/-- A byte string cut where addresses reach a multiple of 4,096 (R132, R255). -/
def cutPages : Nat → Nat → List Byte → List (Nat × List Byte)
  | 0, _, _ => []
  | _, _, [] => []
  | n + 1, a, l =>
    let k := 4096 - a % 4096
    (a, l.take k) :: cutPages n (a + k) (l.drop k)

/-- A stretch of a member's result; the mailbag manager reads its lines (R207). -/
def sendResult (e : Nat) (g : Group) (r : GroupRec) (slot off : Nat) (l : List Byte) (s : State) : State :=
  let s := cntAdd (idOffice 6 g.office) (rangeLines off l.length) s
  match g.members.find? fun x => x.1 = slot with
  | none => s
  | some (_, m) => (cutPages (l.length / 4096 + 2) (m.resultBase + off) l).foldl (fun s x => sendMember e r slot x.1 false x.2 s) s

/-- A notice to a member (R256). -/
def sendNotice (e slot kind : Nat) (st : Status) (cause : Nat) (delivered : Bool) (s : State) : State :=
  let g := groupOf s e
  match g.record, g.members.find? (fun x => x.1 = slot) with
  | some r, some (_, m) =>
    sendMember e r slot (m.noticeBase + 1024 * (g.step % 64) + 64 * shardOf s r) true (noticeBytes s g r kind st cause delivered slot) s
  | _, _ => s

/-- A notice to every member of the rack. -/
def noticeAll (e kind : Nat) (st : Status) (cause : Nat) (s : State) : State :=
  match (groupOf s e).record with
  | some r => (memberSlots r).foldl (fun s x => sendNotice e x kind st cause false s) s
  | none => s

/-! ### Chain letters (R254) -/

/-- A pass is keyed by its axis and direction. -/
def passKey (a : Nat) (back : Bool) : Nat := 2 * a + bit back

def passOf (g : Group) (k : Nat) : Pass := tget {} g.passes k

def setPass (e k : Nat) (f : Pass → Pass) (s : State) : State :=
  modGroup s e fun g => { g with passes := tset {} g.passes k (f (passOf g k)) }

/-- The direction of a pass: positive forward, negative back. -/
def passDir (a : Nat) (back : Bool) : Nat := 2 * a + 1 + bit back

/-- The neighbour rack in a direction. -/
def neighbour (s : State) (a : Nat) (back : Bool) : Nat :=
  let r := rackOf (srcRef s)
  let n := axisLen s a
  let c := (coord r a + (if back then n - 1 else 1)) % n
  if a = 0 then r % 256 + c * 256 else if a = 1 then r / 256 * 256 + c * 16 + r % 16 else r / 16 * 16 + c

/-- A letter of an office onto a standing route's queue (R161). -/
def queueRoute (out route : Nat) (l : OwnLetter) (s : State) : State :=
  let q := s.sw.officeRoutes
  let q := if q.any (fun x => x.1 = out && x.2.1 = route) then q.map fun x => if x.1 = out && x.2.1 = route then (x.1, x.2.1, x.2.2 ++ [l]) else x
    else q ++ [(out, route, [l])]
  { s with sw := { s.sw with officeRoutes := q } }

/-- A chain letter is sent: on the next link of ROUTE_LINKS while its standing route runs, else by routed service (R254, R265); one without a path
is gone at once. -/
def sendChainLetter (e a : Nat) (back : Bool) (off : Nat) (payload : List Byte) (s : State) : State :=
  let g := groupOf s e
  match g.record with
  | none => s
  | some r =>
    let links := bitsSet 16 r.routeLinks
    let dir := passDir a back
    let t := tget 0 g.linkTurn dir
    let s := modGroup s e fun g => { g with linkTurn := tset 0 g.linkTurn dir (t + 1) }
    let h := { blankHeader with
      dest := neighbour s a back * 4096, src := srcRef s, cls := 4, vc := 6, plot := r.plot, groupOp := r.group,
      raddr := off + g.step * 2 ^ 32 + posOf s r (rackOf (srcRef s)) a * 2 ^ 48 + a * 2 ^ 52 + bit back * 2 ^ 54 }
    let out := portOfDir dir (links.getD (t % max 1 links.length) 0)
    let routed := links.isEmpty || routeFallen s out r.group || (routeOf s.bank (256 + g.office) r.group).isNone
    if routed then
      match sendOwn h (e + 1) payload none s with
      | some (_, s') => s'
      | none => if off = 0xFFFFFFC0 && !back then startBack e a s else s
    else
      let (l, s) := ownLetter h (e + 1) payload s
      queueRoute out r.group l s

/-- A STEP_MARK's 64 bytes (R254). -/
def markBytes (s : State) (g : Group) (r : GroupRec) (st : Status) (cause : Nat) : List Byte :=
  leBytes 1 (statusCode st) ++ leBytes 1 cause ++ leBytes 2 g.missing ++ zeros 4 ++ namedBytes (namedOf s g r) ++ zeros 8

/-- A pass's STEP_MARK leaves; the pass is then sent. -/
def sendMark (e a : Nat) (back : Bool) (st : Status) (cause : Nat) (s : State) : State :=
  let g := groupOf s e
  match g.record with
  | none => s
  | some r =>
    let s := sendChainLetter e a back 0xFFFFFFC0 (markBytes s g r st cause) s
    setPass e (passKey a back) (fun p => { p with sent := true }) s

/-- A pass's data, read from office SRAM (R207), in letters of 4,096 bytes, then its STEP_MARK (R254). -/
def sendPass (e a : Nat) (back : Bool) (data : List Byte) (s : State) : State :=
  let s := cntAdd (idOffice 6 (groupOf s e).office) (rangeLines 0 data.length) s
  let s := (cutPages (data.length / 4096 + 2) 0 data).foldl (fun s x => sendChainLetter e a back x.1 x.2 s) s
  let g := groupOf s e
  sendMark e a back g.status g.cause s

/-- The root's position along an axis (BROADCAST, R253). -/
def rootPos (r : GroupRec) (a : Nat) : Nat :=
  let b := r.root / max 1 (membersHere r)
  if a = 0 then b % extent r 0 else if a = 1 then b / extent r 0 % extent r 1 else b / extent r 0 / extent r 1

/-- A BROADCAST's data reaches this rack along an axis: the highest one on which it differs from the root; none in the root's rack. -/
def arriveAxis (s : State) (r : GroupRec) : Option Nat :=
  ([2, 1, 0].find? fun a => decide (posOf s r (rackOf (srcRef s)) a ≠ rootPos r a))

/-- The passes that this module sends on an axis (R253, R254). -/
def owes (s : State) (r : GroupRec) (a : Nat) (back : Bool) : Bool :=
  let p := posOf s r (rackOf (srcRef s)) a
  let ends := if back then p = 0 else p + 1 = extent r a
  if extent r a ≤ 1 || ends then false
  else if opCode r = 4 then
    let q := rootPos r a
    (match arriveAxis s r with
      | some b => decide (a ≥ b)
      | none => true) && (if back then decide (p ≤ q) else decide (p ≥ q))
  else true

/-- Every STEP_MARK still owed is sent with the step's status (R262). -/
def sendOwed (e : Nat) (st : Status) (cause : Nat) (s : State) : State :=
  match (groupOf s e).record with
  | none => s
  | some r =>
    (axesOf r).foldl (fun s a => [false, true].foldl (fun s back =>
      if owes s r a back && !(passOf (groupOf s e) (passKey a back)).sent then sendMark e a back st cause s else s) s) s

/-! ### How a step ends without results (R211, R262) -/

/-- A group's descriptors leave every bundle queue of its office's hemisphere; bundles in hand finish without effect. -/
def dropBundles (n : Nat) (s : State) : State :=
  noteAllQueues ((s.clerks.map (·.1)).foldl (fun s k => modClerk s k fun x => { x with queue := x.queue.filter fun b => b.group ≠ n }) s)

/-- The step ends with no results: owed STEP_MARKs, then notices with its status (R262). -/
def failStep (e : Nat) (st : Status) (cause : Nat) (s : State) : State :=
  let g := groupOf s e
  match g.record with
  | none => s
  | some r =>
    if !g.launched || g.endDue then s
    else
      let s := modGroup s e fun g => { g with status := st, cause := cause, withheld := true, inRackDone := true }
      let s := dropBundles r.group (sendOwed e st cause s)
      let s := noticeAll e 0 st cause s
      modGroup s e fun g => { g with endDue := true, level := 5 }

/-- R211, R214, R215: a step is aborted with CAUSE 2 ADDRESS, 3 SRAM_PARITY or 4 BUNDLE_LIMIT; it ends INCOMPLETE and is reported. -/
def abortStep (e cause : Nat) (s : State) : State :=
  let g := groupOf s e
  match g.record with
  | none => s
  | some r =>
    if !g.launched || g.endDue then s
    else report 0x020C r.group (leBytes 2 g.step ++ leBytes 1 cause) (cnt1 (idOffice 13 g.office) (failStep e .incomplete cause s))

/-! ### Distribution (R253 item 3, R255–R260) -/

/-- A word at a byte offset of a list of words. -/
def sliceWords (ws : List (BitVec 32)) (first n : Nat) : List (BitVec 32) := (ws.drop first).take n

/-- Words that no rule gives a value, for what a level computes from nobody's data (R262; notes/assumptions/143.md). -/
def freeWords (d n : Nat) : List (BitVec 32) := (List.range n).map fun i => BitVec.ofNat 32 (Config.opDraw d (2 ^ 62 + i))

/-- The line result as words. -/
def lineWords (g : Group) (r : GroupRec) (d : Nat) : List (BitVec 32) := if g.levelData.isEmpty then freeWords d (levelWords r) else bytesWords g.levelData

/-- The racks of the box before this one on an axis, as a received forward pass of SCAN (R253). -/
def scanBefore (g : Group) (r : GroupRec) : Option (List (BitVec 32)) :=
  (axesOf r).foldl (fun acc a =>
    let p := passOf g (passKey a false)
    let recv := if p.parts.isEmpty || p.failed then none else some (bytesWords (mread p.data 0 (4 * levelWords r)))
    mergeWords r recv acc) none

/-- Each member's result of a SCAN (R249, R253): the prefix of the racks before, plus its own in-rack inclusive prefix, in order. -/
def scanHere (s : State) (g : Group) (r : GroupRec) (before : Option (List (BitVec 32))) (d : Nat) : List (Nat × List (BitVec 32)) :=
  ((memberColumns s g r).foldl (fun (x : Option (List (BitVec 32)) × List (Nat × List (BitVec 32))) m =>
    let acc := mergeWords r x.1 m.2
    (acc, x.2 ++ [(m.1, (mergeWords r before acc).getD (freeWords d (levelWords r)))])) (none, [])).2

/-- A tag of a DISPATCH contribution: destination, TOKEN_ID, GATE (R257). -/
structure Token where
  source : Nat
  place : Nat
  dest : Nat
  token : Nat
  gate : BitVec 32
  deriving DecidableEq, Repr

/-- The tags of every member present, in ascending source and then TOKEN_ID (R258). -/
def tokensIn (s : State) (g : Group) (r : GroupRec) : List Token :=
  let sram := (officeOf s g.office).sram
  let slots := memberSlots r
  (presentMembers s g r).flatMap fun x =>
    let base := g.inBase + slots.idxOf x * inStride r
    sortBy (fun a b => decide (a.token ≤ b.token)) ((List.range (tokensOf r)).map fun t =>
      let l := mread sram (base + 8 * t) 8
      { source := slots.idxOf x, place := t, dest := fieldAt l 0 2, token := fieldAt l 2 2, gate := BitVec.ofNat 32 (fieldAt l 4 4) : Token })

/-- Tokens placed for a destination, and those dropped (R258). -/
def placedFor (r : GroupRec) (ts : List Token) (d : Nat) : List Token × List Token :=
  let mine := ts.filter fun t => t.dest = d
  (mine.take (capOf r), mine.drop (capOf r))

/-- The envelope of a destination (R257): CAP tags, then CAP bodies. -/
def envelopeFor (s : State) (g : Group) (r : GroupRec) (placed : List Token) : List Byte :=
  let sram := (officeOf s g.office).sram
  let empty := capOf r - placed.length
  (placed.flatMap fun t => leBytes 2 t.source ++ leBytes 2 t.token ++ leBytes 4 t.gate.toNat) ++
  (List.replicate empty (leBytes 2 0xFFFF ++ zeros 6)).flatten ++
  (placed.flatMap fun t => mread sram (g.inBase + t.source * inStride r + 8 * tokensOf r + t.place * tokBytes r) (tokBytes r)) ++
  zeros (empty * tokBytes r)

/-- A return slip (R258). -/
def slipBytes (g : Group) (r : GroupRec) (drops : List Token) : List Byte :=
  let t := tokensOf r
  leBytes 2 r.group ++ leBytes 2 g.step ++ leBytes 2 t ++ leBytes 2 drops.length ++ zeros 8 ++
  leBytes ((t + 7) / 8) ((drops.map (·.token)).eraseDups.foldl (fun n k => n + 2 ^ k) 0)

/-- An element of a body in FP32; an integer is rounded to it (R260; notes/assumptions/129.md). -/
def bodyElem (m : Memory) (fmt base i : Nat) : BitVec 32 := if isInt fmt then round32 (readNum m fmt base i) else readElem m fmt base i

/-- COMBINE's bodies for a source member (R260): each token's gate-weighted FP32 sum over the slots that held it, by the slot map of the step. -/
def combineFor (s : State) (g : Group) (r : GroupRec) (dg : Group) (dr : GroupRec) (d j : Nat) : List (BitVec 32) :=
  let sram := (officeOf s g.office).sram
  let slots := memberSlots r
  let n := arrayElems r.fmtIn (tokBytes dr)
  (List.range (tokensOf dr)).flatMap fun t =>
    let held := dg.slotMap.filter fun x => dg.slotStep = some g.step && x.2.2.1 = j && x.2.2.2.1 = t && memberComplete g r (slots.getD x.1 0)
    (List.range n).map fun i =>
      sumFree fAdd (fun q => Config.opDraw d ((j * 65536 + t) * 2 ^ 32 + i * 256 + q)) held.length
        (held.map fun x => fMul x.2.2.2.2 (bodyElem sram r.fmtIn (g.inBase + x.1 * inStride r + x.2.1 * tokBytes dr) i))

/-- What each member of the rack receives: (slot, offset in its result, bytes), by operator (R249). -/
def resultsOf (e d : Nat) (s : State) : List (Nat × Nat × List Byte) × State :=
  let g := groupOf s e
  match g.record with
  | none => ([], s)
  | some r =>
    let slots := memberSlots r
    let sb := shardBytes r
    let sram := (officeOf s g.office).sram
    let rack := rackOf (srcRef s)
    let elems := arrayElems r.fmtIn sb
    let outAt := fun n => arrayBytes r.fmtOut n
    let ws := lineWords g r d
    match opCode r with
    | 0 => ([], s)
    | 1 =>
      let (l, s) := groupOut g r d ws s
      (slots.map fun x => (x, outAt (shardOf s r * elems), l), s)
    | 2 =>
      let total := elems * shardsOf r
      let per := total / max 1 (membersAll r)
      slots.foldl (fun (acc : List (Nat × Nat × List Byte) × State) x =>
        let i := memberIndex s r rack x
        let lo := max (i * per) (shardOf s r * elems)
        let hi := min ((i + 1) * per) ((shardOf s r + 1) * elems)
        if hi ≤ lo then acc
        else
          let (l, s) := groupOut g r d (sliceWords ws (lo - shardOf s r * elems) (hi - lo)) acc.2
          (acc.1 ++ [(x, outAt (lo - i * per), l)], s)) ([], s)
    | 3 =>
      let parts := (List.range (membersAll r)).map fun i => (i, (g.levelData.drop (i * sb)).take sb)
      if r.fmtOut = r.fmtIn then (slots.flatMap fun x => parts.map fun y => (x, y.1 * r.stepBytes + shardOf s r * sb, y.2), s)
      else
        let (conv, s) := parts.foldl (fun (acc : List (Nat × List Byte) × State) (y : Nat × List Byte) =>
          let (l, s) := groupOut g r d ((List.range elems).map fun i => readElem ((List.range y.2.length).zip y.2) r.fmtIn 0 i) acc.2
          (acc.1 ++ [(y.1, l)], s)) ([], s)
        (slots.flatMap fun x => conv.map fun y => (x, outAt ((y.1 * shardsOf r + shardOf s r) * elems), y.2), s)
    | 4 =>
      if r.fmtOut = r.fmtIn then (slots.map fun x => (x, shardOf s r * sb, g.levelData), s)
      else
        let (l, s) := groupOut g r d ((List.range elems).map fun i => readElem ((List.range g.levelData.length).zip g.levelData) r.fmtIn 0 i) s
        (slots.map fun x => (x, outAt (shardOf s r * elems), l), s)
    | 5 =>
      let (l, s) := groupOut g r d ws s
      (if rootHere s r then [(rootSlot r, outAt (shardOf s r * elems), l)] else [], s)
    | 6 =>
      let blk := r.stepBytes / max 1 (membersAll r)
      (slots.flatMap fun x => slots.map fun y =>
        (x, slots.idxOf y * blk, if memberComplete g r y then mread sram (g.inBase + slots.idxOf y * sb + slots.idxOf x * blk) blk else zeros blk), s)
    | 7 =>
      let ts := tokensIn s g r
      (slots.map fun x => (x, 0, envelopeFor s g r (placedFor r ts (slots.idxOf x)).1), s)
    | 8 =>
      match dispatchOf s r with
      | none => ([], s)
      | some (_, dg, dr) =>
        slots.foldl (fun (acc : List (Nat × Nat × List Byte) × State) x =>
          let (l, s) := groupOut g { r with fmtIn := 0 } d (combineFor s g r dg dr d (slots.idxOf x)) acc.2
          (acc.1 ++ [(x, 0, l)], s)) ([], s)
    | 9 =>
      let un := mapRows s g r (foldRank r) d (fun seed pick => unfoldRow seed r.paramA (foldRank r) pick) ws
      let (l, s) := groupOut g r d un s
      let main := slots.map fun x => (x, outAt (shardOf s r * elems), l)
      if !r.resid then (main, s)
      else
        let own := bytesWords g.rackData
        let fold := mapRows s g r r.paramA d (fun seed pick => foldRow seed r.paramA (foldRank r) pick) own
        let back := mapRows s g r (foldRank r) d (fun seed pick => unfoldRow seed r.paramA (foldRank r) pick) fold
        let (q, s) := groupOut g r d (List.zipWith fSub own back) s
        (main ++ slots.map fun x => (x, r.stepBytes + outAt (shardOf s r * elems), q), s)
    | 0xA =>
      slots.foldl (fun (acc : List (Nat × Nat × List Byte) × State) x =>
        if !memberComplete g r x then acc
        else
          let (l, s) := groupOut g r d (memberWords s g r x) acc.2
          (acc.1 ++ [(x, outAt (shardOf s r * elems), l)], s)) ([], s)
    | 0xB =>
      (scanHere s g r (scanBefore g r) d).foldl (fun (acc : List (Nat × Nat × List Byte) × State) x =>
        let (l, s) := groupOut g r d x.2 acc.2
        (acc.1 ++ [(x.1, outAt (shardOf s r * elems), l)], s)) ([], s)
    | 0xC => (slots.map fun x => (x, shardOf s r * sb, wordsBytes ws), s)
    | _ => (slots.map fun x => (x, shardOf s r * sb, mread sram (g.outBase + slots.idxOf x * sb) sb), s)

/-- DISPATCH's drops (R258): the slot map is kept, bad tags counted, each member's dropped tokens counted, and slips are due. -/
def dispatchDrops (e : Nat) (s : State) : List (Nat × List Token) × State :=
  let g := groupOf s e
  match g.record with
  | none => ([], s)
  | some r =>
    if opCode r ≠ 7 then ([], s)
    else
      let ts := tokensIn s g r
      let slots := memberSlots r
      let bad := (ts.filter fun t => t.dest ≠ 0xFFFF && decide (t.dest ≥ slots.length)).length
      let per := (List.range slots.length).map fun d => (d, placedFor r ts d)
      let kept := per.flatMap fun x => x.2.1.zipIdx.map fun y => (x.1, y.2, y.1.source, y.1.token, y.1.gate)
      let dropped := per.flatMap fun x => x.2.2
      let by_ := (slots.zipIdx.map fun x => (x.1, dropped.filter fun t => t.source = x.2)).filter fun x => !x.2.isEmpty
      let s := cntAdd (idGroup 7 e) dropped.length (cntAdd (idGroup 4 e) bad s)
      (by_, modGroup s e fun g => { g with slotMap := kept, slotStep := some g.step, dropped := by_.map fun x => (x.1, x.2.length) })

/-- The step's results, slips and notices are sent (R255, R256), and the end of the step is due. -/
def distribute (e : Nat) (s : State) : State :=
  match (groupOf s e).record with
  | none => s
  | some r =>
    let d := s.draw
    let s := { s with draw := d + 1 }
    let (slips, s) := dispatchDrops e s
    let (rs, s) := resultsOf e d s
    let g := groupOf s e
    let s := rs.foldl (fun s x => sendResult e g r x.1 x.2.1 x.2.2 s) s
    let s := slips.foldl (fun s x => match g.members.find? fun m => m.1 = x.1 with
      | some (_, m) =>
        (cutPages 3 (m.noticeBase + 65536 + 1024 * (g.step % 64)) (slipBytes g r x.2)).foldl (fun s y => sendMember e r x.1 y.1 false y.2 s) s
      | none => s) s
    let s := (memberSlots r).foldl (fun s x =>
      let st := if g.status = .ok && decide (tget 0 g.dropped x > 0) then .overflowReturned else g.status
      sendNotice e x 0 st g.cause true s) s
    modGroup s e fun g => { g with endDue := true, level := 5 }

/-! ### Axis levels (R253, R254) -/

/-- The bytes that a pass toward this module carries in all. -/
def passLength (s : State) (g : Group) (r : GroupRec) (a : Nat) (back : Bool) : Nat :=
  let n := g.levelData.length
  if opCode r = 4 then shardBytes r
  else if opCode r = 3 then (if back then n * extent r a else n * posOf s r (rackOf (srcRef s)) a)
  else if combines r then 4 * levelWords r
  else n

/-- A pass toward this module is complete: its lines and its STEP_MARK have arrived, or its wait is over (R254, R262). -/
def passComplete (s : State) (g : Group) (r : GroupRec) (a : Nat) (back : Bool) : Bool :=
  let p := passOf g (passKey a back)
  p.failed || (p.mark && decide (sumNat (p.parts.map (·.2)) ≥ passLength s g r a back))

/-- What a pass brought. -/
def passData (s : State) (g : Group) (r : GroupRec) (a : Nat) (back : Bool) : List Byte :=
  mread (passOf g (passKey a back)).data 0 (passLength s g r a back)

/-- The axis that the step is at: LEVEL 2, 3, 4 stand for x, y, z (R266). -/
def axisNow (g : Group) : Option Nat := if 2 ≤ g.level && g.level ≤ 4 then some (g.level - 2) else none

/-- The step goes to its next axis, or to distribution after the last; with timed service off the axis waits (R265). The timer of a forward pass
waited for starts (R261). -/
def nextAxis (e : Nat) (s : State) : State :=
  let g := groupOf s e
  match g.record with
  | none => s
  | some r =>
    match (axesOf r).find? fun a => decide (a + 2 > g.level) with
    | none => distribute e s
    | some a =>
      if !s.mer.timed then modGroup s e fun g => { g with axisHeld := true }
      else
      let s := modGroup s e fun g => { g with level := a + 2, axisHeld := false }
      if posOf s r (rackOf (srcRef s)) a = 0 || opCode r = 4 then s
      else setPass e (passKey a false) (fun p => { p with timer := some (roundNo s) }) s

/-- The own input taken as the line so far where a pass failed (R262): for ALL_GATHER in its place, the slices before it filled with zeros. -/
def ownLine (r : GroupRec) (p : Nat) (own : List Byte) : List Byte :=
  if opCode r = 3 then zeros (own.length * p) ++ own else own

/-- The own input taken as the whole line: for ALL_GATHER every other slice filled with zeros. -/
def ownAlone (r : GroupRec) (a p : Nat) (own : List Byte) : List Byte :=
  if opCode r = 3 then ownLine r p own ++ zeros (own.length * (extent r a - 1 - p)) else own

/-- One stage of an axis level, where its input is here: answers none where it has to wait. -/
def axisStage (e : Nat) (s : State) : Option State :=
  let g := groupOf s e
  match g.record, axisNow g with
  | some r, some a =>
    if g.endDue || !g.launched || g.axisHeld then none
    else
      let p := posOf s r (rackOf (srcRef s)) a
      let last := p + 1 = extent r a
      let fwd := passOf g (passKey a false)
      let bck := passOf g (passKey a true)
      if opCode r = 4 then
        let src : Option (List Byte) := match arriveAxis s r with
          | some b =>
            if a < b then some []
            else if a > b then some g.levelData
            else
              let back := decide (p < rootPos r a)
              if passComplete s g r a back then some (passData s g r a back) else none
          | none => some g.levelData
        match src with
        | none => none
        | some data =>
          let takes := match arriveAxis s r with | some b => decide (a = b) | none => false
          let s := if takes then modGroup s e fun g => { g with levelData := data } else s
          let s := if owes s r a false && !fwd.sent then sendPass e a false (groupOf s e).levelData s else s
          let s := if owes s r a true && !bck.sent then sendPass e a true (groupOf s e).levelData s else s
          some (nextAxis e s)
      else if !fwd.sent && !(last && bck.sent) then
        -- the forward pass: position 0 sends its input, each later one combines
        let ready := p = 0 || passComplete s g r a false
        if !ready then none
        else
          let own := g.levelData
          let sum := if fwd.failed then ownLine r p own else if p = 0 then own else combineLevel r (passData s g r a false) own
          if last then
            let s := modGroup s e fun g => { g with levelData := sum }
            some (nextAxis e (if p = 0 then s else sendPass e a true sum s))
          else some (sendPass e a false sum s)
      else if last then none
      else if passComplete s g r a true then
        let line := if bck.failed then ownAlone r a p g.levelData else passData s g r a true
        let s := modGroup s e fun g => { g with levelData := line }
        let s := if p = 0 then s else sendPass e a true line s
        some (nextAxis e s)
      else none
  | _, _ => none

/-- The axis levels go on as far as their inputs allow. -/
def runAxes : Nat → Nat → State → State
  | 0, _, s => s
  | n + 1, e, s => match axisStage e s with
    | some s' => runAxes n e s'
    | none => s

/-- The in-rack level has finished: its result is taken, and the first axis level begins (R253). -/
def rackFinished (e : Nat) (s : State) : State :=
  let g := groupOf s e
  match g.record with
  | none => s
  | some r =>
    let d := s.draw
    let s := { s with draw := d + 1 }
    let rack := rackResult s g r d
    let s := modGroup s e fun g' => { g' with rackData := rack, levelData := axisInput s g r d rack, bundlesIssued := 0, bundlesDone := 0, phase := 8 }
    runAxes 8 e (nextAxis e s)

/-- An axis level that waited for timed service begins once it is on (R265). -/
def resumeAxes (e : Nat) (s : State) : State :=
  let g := groupOf s e
  if g.axisHeld && g.launched && !g.endDue && s.mer.timed then runAxes 8 e (nextAxis e s) else s

/-! ### The in-rack level: phases of the group's program (R213, R233, R474) -/

/-- The program that a group's operator runs: a loaded one by PROG_ID, or the library routine whose PROG_ID equals the code (R249). -/
def programOf (s : State) (r : GroupRec) : Option Program :=
  if r.operator = 0xFF then (s.bank.prog.find? fun x => match x.2 with | some p => decide (p.progId = r.progId) | none => false).bind (·.2)
  else ((List.range 32).filterMap (Config.libraryProgram (libraryOf s))).find? fun p => p.progId = opCode r

/-- The phase of a group's step that its bundles come from. -/
def phaseOf (s : State) (g : Group) (r : GroupRec) : Option (Program × Phase) :=
  (programOf s r).bind fun p => (p.phases[g.phase]?).map fun ph => (p, ph)

/-- The phases go on: a routine without a further phase ends the in-rack level. -/
def nextPhase (e : Nat) (s : State) : State :=
  let g := groupOf s e
  match g.record with
  | none => s
  | some r => if (phaseOf s g r).isSome then s else rackFinished e s

/-- The in-rack level's input is complete, or the wait for it is over: its bundles may be placed (R213, R251). -/
def startPhases (e : Nat) (s : State) : State :=
  nextPhase e (modGroup s e fun g => { g with inRackDone := true, level := 1, phase := 0, bundlesIssued := 0, bundlesDone := 0 })

/-- The level's contributions are all here (R251). -/
def tryInRack (e : Nat) (s : State) : State :=
  let g := groupOf s e
  match g.record with
  | some r => if g.launched && !g.inRackDone && !g.endDue && (absentMembers s g r).isEmpty then startPhases e s else s
  | none => s

/-! ### Contributions and chain letters (R251, R254) -/

/-- The step becomes one in progress with its first input (R252, R261). -/
def startTimer (e : Nat) (s : State) : State :=
  modGroup s e fun g => { g with progress := true, level := if g.level = 0 then 1 else g.level,
                                 timer := match g.timer with | some t => some t | none => some (roundNo s) }

/-- Lines of a contribution: the first and how many. -/
def linesAt (s : State) (r : GroupRec) (off len : Nat) : List Nat :=
  if r.operator = 0 then [0]
  else (List.range ((len + lineUnit r - 1) / lineUnit r)).map fun i => (off - shardBase s r) / lineUnit r + i

/-- A contribution of the current step is written into the mailbag (R251). -/
def takeContribution (e slot off : Nat) (data : List Byte) (s : State) : State :=
  let g := groupOf s e
  match g.record with
  | none => s
  | some r =>
    let sb := shardBase s r
    let ok := if r.operator = 0 then off = 0 && data.isEmpty
      else off ≥ sb && decide (off + data.length ≤ sb + shardBytes r) && (off - sb) % lineUnit r = 0 && !data.isEmpty &&
        (data.length % lineUnit r = 0 || off + data.length = sb + shardBytes r)
    let had := tget [] g.lines slot
    let ls := linesAt s r off data.length
    if !ok || !(contributors s r).contains slot then cnt1 (idGroup 2 e) s
    else if ls.any had.contains then cnt1 (idGroup 1 e) s
    else if g.inRackDone then cnt1 (idGroup 2 e) s
    else
      let s := modOffice s g.office fun o => { o with sram := mwrite o.sram (g.inBase + (memberSlots r).idxOf slot * inStride r + (off - sb)) data }
      let s := cntAdd (idOffice 6 g.office) ls.length s
      let s := modGroup s e fun g => { g with lines := tset [] g.lines slot (had ++ ls), lastLine := tset 0 g.lastLine slot (roundNo s) }
      tryInRack e (startTimer e s)

/-- R251: a contribution that the reorder unit delivers; none where it is not taken and is held aside. One step ahead while the GDDR7 half does
not serve, it is held aside as one further ahead is (DESIGN CHOICE, notes/assumptions/140.md). -/
def contribution (e : Nat) (h : Header) (data : List Byte) (s : State) : Option State :=
  let g := groupOf s e
  match g.record with
  | none => some s
  | some r =>
    let slot := slotOf h.src
    let delta := (bitsOf h.raddr 47 32 + 65536 - g.step) % 65536
    if !r.memberMask.getLsbD slot then some (cnt1 (idGroup 0 e) s)
    else if delta = 0 then some (takeContribution e slot (h.raddr % 2 ^ 32) data s)
    else if delta ≥ 32768 then some (cnt1 (idGroup 2 e) s)
    else if delta = 1 && halfServes s (hemOfOffice g.office) then
      some (memRequest (hemOfOffice g.office) 1 (1 + e) data.length
        (cnt1 (idGroup 3 e) (modGroup s e fun g => { g with spillBytes := g.spillBytes ++ [(slot, h.raddr % 2 ^ 32, data)] })))
    else none

/-- A received STEP_MARK is merged with the module's own record (R254); a failing one ends the wait on its pass (R262). -/
def takeMark (e a : Nat) (back : Bool) (data : List Byte) (s : State) : State :=
  let k := passKey a back
  let count := fieldAt data 2 2
  let names : List Named := ((List.range 8).map fun i =>
    let x := sliceAt data (8 + 6 * i) 6
    { ref := fieldAt x 0 3, lateness := fieldAt x 3 2, missing := bitOf (fieldAt x 5 1) 0, host := bitOf (fieldAt x 5 1) 1 : Named }).filter
      fun x => x.ref ≠ 0 || x.lateness ≠ 0
  let bad := fieldAt data 0 1 ≠ 0
  let s := modGroup s e fun g => { g with
    missing := if back then max g.missing count else g.missing + count,
    named := addNamed g.named names }
  let s := setPass e k (fun p => { p with mark := true, failed := bad }) s
  match (groupOf s e).record with
  | none => s
  | some r =>
    if !bad then s
    else if r.partialPolicy && opCode r ≠ 4 then
      modGroup s e fun g => { g with status := .incomplete, cause := if g.status = .ok then 5 else g.cause }
    else failStep e .memberMissing 5 s

/-- R254: a chain letter or STEP_MARK that the reorder unit delivers. The office keeps one of a step to come until that step launches
(notes/assumptions/41.md). The first of a BROADCAST pass starts its timer, since this module has no input of its own to it (R261). -/
def chainLetter (e : Nat) (h : Header) (data : List Byte) (s : State) : State :=
  let g := groupOf s e
  let delta := (bitsOf h.raddr 47 32 + 65536 - g.step) % 65536
  if delta ≥ 32768 || (delta = 0 && g.began && (!g.launched || g.endDue)) then cnt1 (idGroup 2 e) s
  else if delta ≠ 0 || !g.launched then modGroup s e fun g => { g with chainAhead := g.chainAhead ++ [(h, data)] }
  else
    let a := bitsOf h.raddr 53 52
    let back := bitOf h.raddr 54
    let off := h.raddr % 2 ^ 32
    let k := passKey a back
    let first := a ≤ 2 && (g.record.map opCode) = some 4 && (passOf g k).timer.isNone
    let s := if first then setPass e k (fun p => { p with timer := some (roundNo s) }) s else s
    let s := modGroup s e fun g => { g with progress := true, level := if g.level = 0 then 1 else g.level }
    if a > 2 then cnt1 (idGroup 2 e) s
    else if off = 0xFFFFFFC0 then runAxes 8 e (takeMark e a back data s)
    else
      let s := cntAdd (idOffice 6 g.office) (rangeLines off data.length) s
      runAxes 8 e (setPass e k (fun p => { p with data := mwrite p.data off data, parts := p.parts ++ [(off, data.length)] }) s)

/-! ### STEP_LAUNCH, STEP_TIMEOUT, STEP_END -/

/-- A group's step number `n` has ended. -/
def stepEnded (g : Group) (n : Nat) : Bool :=
  let d := (g.step + 65536 - n) % 65536
  g.began && (if d = 0 then !g.launched else decide (d < 32768))

/-- DISPATCH step s + 1 waits for the end of COMBINE step s, which works on step s (R259). -/
def combineHolds (s : State) (g : Group) (r : GroupRec) : Bool :=
  opCode r = 7 && s.groups.any fun x => match x.2.record with
    | some c => decide (c.operator = 8) && decide (c.paramA = r.group) && (x.2.state = .running || x.2.state = .closing) && !stepEnded x.2 g.step
    | none => false

/-- A group's next step may launch now (R246, R252, R259). -/
def mayLaunch (s : State) (g : Group) : Bool :=
  (g.state = .running || g.state = .closing) && !g.launched && decide (s.pow.ladder = 0) && !s.ident.skeleton &&
  (match g.record with | some r => !(g.began && combineHolds s g r) | none => false)

/-- STEP_LAUNCH (R252): the step is current, pending member entries act, what was spilled for it is staged, and chain letters kept for it are taken.
Contributions held aside are offered again by the reorder unit (Reorder.lean). -/
def launch (e : Nat) (s : State) : State :=
  let g := groupOf s e
  if !mayLaunch s g then s
  else
    let spilled := g.spillBytes
    let s := setGroup s e { g with
      step := if g.began then (g.step + 1) % 65536 else 0, began := true, launched := true, progress := false, launchRound := roundNo s,
      members := g.members.map fun m => ((g.pendingMembers.find? fun x => x.1 = m.1).getD m), pendingMembers := [],
      lines := [], lastLine := [], timer := none, inRackDone := false, spillBytes := [], phase := 0, bundlesIssued := 0, bundlesDone := 0,
      passes := [], status := .ok, cause := 0, named := [], missing := 0, withheld := false, endDue := false,
      dropped := [], level := 0, levelData := [], rackData := [], axisHeld := false, chainAhead := [] }
    let s := memRequest (hemOfOffice g.office) 1 (1 + e) (sumNat (spilled.map (·.2.2.length))) s
    let s := tryInRack e (spilled.foldl (fun s x => takeContribution e x.1 x.2.1 x.2.2 s) s)
    g.chainAhead.foldl (fun s x => chainLetter e x.1 x.2 s) s

/-- The wait that has expired at this boundary: none, the in-rack level (some none), or a pass (R261). -/
def expired (s : State) (e : Nat) : Option (Option (Nat × Bool)) :=
  let g := groupOf s e
  match g.record with
  | none => none
  | some r =>
    let late := fun (t : Option Nat) => match t with | some t => decide (roundNo s ≥ t + stepTimeoutOf r) | none => false
    if !g.launched || g.endDue then none
    else if !g.inRackDone then (if late g.timer then some none else none)
    else
      match axisNow g with
      | none => none
      | some a =>
        match [false, true].find? (fun back =>
          late (passOf g (passKey a back)).timer && !passComplete s g r a back &&
          (if back then (passOf g (passKey a false)).sent || opCode r = 4 else !(passOf g (passKey a false)).sent)) with
        | some back => some (some (a, back))
        | none => none

/-- STEP_TIMEOUT (R261, R262). -/
def stepTimeout (e : Nat) (s : State) : State :=
  let g := groupOf s e
  match g.record, expired s e with
  | some r, some none =>
    let gone := absentMembers s g r
    let s := modGroup s e fun g => { g with
      missing := g.missing + gone.length,
      named := g.named ++ gone.map fun x => { ref := memberRef s x, lateness := 0xFFFF, missing := true, host := false } }
    if r.partialPolicy && opCode r ≠ 4 then startPhases e (modGroup s e fun g => { g with status := .incomplete, cause := 1 })
    else failStep e .memberMissing 1 s
  | some r, some (some (a, back)) =>
    let host := neighbour s a (!back) * 4096 + (112 + modIndex s) * 32 + 31
    let s := modGroup s e fun g => { g with
      missing := g.missing + 1, named := g.named ++ [{ ref := host, lateness := 0xFFFF, missing := true, host := true }] }
    if r.partialPolicy && opCode r ≠ 4 then
      runAxes 8 e (setPass e (passKey a back) (fun p => { p with failed := true })
        (modGroup s e fun g => { g with status := .incomplete, cause := 1 }))
    else failStep e .memberMissing 1 s
  | _, _ => s

/-- A letter of the group still waits in an egress or on a route (R252). -/
def groupSends (s : State) (e : Nat) : Bool :=
  (s.sw.egress.any fun x => x.2.own.any fun l => l.group = e + 1) || (s.sw.officeRoutes.any fun x => x.2.2.any fun l => l.group = e + 1)

/-- The late-letter report goes to the event ring, at most once per group in 64 Rounds (R264). -/
def lateReport (e : Nat) (s : State) : State :=
  let g := groupOf s e
  match g.record with
  | none => s
  | some r =>
    let recent := match g.lateReport with | some t => decide (roundNo s < t + 64) | none => false
    if (lateMembers s g r).isEmpty || recent then s
    else report 0x020B r.group (leBytes 2 g.step ++ (namedBytes (namedOf s g r)).take 38) (modGroup s e fun g => { g with lateReport := some (roundNo s) })

/-- STEP_END (R252, R264): once every result, slip and notice has left, or at once where R261 or R262 ended it, the step ends and the late-letter
report is built. -/
def stepEnd (e : Nat) (s : State) : State :=
  let g := groupOf s e
  if !g.launched || !g.endDue || (!g.withheld && groupSends s e) then s
  else
    let s := lateReport e s
    let s := cnt1 (idGroup (if g.status = .ok then 5 else 6) e) s
    modGroup s e fun g => { g with launched := false, progress := false, level := 0, endDue := false }

def execStepTimeout (e : Nat) (s : State) : Host.Outcome State Fault Refusal := .next (stepTimeout e s)

def execStepEnd (e : Nat) (s : State) : Host.Outcome State Fault Refusal := .next (stepEnd e s)

/-! ### Closing (R238, R246, R247) -/

/-- The drain condition of a close: no step in progress, and empty route queues (R247). -/
def groupDrained (s : State) (e : Nat) : Bool :=
  let g := groupOf s e
  !(g.launched && g.progress) && !(s.sw.officeRoutes.any fun x => x.2.1 = groupNumber g && !x.2.2.isEmpty)

/-- A close takes effect: GROUP_CLOSED notices, then the entry, its pages, spill area and slot-map entries are freed (R247). -/
def closeGroup (e : Nat) (st : Status) (s : State) : State :=
  let g := groupOf s e
  let s := noticeAll e 2 st 7 s
  let s := { s with bank := removeSlots (groupNumber g) s.bank, staging := { s.staging with bank := removeSlots (groupNumber g) s.staging.bank } }
  freeGroup e (dropBundles (groupNumber g) s)

/-- Skeleton service: every open step ends with SKELETON and every group is CLOSED (R238, R262). -/
def skeletonGroups (s : State) : State :=
  (openEntries s).foldl (fun s e =>
    let g := groupOf s e
    if g.state = .staged then freeGroup e s
    else
      let s := if g.launched && !g.endDue then failStep e .skeleton 6 s else s
      modGroup s e fun g => { g with state := .closed }) s

end Sys2Proof.Machine
end

