-- ==== Sys2Proof/Machine/Reorder.lean ====
section
/-! DEFINITION. The reorder units (spec/07, R192–R195): stream contexts, delivery in SSEQ order, gaps and LOSS notices, and letters held aside
for a step to come (R251). -/

namespace Sys2Proof.Machine

/-- A letter's payload. -/
def payloadOf (l : Letter) : List Byte := ((letterData l).drop 32).take l.hdr.length

/-- Cells that the unit's store and its spill area hold (R192). -/
def heldCells (s : State) (h : Nat) (spilled : Bool) : Nat :=
  sumNat ((reorderOf s h).streams.map fun x =>
    sumNat (((x.2.held ++ x.2.aside).filter fun y => y.spilled = spilled).map fun y => y.letter.cells.length))

/-- Where a letter of `n` cells goes: the store, else the spill area (true), else nowhere (R192); a half held by a memory test or out of service
takes none (R285), nor does one whose letter spill demands more than it sustains (R283). -/
def holdPlace (s : State) (h n : Nat) : Option Bool :=
  if heldCells s h false + n ≤ 65536 then some false
  else if halfServes s h && !spillBehind s h && heldCells s h true + n ≤ 16777216 then some true
  else none

def streamOf (s : State) (h key : Nat) : Option Stream := tfind (reorderOf s h).streams key

def putStream (h key : Nat) (x : Stream) (s : State) : State := modReorder s h fun r => { r with streams := tput r.streams key x }

/-- A letter is delivered to its target (R139): contributions and chain letters to their group, others to their post box or the slow-post
receiver. Answers none for a contribution that the group does not take yet (R251). -/
def deliver (l : Letter) (s : State) : Option State :=
  match l.target with
  | some (.group e) =>
    if groupNumber (groupOf s e) ≠ l.hdr.groupOp then some s
    else if l.hdr.cls = 4 then some (chainLetter e l.hdr (payloadOf l) s)
    else contribution e l.hdr (payloadOf l) s
  | some (.box n) => some (boxLetter n l.hdr (payloadOf l) s)
  | some .slowPost => some (slowPost l.hdr.groupOp (payloadOf l) s)
  | none => some s

/-- NEXT advances; the lost marks cover the 4,096 SSEQs below it (R194). -/
def advanceNext (nx : Nat) (x : Stream) : Stream :=
  { x with next := some (nx % 65536), lost := x.lost.filter fun q => decide (q ≠ nx % 65536) && decide ((nx % 65536 + 65536 - q) % 65536 ≤ 4096) }

/-- A letter of `n` cells written to the spill area is counted, and is a request of the half (R192, R283). -/
def countSpill (h n : Nat) (spilled : Bool) (s : State) : State := if spilled then memRequest h 1 0 (256 * n) (cnt1 (idHem 8 h) s) else s

/-- A held letter that leaves the unit: one that lies in the spill area is read from it, a request of the half (R192, R283). -/
def readSpill (h : Nat) (y : RHeld) (s : State) : State := if y.spilled then memRequest h 1 0 (256 * y.letter.cells.length) s else s

/-- Held letters that are now in order are delivered; NEXT advances past each (R194). -/
def drain : Nat → Nat → Nat → State → State
  | 0, _, _, s => s
  | n + 1, h, key, s =>
    match streamOf s h key with
    | none => s
    | some x =>
      match x.next with
      | none => s
      | some nx =>
        match x.held.find? fun y => y.sseq = nx with
        | none => s
        | some y =>
          let x := { advanceNext (nx + 1) x with held := x.held.erase y, lastRound := roundNo s }
          match deliver y.letter s with
          | some s' => drain n h key (putStream h key x (readSpill h y s'))
          | none => drain n h key (putStream h key { x with aside := x.aside ++ [y] } s)

/-- The gap in force after a delivery: none while nothing is held, else from the Round given. -/
def setGap (h key : Nat) (start : Stream → Option Nat) (s : State) : State :=
  match streamOf s h key with
  | some x => putStream h key { x with gapStart := if x.held.isEmpty then none else start x } s
  | none => s

/-- The Round in which the earliest of the letters still held arrived (R195). -/
def earliestHeld (x : Stream) : Option Nat := minNat? (x.held.map (·.round))

/-- An arrival whose stream has a NEXT is classed by its distance (R194); answers none where no room is left for it (R192). -/
def classify (h key : Nat) (x : Stream) (nx : Nat) (l : Letter) (s : State) : Option State :=
  let d := (l.hdr.sseq + 65536 - nx) % 65536
  if d = 0 then
    let x' := { advanceNext (nx + 1) x with lastRound := roundNo s }
    match deliver l s with
    | some s' => some (setGap h key earliestHeld (drain 4096 h key (putStream h key x' s')))
    | none =>
      match holdPlace s h l.cells.length with
      | none => none
      | some sp =>
        let y : RHeld := { sseq := l.hdr.sseq, letter := l, round := roundNo s, spilled := sp }
        some (setGap h key earliestHeld (drain 4096 h key (countSpill h l.cells.length sp (putStream h key { x' with aside := x'.aside ++ [y] } s))))
  else if d < 4096 then
    if x.held.any fun y => y.sseq = l.hdr.sseq then some (cnt1 (idHem 2 h) s)
    else
      match holdPlace s h l.cells.length with
      | none => none
      | some sp =>
        let y : RHeld := { sseq := l.hdr.sseq, letter := l, round := roundNo s, spilled := sp }
        some (countSpill h l.cells.length sp (putStream h key { x with
          held := x.held ++ [y], gapStart := match x.gapStart with | some g => some g | none => some (roundNo s) } s))
  else if d ≥ 61440 then
    if x.lost.contains l.hdr.sseq then some (cnt1 (idHem 3 h) s) else some (cnt1 (idHem 2 h) s)
  else some (cnt1 (idHem 4 h) s)

/-- A first arrival of a stream without NEXT is held for 1 Round (R193). -/
def holdFirst (h key : Nat) (x : Stream) (l : Letter) (s : State) : Option State :=
  if x.held.any fun y => y.sseq = l.hdr.sseq then some (cnt1 (idHem 2 h) s)
  else
    match holdPlace s h l.cells.length with
    | none => none
    | some sp => some (countSpill h l.cells.length sp (putStream h key { x with
        held := x.held ++ [{ sseq := l.hdr.sseq, letter := l, round := roundNo s, spilled := sp }] } s))

/-- A context is free for reuse when it holds nothing and has delivered nothing for 1,024 Rounds (R193). -/
def contextIdle (s : State) (x : Stream) : Bool := x.held.isEmpty && x.aside.isEmpty && decide (roundNo s ≥ x.lastRound + 1024)

/-- Contexts in use (R204). -/
def contextsUsed (s : State) (h : Nat) : Nat := ((reorderOf s h).streams.filter fun x => !contextIdle s x.2).length

/-- A context for a new stream: a group stream of class 2 or 4 starts at NEXT 0 (R193). -/
def newStream (l : Letter) (s : State) : Stream :=
  { src := l.hdr.src, pathKey := leNat (pathKey l.hdr), keyKind := keyKind l.hdr, rack := rackOf l.hdr.dest,
    group := if l.hdr.cls = 2 || l.hdr.cls = 4 then some l.hdr.groupOp else none,
    next := if l.hdr.cls = 2 || l.hdr.cls = 4 then some 0 else none,
    held := [], lost := [], gapStart := none, born := roundNo s, lastRound := roundNo s, aside := [] }

/-- The state with room for one more context, where there is any. -/
def roomForContext (h : Nat) (s : State) : Option State :=
  let xs := (reorderOf s h).streams
  if xs.length < 16384 then some s
  else (xs.find? fun x => contextIdle s x.2).map fun x => modReorder s h fun r => { r with streams := tdel r.streams x.1 }

/-- REORDER_ARRIVAL (R145, R192–R194): a complete terminal letter is taken from the shared buffer, which then holds it for its copies alone;
with no room it waits there. -/
def reorderArrival (id : Nat) (s : State) : State :=
  match tfind s.sw.letters id with
  | none => s
  | some l =>
    match l.target with
    | none => s
    | some t =>
      if !l.complete || l.taken || l.spoilt.isSome then s
      else
        let h := hemOfTarget s t
        let key := reorderKey l.hdr
        let go := fun (x : Stream) (s : State) =>
          let s := if (streamOf s h key).isNone then putStream h key x s else s
          match x.next with
          | some nx => classify h key x nx l s
          | none => holdFirst h key x l s
        let taken := fun (s : State) => settle id { l with taken := true } s
        match streamOf s h key with
        | some x => (match go x s with | some s' => taken s' | none => s)
        | none =>
          match roomForContext h s with
          | none => taken (cnt1 (idHem 6 h) s)
          | some s1 => (match go (newStream l s) s1 with | some s' => taken s' | none => s)

def execReorderArrival (letter : Nat) (s : State) : Host.Outcome State Fault Refusal := .next (reorderArrival letter s)

/-- The held SSEQ from which every other lies 1–4,095 ahead (R193). -/
def lowestOf (x : Stream) : Option Nat :=
  (x.held.find? fun y => x.held.all fun z => z.sseq = y.sseq || decide ((z.sseq + 65536 - y.sseq) % 65536 < 4096)).map (·.sseq)

/-- REORDER_CONTEXT_SET (R193): 1 Round after the stream's first arrival NEXT is set, and held letters in order are delivered. Where the source
broke R135, NEXT is the first arrival's SSEQ and the others are classed as they would be now. -/
def contextSet (h key : Nat) (s : State) : State :=
  match streamOf s h key with
  | none => s
  | some x =>
    if x.next.isSome || roundNo s < x.born + 1 || x.held.isEmpty then s
    else
      match lowestOf x with
      | some nx => setGap h key earliestHeld (drain 4096 h key (putStream h key { x with next := some nx } s))
      | none =>
        match x.held with
        | [] => s
        | y :: rest =>
          let s := setGap h key earliestHeld (drain 4096 h key (putStream h key { x with next := some y.sseq, held := [y] } s))
          rest.foldl (fun s z => match streamOf s h key with
            | some x => (match x.next with
              | some nx => (classify h key x nx z.letter s).getD s
              | none => s)
            | none => s) s

def execReorderContextSet (h key : Nat) (s : State) : Host.Outcome State Fault Refusal := .next (contextSet h key s)

/-- The LOSS notice of R195 and R196, and its count. -/
def sendLoss (h : Nat) (x : Stream) (first count : Nat) (s : State) : State :=
  match sendOwn (slowHeader x.src 1) 0 (fit 16 (leBytes 4 x.pathKey ++ leBytes 1 x.keyKind ++ leBytes 2 first ++ leBytes 2 count)) none s with
  | some (_, s') => cnt1 (idHem 7 h) s'
  | none => s

/-- GAP_TIMEOUT (R195): a gap open for GAP_TIMEOUT Rounds is declared lost. -/
def gapTimeout (h key : Nat) (s : State) : State :=
  match streamOf s h key with
  | none => s
  | some x =>
    match x.gapStart, x.next with
    | some g, some nx =>
      match minNat? (x.held.map fun y => (y.sseq + 65536 - nx) % 65536) with
      | none => s
      | some n =>
        if roundNo s < g + s.bank.regs.gapTimeout then s
        else
          let x := advanceNext (nx + n) { x with lost := x.lost ++ (List.range n).map fun i => (nx + i) % 65536 }
          let s := cntAdd (idHem 5 h) n s
          let s := setGap h key (fun _ => some (roundNo s)) (drain 4096 h key (putStream h key x s))
          sendLoss h x nx n s
    | _, _ => s

def execGapTimeout (h key : Nat) (s : State) : Host.Outcome State Fault Refusal := .next (gapTimeout h key s)

/-- Letters held aside for a group are offered again, in the order in which they were held (R251). -/
def offerAside (e : Nat) (s : State) : State :=
  let h := hemOfOffice (groupOf s e).office
  ((reorderOf s h).streams.map (·.1)).foldl (fun s key =>
    match streamOf s h key with
    | none => s
    | some x =>
      let mine := x.aside.filter fun y => y.letter.target = some (.group e)
      mine.foldl (fun s y => match deliver y.letter s with
        | some s' => (match streamOf s' h key with
          | some x' => putStream h key { x' with aside := x'.aside.erase y } (readSpill h y s')
          | none => s')
        | none => s) s) s

/-- STEP_LAUNCH (R251, R252). -/
def execStepLaunch (e : Nat) (s : State) : Host.Outcome State Fault Refusal :=
  if mayLaunch s (groupOf s e) then .next (offerAside e (launch e s)) else .next s

/-- A stream of the module's own that carries a group's number: results of class 3, and chain letters of class 4 to any rack (R135). -/
def groupStream (group k : Nat) : Bool :=
  let key := k % 2 ^ 44
  decide (key = 2 ^ 40 + group * 16 + 3) || decide (key / 4096 * 4096 = 2 * 2 ^ 40 + group * 4096)

/-- A group opens: the streams that it receives start at NEXT 0 (R193), and those that the module sends for it enter service anew, at SSEQ 0
(R135; DEDUCED, notes/assumptions/139.md). -/
def openStreams (group : Nat) (s : State) : State :=
  let reset := fun (x : Nat × Stream) =>
    if x.2.group = some group then (x.1, { x.2 with next := some 0, held := [], aside := [], lost := [], gapStart := none }) else x
  let s := [0, 1].foldl (fun s h => modReorder s h fun r => { r with streams := r.streams.map reset }) s
  { s with route := { s.route with ownSseq := s.route.ownSseq.filter fun x => !groupStream group x.1 } }

end Sys2Proof.Machine
end

