-- ==== Sys2Proof/Machine/Clerk.lean ====
section
/-! DEFINITION. Clerks (spec/08, R208–R215): issuing, windows, parity, the clerk operations of R210 in the order of its table, and the end of
a bundle. -/

namespace Sys2Proof.Machine

/-! ### Issuing -/

/-- The text of the program whose first slot is `slot` (R233). -/
def codeAt (s : State) (slot : Nat) : List Word64 :=
  (((if slot < 32 then Config.libraryProgram (libraryOf s) slot else tget none s.bank.prog slot)).map (·.code)).getD []

/-- The clerk has a bundle and its clock runs: offices run in ST0 only (R238). -/
def clerkRuns (s : State) (k : Nat) : Bool :=
  (clerkOf s k).bundle.isSome && ((clerkOf s k).state = .own || (clerkOf s k).state = .foreign) && decide (s.pow.ladder = 0)

/-- What a clerk issues is its program's (R213): it runs, and the instruction at its pc is operation `code` of R210 with the fields `i`. -/
def issues (s : State) (k code : Nat) (i : ClerkOp) : Bool :=
  clerkRuns s k && decide (((clerkOf s k).bundle.bind fun b => (codeAt s b.prog)[(clerkOf s k).pc]?).map opOfWord = some (code, i))

/-- Core cycles since a time, 1.5625 in a nanosecond. -/
def cyclesSince (s : State) (t : Nat) : Nat := (s.mer.ns - t) * 25 / 16

/-- The cycles of a wait in PWAIT or DONE up to now. -/
def waitCycles (s : State) (x : Clerk) : Nat := match x.waitSince with | some t => cyclesSince s t | none => 0

/-- The issue cycles of the clerk's bundle: 8 for its descriptor, its instructions, and its waits in PWAIT and DONE (R210, R215). -/
def bundleCycles (s : State) (k : Nat) : Nat := 8 + (clerkOf s k).issued + (clerkOf s k).waited + waitCycles s (clerkOf s k)

/-- Around an instruction's effect: the next instruction, its issue cycles, and the counts of R423–R426. -/
def issued (k cycles : Nat) (s : State) : State :=
  let x := clerkOf s k
  match x.bundle with
  | none => s
  | some b => cnt1 (idClerk 8 k) (setClerk s k { x with
      pc := x.pc + 1, issued := x.issued + cycles, sinceSample := x.sinceSample + 1, last := some (b, x.pc, decide (x.state = .foreign)),
      waiting := false, waitSince := none, waited := x.waited + waitCycles s x })

/-- An instruction that touches the clerk's registers only. -/
def regOp (k cycles : Nat) (f : Clerk → Clerk) (s : State) : State :=
  if clerkRuns s k then issued k cycles (modClerk s k f) else s

/-- Lane `i` of the free value of draw `d` (notes/assumptions/2.md). -/
def freeLane (d i : Nat) : BitVec 32 := BitVec.ofNat 32 (Config.freeNat d / 2 ^ (32 * i))

/-- What lanes hold together: 1 FP32, 2 INT32, 3 some of each (notes/assumptions/10.md). -/
def kindOver (ks : List Nat) : Nat := if ks.contains 1 && ks.contains 2 then 3 else if ks.contains 2 then 2 else 1

/-- What lane `i` of a set of source registers holds together. -/
def kindsAt (x : Clerk) (rs : List Nat) (i : Nat) : Nat := kindOver (rs.map fun r => laneKind x r i)

/-- Some lane of a set of source registers holds both kinds. -/
def mixed (x : Clerk) (rs : List Nat) : Bool := (List.range 64).any fun i => kindsAt x rs i = 3

/-- A draw is taken where an instruction's result holds a value that the manual does not state. -/
def drawIf (k : Nat) (free : Bool) (s : State) : State := if clerkRuns s k && free then { s with draw := s.draw + 1 } else s

/-- A lane-wise instruction: each lane FP32 or INT32 by what its sources hold; sources of both kinds give no stated value, and the lane is free. -/
def vecOp (k : Nat) (op : ClerkOp) (rs : List Nat) (ff fi : List (BitVec 32) → BitVec 32) (s : State) : State :=
  let x := clerkOf s k
  let val := fun (i : Nat) =>
    let args := rs.map fun r => lane x r i
    if kindsAt x rs i = 3 then freeLane s.draw i else if kindsAt x rs i = 2 then fi args else ff args
  regOp k 1 (setV op op.vd (fun i => if kindsAt x rs i = 2 then 2 else 1) val) (drawIf k (mixed x rs) s)

/-- Two- and three-argument forms of a lane operation. -/
def two (f : BitVec 32 → BitVec 32 → BitVec 32) : List (BitVec 32) → BitVec 32
  | [a, b] => f a b
  | _ => 0

def three (f : BitVec 32 → BitVec 32 → BitVec 32 → BitVec 32) : List (BitVec 32) → BitVec 32
  | [a, b, c] => f a b c
  | _ => 0

/-! ### Bundles that stop (R211, R214, R215) -/

/-- A job of the clerk leaves the press's queue and the press (R214). -/
def dropJobs (o k : Nat) (s : State) : State :=
  modOffice s o fun x => { x with
    jobs := x.jobs.filter fun j => j.clerk ≠ k,
    running := match x.running with | some j => if j.clerk = k then none else some j | none => none }

/-- The clerk is idle. -/
def freeClerk (k : Nat) (s : State) : State :=
  modClerk s k fun x => { x with state := .idle, bundle := none, loops := [], outstanding := 0, waiting := false, waitSince := none, waited := 0, saved := [],
                                 issued := 0 }

/-- The running bundle stops: its slots are WASTED and its press jobs abandoned (R214, R423). -/
def stopBundle (k : Nat) (s : State) : State :=
  let x := clerkOf s k
  freeClerk k (dropJobs x.home k (cntAdd (idClerk 1 k) x.issued s))

/-- The bundle's step, where it is still the group's. -/
def abortBundleStep (b : Bundle) (cause : Nat) (s : State) : State :=
  match entryOf s b.group with
  | some e => if (groupOf s e).step = b.step then abortStep e cause s else s
  | none => s

/-- The bundle stops and its step is aborted (R211, R215). -/
def stopAbort (k cause : Nat) (s : State) : State :=
  match (clerkOf s k).bundle with
  | none => s
  | some b => abortBundleStep b cause (stopBundle k s)

/-- The bundle's writes are abandoned: its OUT window is as it was when the bundle began (R214; notes/assumptions/47.md). -/
def undoWrites (k : Nat) (s : State) : State :=
  let x := clerkOf s k
  match x.bundle with
  | none => s
  | some b => modOffice s x.home fun o => { o with sram := mwrite o.sram b.outBase x.saved }

/-- A second failing read (R214): the bundle stops, its writes and jobs abandoned, and goes back to the head of its home queue with RETRY set; a
retried one aborts its step. -/
def parityStop (k : Nat) (s : State) : State :=
  match (clerkOf s k).bundle with
  | none => s
  | some b =>
    let s := undoWrites k s
    if b.retry then stopAbort k 3 s
    else
      let o := (clerkOf s k).home
      noteQueues (b.home / 32) (cnt1 (idOffice 1 o) (modClerk (stopBundle k s) b.home fun x => { x with queue := { b with retry := true } :: x.queue }))

/-- Reads of the program store for an instruction (R207): one, and none while it goes on waiting. -/
def fetches (x : Clerk) : Nat := bit (!x.waiting)

/-- A clerk's instruction (R210, R213): nothing where it is not the next of the clerk's program. Its word is read from the office's program store,
an access of a bank (R207; notes/assumptions/127.md); `parity` is what that read gave (R214): 0 good, 1 bad once and good when read again, 2 bad
twice. -/
def clerkStep (k code : Nat) (i : ClerkOp) (parity : Nat) (go : State → State) (s : State) : Host.Outcome State Fault Refusal :=
  let o := k / 32
  let fetch := cntAdd (idOffice 6 o) (fetches (clerkOf s k))
  let again := cnt1 (idOffice 6 o)
  .next (if !issues s k code i then s
    else if parity ≥ 2 then parityStop k (fetch (again s))
    else go (fetch (if parity = 1 then cnt1 (idOffice 2 o) (again s) else s)))

/-- A memory instruction (R211, R214): the addresses that it reads and writes are checked, then the parity of what it reads: 0 good, 1 bad once
and good when read again, 2 bad twice. Every line that it touches is an access of its bank, and so is a line read again (R207). -/
def memOp (k parity : Nat) (reads writes : List Nat) (go : State → State) (s : State) : State :=
  match (clerkOf s k).bundle with
  | none => s
  | some b =>
    if !clerkRuns s k then s
    else if !(reads.all (mayRead b) && writes.all (mayWrite b)) then stopAbort k 2 s
    else
      let s := cntAdd (idOffice 6 (clerkOf s k).home) (linesOver (reads ++ writes) + min parity 1) s
      if parity ≥ 2 then parityStop k s else go (if parity = 1 then cnt1 (idOffice 2 (clerkOf s k).home) s else s)

/-- The office SRAM that a clerk's bundle works on (R218). -/
def clerkSram (s : State) (k : Nat) : Memory := (officeOf s (clerkOf s k).home).sram

/-- The bytes that element group g touches (R210). -/
def groupBytes (x : Clerk) (op : ClerkOp) : List Nat := (List.range 64).flatMap fun i => elemBytes op.fmt (areg x op.an) (groupIndexOf op i)

/-- Element group g, lane by lane. -/
def groupWord (s : State) (k : Nat) (op : ClerkOp) (i : Nat) : BitVec 32 := readElem (clerkSram s k) op.fmt (areg (clerkOf s k) op.an) (groupIndexOf op i)

/-- A form that the load check of R235 lets pass. -/
def formOk (op : ClerkOp) (store : Bool) : Bool := fmtOk op.fmt && op.rnd ≠ 3 && !(store && isMx op.fmt)

/-! ### The clerk operations (R210) -/

/-- CLERK_NOP. -/
def execClerkNop (k : Nat) (i : ClerkOp) (s : State) (parity : Nat := 0) : Host.Outcome State Fault Refusal := clerkStep k 0x00 i parity (regOp k 1 id) s

/-- LD: VD := group g. -/
def opLd (k : Nat) (i : ClerkOp) (parity : Nat) (s : State) : State :=
  if !formOk i false then s
  else memOp k parity (groupBytes (clerkOf s k) i) []
    (fun s => regOp k 1 (fun x => stepA i (setV i i.vd (fmtKind i) (groupWord s k i) x)) s) s

def execLd (k : Nat) (i : ClerkOp) (parity : Nat) (s : State) : Host.Outcome State Fault Refusal := clerkStep k 0x01 i 0 (opLd k i parity) s

/-- Saturations and NaNs of a store are counted per office (R223). -/
def countConvs (o : Nat) (cs : List Conv) (s : State) : State :=
  let sat := (cs.filter (·.sat)).length
  let nan := (cs.filter (·.nan)).length
  noteEvent o 4 nan (noteEvent o 3 sat (cntAdd (idOffice 12 o) nan (cntAdd (idOffice 11 o) sat s)))

/-- GROUP_SEED of the group that a bundle works for (R222). -/
def seedOf (s : State) (b : Bundle) : BitVec 64 :=
  match entryOf s b.group with
  | some e => ((groupOf s e).record.map (·.groupSeed)).getD 0
  | none => 0

/-- Lane `i`'s conversion of a store, with its own draw (R222, R223). -/
def laneConv (s : State) (k : Nat) (op : ClerkOp) (r i : Nat) : Conv :=
  let x := clerkOf s k
  match x.bundle with
  | none => ⟨0, false, false, false⟩
  | some b =>
    storeElem op.fmt op.rnd (drawOf (seedOf s b) b.step b.index k i (tget 0 x.draws i)) (laneKind x r i = 2) (Config.freeNat s.draw / 2 ^ (32 * i)) (lane x r i)

/-- The draws that conversions took. -/
def tookDraws (cs : List (Nat × Conv)) (x : Clerk) : Clerk :=
  { x with draws := cs.foldl (fun t c => if c.2.drew then tset 0 t c.1 (tget 0 t c.1 + 1) else t) x.draws }

/-- Codes written to elements of an array, in lane order. -/
def writeElems (fmt base : Nat) (l : List (Nat × Nat)) (m : Memory) : Memory := l.foldl (fun m x => writeElem m fmt base x.1 x.2) m

/-- A store of register `r` to elements by lane (R210 ST, VSCT). -/
def storeLanes (k : Nat) (op : ClerkOp) (r cycles : Nat) (index : Nat → Nat) (s : State) : State :=
  let x := clerkOf s k
  let lanes := (List.range 64).filter (active x op)
  let cs := lanes.map fun i => (i, laneConv s k op r i)
  let base := areg x op.an
  let s := modOffice s x.home fun o => { o with sram := writeElems op.fmt base (cs.map fun c => (index c.1, c.2.code)) o.sram }
  let s := if !isInt op.fmt && lanes.any (fun i => laneKind x r i = 2) then { s with draw := s.draw + 1 } else s
  regOp k cycles (fun x => stepA op (tookDraws cs x)) (countConvs x.home (cs.map (·.2)) s)

/-- ST: group g := VA converted to FMT. -/
def opSt (k : Nat) (i : ClerkOp) (parity : Nat) (s : State) : State :=
  let x := clerkOf s k
  if !formOk i true then s
  else memOp k parity [] (((List.range 64).filter (active x i)).flatMap fun n => elemBytes i.fmt (areg x i.an) (groupIndexOf i n))
    (storeLanes k i i.va 1 (groupIndexOf i)) s

def execSt (k : Nat) (i : ClerkOp) (parity : Nat) (s : State) : Host.Outcome State Fault Refusal := clerkStep k 0x02 i 0 (opSt k i parity) s

/-- VACC: VD := VD + group g. -/
def opVacc (k : Nat) (i : ClerkOp) (parity : Nat) (s : State) : State :=
  if !formOk i false then s
  else memOp k parity (groupBytes (clerkOf s k) i) []
    (fun s => regOp k 1 (fun x => stepA i (setV i i.vd (fmtKind i)
      (fun n => if isInt i.fmt then lane x i.vd n + groupWord s k i n else fAdd (lane x i.vd n) (groupWord s k i n)) x)) s) s

def execVacc (k : Nat) (i : ClerkOp) (parity : Nat) (s : State) : Host.Outcome State Fault Refusal := clerkStep k 0x03 i 0 (opVacc k i parity) s

/-- VACCC: compensated VACC, the error in VC (R221); for an integer FMT the manual states no sum and error, and both are free. -/
def opVaccc (k : Nat) (i : ClerkOp) (parity : Nat) (s : State) : State :=
  if !formOk i false then s
  else memOp k parity (groupBytes (clerkOf s k) i) []
    (fun s =>
      let d := s.draw
      let val := fun (x : Clerk) (n : Nat) =>
        if isInt i.fmt then (freeLane d n, freeLane d (64 + n)) else compensated (lane x i.vd n) (lane x i.vc n) (groupWord s k i n)
      let s := if isInt i.fmt then { s with draw := d + 1 } else s
      regOp k 2 (fun x => stepA i (setV i i.vc (fun _ => 1) (fun n => (val x n).2) (setV i i.vd (fun _ => 1) (fun n => (val x n).1) x))) s) s

def execVaccc (k : Nat) (i : ClerkOp) (parity : Nat) (s : State) : Host.Outcome State Fault Refusal := clerkStep k 0x04 i 0 (opVaccc k i parity) s

/-- VADD: VD := VA + VB. -/
def execVadd (k : Nat) (i : ClerkOp) (s : State) (parity : Nat := 0) : Host.Outcome State Fault Refusal :=
  clerkStep k 0x05 i parity (vecOp k i [i.va, i.vb] (two fAdd) (two (· + ·))) s

/-- VSUB: VD := VA − VB. -/
def execVsub (k : Nat) (i : ClerkOp) (s : State) (parity : Nat := 0) : Host.Outcome State Fault Refusal :=
  clerkStep k 0x06 i parity (vecOp k i [i.va, i.vb] (two fSub) (two (· - ·))) s

/-- VMUL: VD := VA × VB. -/
def execVmul (k : Nat) (i : ClerkOp) (s : State) (parity : Nat := 0) : Host.Outcome State Fault Refusal :=
  clerkStep k 0x07 i parity (vecOp k i [i.va, i.vb] (two fMul) (two (· * ·))) s

/-- VFMA: VD := VA × VB + VC, rounded once. -/
def execVfma (k : Nat) (i : ClerkOp) (s : State) (parity : Nat := 0) : Host.Outcome State Fault Refusal :=
  clerkStep k 0x08 i parity (vecOp k i [i.va, i.vb, i.vc] (three fFma) (three fun a b c => a * b + c)) s

/-- VMAX: VD := max(VA, VB); NaN if either is NaN. -/
def execVmax (k : Nat) (i : ClerkOp) (s : State) (parity : Nat := 0) : Host.Outcome State Fault Refusal :=
  clerkStep k 0x09 i parity (vecOp k i [i.va, i.vb] (two fMax) (two iMax)) s

/-- VMIN: VD := min(VA, VB); NaN if either is NaN. -/
def execVmin (k : Nat) (i : ClerkOp) (s : State) (parity : Nat := 0) : Host.Outcome State Fault Refusal :=
  clerkStep k 0x0A i parity (vecOp k i [i.va, i.vb] (two fMin) (two iMin)) s

/-- VABS: VD := |VA|. -/
def execVabs (k : Nat) (i : ClerkOp) (s : State) (parity : Nat := 0) : Host.Outcome State Fault Refusal :=
  clerkStep k 0x0B i parity (vecOp k i [i.va] (fun l => fAbs (l.headD 0)) (fun l => if (l.headD 0).toInt < 0 then -(l.headD 0) else l.headD 0)) s

/-- VSCL: VD := VA × 2^IMM; of an INT32 the manual states no value, and the lane is free. -/
def opVscl (k : Nat) (i : ClerkOp) (s : State) : State :=
  let x := clerkOf s k
  let int := fun (n : Nat) => decide (laneKind x i.va n = 2)
  regOp k 1 (setV i i.vd (fun n => if int n then 2 else 1) fun n => if int n then freeLane s.draw n else fScale (lane x i.va n) (immInt i))
    (drawIf k ((List.range 64).any int) s)

def execVscl (k : Nat) (i : ClerkOp) (s : State) (parity : Nat := 0) : Host.Outcome State Fault Refusal := clerkStep k 0x0C i parity (opVscl k i) s

/-- The relation of VCMP: 0 EQ, 1 LT, 2 LE, 3 GT. -/
def compareRel (int : Bool) (rel : Nat) (a b : BitVec 32) : Bool :=
  let lt := if int then decide (a.toInt < b.toInt) else numLt (num32 a) (num32 b)
  let gt := if int then decide (b.toInt < a.toInt) else numLt (num32 b) (num32 a)
  let eq := if int then decide (a = b) else numEq (num32 a) (num32 b)
  if rel = 0 then eq else if rel = 1 then lt else if rel = 2 then lt || eq else gt

/-- The mask whose bit i is `f i`. -/
def maskOf (f : Nat → Bool) : BitVec 64 := (List.range 64).foldl (fun m i => if f i then m ||| BitVec.ofNat 64 (2 ^ i) else m) 0

/-- VCMP: M[MK] lane i := VA[i] rel VB[i]; a lane whose sources are of both kinds has a free bit. -/
def opVcmp (k : Nat) (i : ClerkOp) (s : State) : State :=
  let x := clerkOf s k
  let rs := [i.va, i.vb]
  let m := maskOf fun n =>
    if !active x i n then (mreg x i.mreg).getLsbD n
    else if kindsAt x rs n = 3 then (Config.freeNat s.draw).testBit n
    else compareRel (kindsAt x rs n = 2) (i.imm % 4) (lane x i.va n) (lane x i.vb n)
  regOp k 1 (setM i.mreg m) (drawIf k (mixed x rs) s)

def execVcmp (k : Nat) (i : ClerkOp) (s : State) (parity : Nat := 0) : Host.Outcome State Fault Refusal := clerkStep k 0x0D i parity (opVcmp k i) s

/-- VSEL: VD := VA where M[MK] is 1, else VB; each lane is of the kind of the lane that it takes. -/
def opVsel (k : Nat) (i : ClerkOp) (s : State) : State :=
  let x := clerkOf s k
  let from_ := fun (n : Nat) => if (mreg x i.mreg).getLsbD n then i.va else i.vb
  regOp k 1 (setV i i.vd (fun n => laneKind x (from_ n) n) fun n => lane x (from_ n) n) s

def execVsel (k : Nat) (i : ClerkOp) (s : State) (parity : Nat := 0) : Host.Outcome State Fault Refusal := clerkStep k 0x0E i parity (opVsel k i) s

/-- The prefix sums of VPRE: lane 63 of VC, then VA lane by lane. -/
def prefixes (add : BitVec 32 → BitVec 32 → BitVec 32) (c : BitVec 32) (l : List (BitVec 32)) : List (BitVec 32) :=
  (l.foldl (fun (x : BitVec 32 × List (BitVec 32)) a => (add x.1 a, x.2 ++ [add x.1 a])) (c, [])).2

/-- What lane 63 of VC and lanes 0 to `n` of VA hold together. -/
def prefixKind (x : Clerk) (i : ClerkOp) (n : Nat) : Nat := kindOver (laneKind x i.vc 63 :: (List.range (n + 1)).map (laneKind x i.va))

/-- VPRE; a prefix over lanes of both kinds has no stated value, and is free. -/
def opVpre (k : Nat) (i : ClerkOp) (s : State) : State :=
  let x := clerkOf s k
  let int := prefixes (· + ·) (lane x i.vc 63) (vreg x i.va)
  let fp := prefixes fAdd (lane x i.vc 63) (vreg x i.va)
  let val := fun (n : Nat) => if prefixKind x i n = 3 then freeLane s.draw n else if prefixKind x i n = 2 then int.getD n 0 else fp.getD n 0
  regOp k 6 (setV i i.vd (fun n => if prefixKind x i n = 2 then 2 else 1) val) (drawIf k (prefixKind x i 63 = 3) s)

def execVpre (k : Nat) (i : ClerkOp) (s : State) (parity : Nat := 0) : Host.Outcome State Fault Refusal := clerkStep k 0x0F i parity (opVpre k i) s

/-- VMRG: the 64 greatest keys of VA and VB with their indices; odd register numbers and NaN keys have no stated result, and VD, VD+1 are
then free. -/
def opVmrg (k : Nat) (i : ClerkOp) (s : State) : State :=
  let x := clerkOf s k
  let odd := i.va % 2 = 1 || i.vb % 2 = 1 || i.vd % 2 = 1
  let nan := (vreg x i.va ++ vreg x i.vb).any fun w => numIsNan (num32 w)
  let free := odd || nan
  let top := topK 64 [vreg x i.va ++ vreg x (i.va + 1), vreg x i.vb ++ vreg x (i.vb + 1)]
  let val := fun (n : Nat) => if free then freeLane s.draw n else top.getD n 0
  regOp k 8 (fun x => setV i (i.vd + 1) (fun _ => 2) (fun n => val (64 + n)) (setV i i.vd (fun _ => 1) val x)) (drawIf k free s)

def execVmrg (k : Nat) (i : ClerkOp) (s : State) (parity : Nat := 0) : Host.Outcome State Fault Refusal := clerkStep k 0x10 i parity (opVmrg k i) s

/-- VA's index of lane `n`; a negative one lies outside every window. -/
def laneIndex (x : Clerk) (r n : Nat) : Nat := let v := (lane x r n).toInt; if v < 0 then 2 ^ 32 else v.toNat

/-- The bytes that a gather or scatter touches in its active lanes. -/
def indexedBytes (x : Clerk) (op : ClerkOp) : List Nat :=
  ((List.range 64).filter (active x op)).flatMap fun n => elemBytes op.fmt (areg x op.an) (laneIndex x op.va n)

/-- VGTH: VD lane i := element VA[i] of the array at An. -/
def opVgth (k : Nat) (i : ClerkOp) (parity : Nat) (s : State) : State :=
  if !formOk i false then s
  else memOp k parity (indexedBytes (clerkOf s k) i) []
    (fun s => regOp k 16 (fun x => stepA i (setV i i.vd (fmtKind i)
      (fun n => readElem (clerkSram s k) i.fmt (areg x i.an) (laneIndex x i.va n)) x)) s) s

def execVgth (k : Nat) (i : ClerkOp) (parity : Nat) (s : State) : Host.Outcome State Fault Refusal := clerkStep k 0x11 i 0 (opVgth k i parity) s

/-- VSCT: element VA[i] of the array at An := VB[i]; the higher lane wins. -/
def opVsct (k : Nat) (i : ClerkOp) (parity : Nat) (s : State) : State :=
  if !formOk i true then s
  else memOp k parity [] (indexedBytes (clerkOf s k) i) (storeLanes k i i.vb 16 (laneIndex (clerkOf s k) i.va)) s

def execVsct (k : Nat) (i : ClerkOp) (parity : Nat) (s : State) : Host.Outcome State Fault Refusal := clerkStep k 0x12 i 0 (opVsct k i parity) s

/-- A BF16 operation, rounded to nearest even: IMM[1:0] 0 add, 1 multiply, 2 FMA; 3 is not stated and gives `free`. -/
def bfOp (imm free a b c : Nat) : Nat :=
  let x := decodeNum bf16 a
  let y := decodeNum bf16 b
  let z := decodeNum bf16 c
  if imm % 4 = 0 then (encodeNum bf16 0 0 (numAdd x y)).1
  else if imm % 4 = 1 then (encodeNum bf16 0 0 (numMul x y)).1
  else if imm % 4 = 2 then (encodeNum bf16 0 0 (numAdd (numMul x y) z)).1
  else free % 65536

/-- VPBF: each lane as two BF16 values. -/
def opVpbf (k : Nat) (i : ClerkOp) (s : State) : State :=
  let d := s.draw
  regOp k 1 (fun x => setV i i.vd (fun _ => 1) (fun n =>
    let a := (lane x i.va n).toNat
    let b := (lane x i.vb n).toNat
    let c := (lane x i.vc n).toNat
    let f := (freeLane d n).toNat
    BitVec.ofNat 32 (bfOp i.imm f (a % 65536) (b % 65536) (c % 65536) + 65536 * bfOp i.imm (f / 65536) (a / 65536) (b / 65536) (c / 65536))) x) (drawIf k (i.imm % 4 = 3) s)

def execVpbf (k : Nat) (i : ClerkOp) (s : State) (parity : Nat := 0) : Host.Outcome State Fault Refusal := clerkStep k 0x13 i parity (opVpbf k i) s

/-- SETS: Sn := IMM, sign-extended. -/
def execSets (k : Nat) (i : ClerkOp) (s : State) (parity : Nat := 0) : Host.Outcome State Fault Refusal :=
  clerkStep k 0x14 i parity (regOp k 1 (setS i.an (BitVec.ofInt 32 (immInt i)))) s

/-- ADDA: An := An + Sn. -/
def execAdda (k : Nat) (i : ClerkOp) (s : State) (parity : Nat := 0) : Host.Outcome State Fault Refusal :=
  clerkStep k 0x15 i parity (regOp k 1 (stepA { i with inc := true })) s

/-! ### Loops (R210) -/

/-- The index after the ENDL that closes the LOOP before `pc`, by nesting depth. -/
def afterEndl : List Word64 → Nat → Nat → Option Nat
  | [], _, _ => none
  | w :: r, pc, depth =>
    if w.toNat % 256 = 0x16 then afterEndl r (pc + 1) (depth + 1)
    else if w.toNat % 256 = 0x17 then (if depth = 0 then some (pc + 1) else afterEndl r (pc + 1) (depth - 1))
    else afterEndl r (pc + 1) depth

/-- LOOP: runs the body Sn times, 0 skips it; the manual states no count for a negative Sn, which is then free. -/
def opLoop (k : Nat) (i : ClerkOp) (s : State) : State :=
  let x := clerkOf s k
  let n := (sreg x i.an).toInt
  let runs := if n < 0 then Config.freeNat s.draw else n.toNat
  let skip := match x.bundle with | some b => (afterEndl ((codeAt s b.prog).drop (x.pc + 1)) (x.pc + 1) 0).getD (x.pc + 1) | none => x.pc + 1
  let s := if n < 0 && clerkRuns s k then { s with draw := s.draw + 1 } else s
  -- regOp moves pc on by one; a skipped body leaves it after the ENDL
  if runs = 0 then
    (if clerkRuns s k then modClerk (regOp k 1 id s) k fun x => { x with pc := skip } else s)
  else regOp k 1 (fun x => { x with loops := (x.pc + 1, runs) :: x.loops }) s

def execLoop (k : Nat) (i : ClerkOp) (s : State) (parity : Nat := 0) : Host.Outcome State Fault Refusal := clerkStep k 0x16 i parity (opLoop k i) s

/-- ENDL: closes the innermost LOOP, with no issue cycle. -/
def opEndl (k : Nat) (s : State) : State :=
  if !clerkRuns s k then s
  else modClerk s k fun x =>
    match x.loops with
    | [] => { x with pc := x.pc + 1 }
    | (start, left) :: rest => if left ≤ 1 then { x with pc := x.pc + 1, loops := rest } else { x with pc := start, loops := (start, left - 1) :: rest }

def execEndl (k : Nat) (i : ClerkOp) (s : State) (parity : Nat := 0) : Host.Outcome State Fault Refusal := clerkStep k 0x17 i parity (opEndl k) s

/-! ### The press from a clerk, and the end of a bundle -/

/-- The clerk waits: nothing issues (R210 PRESS, PWAIT, DONE). A wait of PWAIT or DONE is `charged` to the bundle's issue cycles. -/
def clerkWaits (k : Nat) (charged : Bool) (s : State) : State :=
  modClerk s k fun x => { x with waiting := true, waitSince := if charged && x.waitSince.isNone then some s.mer.ns else x.waitSince }

/-- PRESS: submits the job whose descriptor is at An; waits while the clerk has 4 jobs outstanding or the queue of 32 is full
(R227–R229). The job queue lies in SRAM: writing to it is an access of a bank (R206, R207). -/
def opPress (k : Nat) (i : ClerkOp) (parity : Nat) (s : State) : State :=
  let x := clerkOf s k
  if !clerkRuns s k then s
  else if x.outstanding ≥ 4 || decide ((officeOf s x.home).jobs.length ≥ 32) then clerkWaits k false s
  else memOp k parity ((List.range 64).map (areg x i.an + ·)) []
    (fun s =>
      match x.bundle with
      | none => s
      | some b =>
        let l := mread (clerkSram s k) (areg x i.an) 64
        let j := jobOf l k b
        if !(jobFieldsOk l j && jobAddrOk j) then stopAbort k 2 s
        else
          let s := cnt1 (idOffice 6 x.home) (modOffice s x.home fun o => { o with jobs := o.jobs ++ [j] })
          regOp k 1 (fun x => stepA i { x with outstanding := x.outstanding + 1 }) s) s

def execPress (k : Nat) (i : ClerkOp) (parity : Nat) (s : State) : Host.Outcome State Fault Refusal := clerkStep k 0x18 i 0 (opPress k i parity) s

/-- PWAIT: waits until every press job of this bundle has finished. -/
def opPwait (k : Nat) (s : State) : State :=
  if !clerkRuns s k then s else if (clerkOf s k).outstanding > 0 then clerkWaits k true s else regOp k 1 id s

def execPwait (k : Nat) (i : ClerkOp) (s : State) (parity : Nat := 0) : Host.Outcome State Fault Refusal := clerkStep k 0x19 i parity (opPwait k) s

/-- The sequencer counts a bundle complete; after the last of a phase the next phase may start, or the level ends (R213). -/
def countDone (b : Bundle) (s : State) : State :=
  match entryOf s b.group with
  | none => s
  | some e =>
    let g := groupOf s e
    match g.record with
    | none => s
    | some r =>
      if g.step ≠ b.step || !g.launched || g.endDue || g.phase ≠ b.phase then s
      else
        let s := modGroup s e fun g => { g with bundlesDone := g.bundlesDone + 1 }
        match phaseOf s g r with
        | some (_, ph) =>
          if g.bundlesDone + 1 ≥ ph.bundles then nextPhase e (modGroup s e fun g => { g with phase := g.phase + 1, bundlesIssued := 0, bundlesDone := 0 })
          else s
        | none => s

/-- DONE: implies PWAIT; the bundle ends, its slots are RETIRED (R213, R423). -/
def opDone (k : Nat) (s : State) : State :=
  let x := clerkOf s k
  match x.bundle with
  | none => s
  | some b =>
    if !clerkRuns s k then s
    else if x.outstanding > 0 then clerkWaits k true s
    else
      let s := regOp k 1 id s
      let s := cntAdd (idClerk 0 k) (clerkOf s k).issued s
      countDone b (cnt1 (idOffice 0 x.home) (freeClerk k s))

def execDone (k : Nat) (i : ClerkOp) (s : State) (parity : Nat := 0) : Host.Outcome State Fault Refusal := clerkStep k 0x1A i parity (opDone k) s

/-- BUNDLE_LIMIT (R215): a bundle that has issued for more than BUNDLE_LIMIT cycles is stopped and its step aborted. -/
def bundleLimit (k : Nat) (s : State) : State :=
  let x := clerkOf s k
  if clerkRuns s k && decide (bundleCycles s k > (tget {} s.bank.off x.home).bundleLimit * 4096) then stopAbort k 4 s else s

def execBundleLimit (k : Nat) (s : State) : Host.Outcome State Fault Refusal := .next (bundleLimit k s)

end Sys2Proof.Machine
end

