-- ==== Sys2Proof/Machine/Office.lean ====
section
/-! DEFINITION. The office sequencers, bundle queues and work stealing (spec/08, R212–R218) and the presses (R226–R232). -/

namespace Sys2Proof.Machine

/-! ### Offices -/

/-- The office takes bundles: in ST0, out of skeleton service, its program store loaded (R238). -/
def officeTakes (s : State) (o : Nat) : Bool := decide (s.pow.ladder = 0) && !s.ident.skeleton && (officeOf s o).state = .ready && !(officeOf s o).reloading

/-- OFF_STATUS.STATE (R239). -/
def offState (s : State) (o : Nat) : OffState :=
  if s.ident.skeleton then .closed
  else if decide (s.pow.ladder > 0) || (officeOf s o).state = .gated then .gated
  else if (clerksOf o).any fun k => (clerkOf s k).bundle.isSome then .running
  else .ready

/-- Foreign clerks working in an office (R218). -/
def foreignIn (s : State) (o : Nat) : Nat := (s.clerks.filter fun x => x.2.state = .foreign && x.2.home = o).length

/-! ### SEQUENCER_PLACE (R212, R213, R216, R248) -/

/-- The group's step has bundles of its present phase still to place. -/
def hasBundles (s : State) (o e : Nat) : Bool :=
  let g := groupOf s e
  g.office = o && g.launched && g.inRackDone && !g.endDue &&
  match g.record with
  | some r => (match phaseOf s g r with | some (_, ph) => decide (g.bundlesIssued < ph.bundles) | none => false)
  | none => false

/-- The group whose turn it is: the one with turns left, else the next in rotation (R248). -/
def turnOf (s : State) (o : Nat) : Option (Nat × Nat) :=
  let es := (s.groups.map (·.1)).filter (hasBundles s o)
  let (cur, left) := (officeOf s o).turn
  if left > 0 && es.contains cur then some (cur, left - 1)
  else
    ((es.filter (· > cur)) ++ es).head?.map fun e => (e, ((groupOf s e).record.map groupShare).getD 1 - 1)

/-- The first queue with room, starting after the one filled last (R216). -/
def queueWithRoom (s : State) (o : Nat) : Option Nat :=
  let last := (officeOf s o).lastQueue
  ((List.range 32).map fun i => (last + 1 + i) % 32).find? fun c => decide ((clerkOf s (32 * o + c)).queue.length < 64)

/-- First slot of a group's program: a loaded one's own, a library routine's by its place (R233). -/
def slotOfProgram (s : State) (p : Program) : Nat :=
  match (s.bank.prog.find? fun x => x.2 = some p) with
  | some x => x.1
  | none => ((List.range 32).find? fun k => Config.libraryProgram (libraryOf s) k = some p).getD p.slot

/-- A routine contains PRESS: its bundles are not stolen by another office (R218). -/
def routineHasPress (p : Program) (entry : Nat) : Bool := (routineAt p entry).any fun w => w.toNat % 256 = 0x18

/-- The descriptor of bundle `b` of a phase, its bases as wide as their fields (R212). -/
def descriptor (s : State) (e : Nat) (r : GroupRec) (p : Program) (ph : Phase) (b home : Nat) : Bundle :=
  let g := groupOf s e
  { group := r.group, step := g.step, index := b, prog := slotOfProgram s p, noRemote := routineHasPress p ph.entry, retry := false, phase := g.phase,
    entry := ph.entry, inBase := (g.inBase + ph.inOff + b * ph.inStride) % 2 ^ 25, inSize := ph.inSize,
    outBase := (g.outBase + ph.outOff + b * ph.outStride) % 2 ^ 25, outSize := ph.outSize, constBase := 0xC0000 + 1024 * e, s0 := ph.s0, s1 := ph.s1, s2 := ph.s2, s3 := ph.s3, home := home }

/-- SEQUENCER_PLACE: the next descriptor of the group whose turn it is goes into the next queue with room; writing it is an access of a bank. -/
def sequencerPlace (o : Nat) (s : State) : State :=
  if !officeTakes s o || s.tray.pull > 0 then s
  else match turnOf s o, queueWithRoom s o with
    | some (e, left), some c =>
      let g := groupOf s e
      (match g.record with
      | none => s
      | some r =>
        match phaseOf s g r with
        | none => s
        | some (p, ph) =>
          let k := 32 * o + c
          let d := descriptor s e r p ph g.bundlesIssued k
          let s := modClerk s k fun x => { x with queue := x.queue ++ [d] }
          let s := modGroup s e fun g => { g with bundlesIssued := g.bundlesIssued + 1 }
          noteQueues o (cnt1 (idOffice 6 o) (modOffice s o fun x => { x with lastQueue := c, turn := (e, left) })))
    | _, _ => s

def execSequencerPlace (o : Nat) (s : State) : Host.Outcome State Fault Refusal := .next (sequencerPlace o s)

/-! ### Taking and stealing (R213, R216–R218) -/

/-- A clerk starts a bundle: its registers as R208 and R212 set them. -/
def startBundle (k : Nat) (b : Bundle) (foreign : Bool) (home : Nat) (s : State) : State :=
  let s := cntAdd (idClerk 2 k) 8 s
  let old := mread (officeOf s home).sram b.outBase b.outSize
  modClerk s k fun x => { x with
    state := if foreign then .foreign else .own, bundle := some b, home := home, v := [], kind := [], m := [],
    a := tset 0 (tset 0 (tset 0 [] 0 b.inBase) 1 b.outBase) 2 b.constBase,
    s := tset 0 (tset 0 (tset 0 (tset 0 [] 0 b.s0) 1 b.s1) 2 b.s2) 3 b.s3,
    loops := [], draws := [], pc := b.entry, issued := 0, outstanding := 0, waiting := false, waitSince := none, waited := 0, saved := old }

/-- The clerk is idle and its office takes bundles. -/
def clerkIdle (s : State) (k : Nat) : Bool := k < 256 && (clerkOf s k).bundle.isNone && officeTakes s (k / 32)

/-- BUNDLE_TAKE (R216, R214): an idle clerk takes the head of its own queue; a descriptor that fails parity twice stops the bundle as R214
states. -/
def bundleTake (k parity : Nat) (s : State) : State :=
  if !clerkIdle s k then s
  else match (clerkOf s k).queue with
    | [] => s
    | b :: rest =>
      let s := modClerk s k fun x => { x with queue := rest }
      let s := startBundle k b false (k / 32) (cntAdd (idOffice 6 (k / 32)) (1 + min parity 1) s)
      let s := if parity ≥ 2 then parityStop k s else if parity = 1 then cnt1 (idOffice 2 (k / 32)) s else s
      noteQueues (k / 32) s

def execBundleTake (k parity : Nat) (s : State) : Host.Outcome State Fault Refusal := .next (bundleTake k parity s)

/-- The office's longest queue; of equals the first after clerk `own` in clerk order. -/
def longestQueue (s : State) (o own : Nat) : Option Nat :=
  let order := (List.range 32).map fun i => 32 * o + (own + 1 + i) % 32
  (order.foldl (fun (b : Option Nat) (k : Nat) =>
    let n := (clerkOf s k).queue.length
    match b with
    | none => if n > 0 then some k else none
    | some j => if n > (clerkOf s j).queue.length then some k else some j) none)

/-- Offices of the thief's hemisphere that it may steal from: longest queue of 4 or more, its tail without NO_REMOTE, and fewer than 8 foreign
clerks at work (R217, R218). -/
def remoteVictims (s : State) (o : Nat) : List Nat :=
  ((List.range 4).map (4 * hemOfOffice o + ·)).filter fun v => v ≠ o && decide (foreignIn s v < 8) &&
    match longestQueue s v 31 with
    | some j => decide ((clerkOf s j).queue.length ≥ 4) && (match (clerkOf s j).queue.getLast? with | some b => !b.noRemote | none => false)
    | none => false

/-- The descriptor at the tail of a queue goes to the thief: 16 cycles for the steal, then as a bundle taken. Reading it may fail parity (R214). -/
def stealFrom (k victim parity : Nat) (s : State) : State :=
  match (clerkOf s victim).queue.getLast? with
  | none => s
  | some b =>
    let v := victim / 32
    let foreign := decide (v ≠ k / 32)
    let s := modClerk s victim fun x => { x with queue := x.queue.dropLast }
    let s := cntAdd (idClerk 2 k) 16 (if foreign then cnt1 (idOffice 4 v) s else cnt1 (idOffice 3 v) s)
    let s := startBundle k b foreign v (cntAdd (idOffice 6 v) (1 + min parity 1) s)
    let s := modClerk s k fun x => { x with stealUntil := s.mer.ns + 11 }
    noteQueues v (if parity ≥ 2 then parityStop k s else if parity = 1 then cnt1 (idOffice 2 v) s else s)

/-- The clerk's office has had empty queues for 64 cycles (R217). -/
def officeStarved (s : State) (o : Nat) : Bool :=
  decide (officeQueued s o = 0) && (match (officeOf s o).emptySince with | some t => decide ((s.mer.ns - t) * 100 ≥ 4096) | none => false)

/-- The descriptor that a thief would take within its office is the one that its owner, idle, takes in the same cycle: the only one of its queue. -/
def ownerWins (s : State) (j : Nat) : Bool := decide ((clerkOf s j).queue.length = 1) && (clerkOf s j).bundle.isNone

/-- BUNDLE_STEAL (R217): within the office, and after 64 empty cycles from another office of the hemisphere, of which the manual names none
first. `missed`: the owner's take reaches the same descriptor in the same cycle, and gets it. `parity` is what reading the descriptor gave (R214). -/
def bundleSteal (k : Nat) (missed : Bool) (parity : Nat) (s : State) : State :=
  let o := k / 32
  let scope := (tget {} s.bank.off o).stealScope
  if !clerkIdle s k || !(clerkOf s k).queue.isEmpty || scope = 0 then s
  else match longestQueue s o (k % 32) with
    | some j => if missed && ownerWins s j then cnt1 (idOffice 5 o) s else stealFrom k j parity s
    | none =>
      let vs := remoteVictims s o
      if scope ≠ 2 || !officeStarved s o || vs.isEmpty then s
      else
        let (f, s) := drawFree s
        match longestQueue s (vs.getD (f % vs.length) 0) 31 with
        | some j => stealFrom k j parity s
        | none => s

def execBundleSteal (k : Nat) (s : State) (missed : Bool := false) (parity : Nat := 0) : Host.Outcome State Fault Refusal :=
  .next (bundleSteal k missed parity s)

/-! ### Press jobs (R226–R232) -/

/-- An element of a GEMM (R227): integers modulo 2³², products of floating-point elements accumulated in FP32 in an order left open. -/
def gemmElem (m : Memory) (j : Job) (d i o : Nat) : FNum :=
  let at_ := fun (q : Nat) => numMul (readNum m j.fmtA j.aAddr (i * j.inner + q)) (readNum m j.fmtA j.bAddr (q * j.outer + o))
  if j.fmtA = 10 then
    let sum := (List.range j.inner).foldl (fun (a : BitVec 32) q => match at_ q with
      | .fin neg x _ => a + BitVec.ofInt 32 (if neg then -(x : Int) else x)
      | _ => a) 0
    .fin (decide (sum.toInt < 0)) sum.toInt.natAbs 0
  else num32 (sumFree fAdd (fun q => Config.accKey d ((i * j.outer + o) * 131072 + q)) j.inner ((List.range j.inner).map fun q => round32 (at_ q)))

/-- Row `i` of a job's data input, `n` elements, in FP32. -/
def jobRow (m : Memory) (fmt base n i : Nat) : List (BitVec 32) := (List.range n).map fun q => readElem m fmt base (i * n + q)

/-- The values of a job's output, before FMT_OUT (R227, R230, R232). -/
def jobValues (m : Memory) (j : Job) (d : Nat) : List FNum :=
  let rk := rankOf j
  let pick := fun (i : Nat) (q : Nat) => Config.accKey d (i * 2 ^ 32 + q)
  if j.mode ≤ 1 then (List.range j.rows).flatMap fun i => (List.range j.outer).map fun o => gemmElem m j d i o
  else if j.mode = 2 then
    (List.range j.rows).flatMap fun i => (foldRow j.blockSeed j.inner rk (pick i) (jobRow m j.fmtA j.aAddr j.inner i)).map num32
  else if j.mode = 3 then
    (List.range j.rows).flatMap fun i =>
      let un := unfoldRow j.blockSeed j.inner rk (pick i) (jobRow m j.fmtA j.aAddr rk i)
      (if j.resid then List.zipWith fSub (jobRow m j.fmtA j.bAddr j.inner i) un else un).map num32
  else []

/-- A value converted to an element of FMT_OUT (R222, R223): code, saturated, NaN. -/
def outConv (fmt rnd u : Nat) (x : FNum) : Conv :=
  match elemFmt fmt with
  | some f => let (c, sat) := encodeNum f rnd u x; ⟨c, sat, numIsNan x, decide (rnd = 1)⟩
  | none => let (v, sat) := numToInt (fmtBits fmt) rnd u x; ⟨toSigned (fmtBits fmt) v, sat, numIsNan x, decide (rnd = 1)⟩

/-- The draw of a press's generator (R222): C = 256 + o, i = 0, numbered from the job's start. -/
def pressDraw (s : State) (o : Nat) (j : Job) (n : Nat) : Nat := drawOf (seedOf s j.bundle) j.bundle.step j.bundle.index (256 + o) 0 n

/-- A job's output written to the OUT window (R227), and its saturations and NaNs; ACCUM adds to what C holds, in FP32, before the conversion
(R228). -/
def finishJob (o : Nat) (j : Job) (s : State) : State :=
  let m := (officeOf s o).sram
  let d := s.draw
  let s := cntAdd (idOffice 6 o) (jobLines j) { s with draw := d + 1 }
  if j.mode = 5 then s
  else if j.mode = 4 then
    let n := j.rows * j.inner
    let ws := jobRow m 0 j.aAddr n 0
    let ws := if j.accum then List.zipWith fAdd (jobRow m j.fmtOut j.cAddr n 0) ws else ws
    let ts := (List.range ((n + 255) / 256)).map fun t => quantTile j.fmtOut j.rnd (fun i => pressDraw s o j (256 * t + i)) ((ws.drop (256 * t)).take 256)
    let s := modOffice s o fun x => { x with sram := mwrite x.sram j.cAddr (ts.flatMap (·.1)) }
    let s := cntAdd (idOffice 11 o) (sumNat (ts.map (·.2))) s
    cntAdd (idOffice 12 o) (ws.filter fun w => numIsNan (num32 w)).length s
  else
    let vs := jobValues m j d
    let vs := if j.accum then vs.zipIdx.map fun x => num32 (fAdd (round32 (readNum m j.fmtOut j.cAddr x.2)) (round32 x.1)) else vs
    let cs := vs.zipIdx.map fun x => outConv j.fmtOut j.rnd (pressDraw s o j x.2) x.1
    let s := modOffice s o fun x => { x with sram := writeElems j.fmtOut j.cAddr (cs.zipIdx.map fun c => (c.2, c.1.code)) x.sram }
    countConvs o cs s

/-- The press takes the job at the head of its queue, which it reads from SRAM (R206, R207). -/
def pressNext (o : Nat) (s : State) : State :=
  let jobs := (officeOf s o).jobs
  cntAdd (idOffice 6 o) (min jobs.length 1) (modOffice s o fun x => { x with running := jobs.head?, jobs := jobs.tail })

/-- The press starts the job at the head of its queue, where it is idle and the job is of the mode (R229). -/
def pressStart (o mode : Nat) (s : State) : State :=
  let x := officeOf s o
  match x.running, x.jobs with
  | none, j :: _ => if j.mode = mode && decide (s.pow.ladder = 0) then modOffice (pressNext o s) o fun x => { x with dummyUntil := 0 } else s
  | _, _ => s

/-- PRESS_GEMM8. -/
def execPressGemm8 (o : Nat) (s : State) : Host.Outcome State Fault Refusal := .next (pressStart o 0 s)

/-- PRESS_GEMM16. -/
def execPressGemm16 (o : Nat) (s : State) : Host.Outcome State Fault Refusal := .next (pressStart o 1 s)

/-- PRESS_FOLD. -/
def execPressFold (o : Nat) (s : State) : Host.Outcome State Fault Refusal := .next (pressStart o 2 s)

/-- PRESS_UNFOLD. -/
def execPressUnfold (o : Nat) (s : State) : Host.Outcome State Fault Refusal := .next (pressStart o 3 s)

/-- PRESS_QUANT. -/
def execPressQuant (o : Nat) (s : State) : Host.Outcome State Fault Refusal := .next (pressStart o 4 s)

/-- Press cycles are counted: the office's own counter and the PRESS_BUSY programmable counters (R414, R417). -/
def pressCycles (o n counter : Nat) (s : State) : State := pcntSel 5 n (fun c => pcArg c = o) (cntAdd (idOffice counter o) n s)

/-- PRESS_DUMMY (R229): so many cycles of DUMMY work while the queue is empty and the load smoother asks for fill (R397); a submitted DUMMY job
starts by it too (R227). -/
def pressDummy (o cycles : Nat) (s : State) : State :=
  let x := officeOf s o
  if decide (s.pow.ladder ≠ 0) || x.running.isSome then s
  else if !x.jobs.isEmpty then pressStart o 5 s
  else if s.pow.fillW = 0 then s
  else pressCycles o cycles 10 (modOffice s o fun x => { x with dummyUntil := s.mer.ns + (cycles * 16 + 24) / 25 })

def execPressDummy (o cycles : Nat) (s : State) : Host.Outcome State Fault Refusal := .next (pressDummy o cycles s)

/-- PRESS_JOB_DONE (R227, R229): the output is written, the clerk has one job fewer outstanding, and the next job starts. A DUMMY job's cycles count
as DUMMY_CYCLES. `parity` is what the job's reads gave (R214): 0 good, 1 bad once and good when read again, 2 bad twice, which stops the bundle that
submitted it. -/
def pressJobDone (o parity : Nat) (s : State) : State :=
  match (officeOf s o).running with
  | none => s
  | some j =>
    let reads := decide (j.mode ≠ 5)
    let s := if reads && decide (parity > 0) then cnt1 (idOffice 6 o) s else s
    if reads && decide (parity ≥ 2) then pressNext o (if (clerkOf s j.clerk).bundle = some j.bundle then parityStop j.clerk s else s)
    else
      let s := finishJob o j (if reads && decide (parity = 1) then cnt1 (idOffice 2 o) s else s)
      let s := pressCycles o (jobCycles j) (if j.mode = 5 then 10 else 9) (cnt1 (idOffice 8 o) s)
      pressNext o (modClerk s j.clerk fun x => if x.bundle = some j.bundle then { x with outstanding := x.outstanding - 1 } else x)

def execPressJobDone (o : Nat) (s : State) (parity : Nat := 0) : Host.Outcome State Fault Refusal := .next (pressJobDone o parity s)

/-- OFFICE_PROGRAM_RELOAD_DONE (R238): slots 0–31 are back from firmware and the office takes bundles again. -/
def execOfficeProgramReloadDone (o : Nat) (s : State) : Host.Outcome State Fault Refusal :=
  if o < 8 && (officeOf s o).reloading then .next (modOffice s o fun x => { x with reloading := false, state := .ready }) else .next s

/-! ### Offices outside normal service (R238) -/

/-- Every queued descriptor is discarded: skeleton service, and the loss of office SRAM in ST3 and ST4. -/
def clearQueues (s : State) : State := noteAllQueues ((s.clerks.map (·.1)).foldl (fun s k => modClerk s k fun x => { x with queue := [] }) s)

/-- ST3 and ST4: office SRAM, the program store and what ran are lost; a program that is staged stays staged. -/
def loseOffices (s : State) : State :=
  let s := (List.range 8).foldl (fun s o => modOffice s o fun x => { x with
    state := .gated, sram := [], jobs := [], running := none, dummyUntil := 0, reloading := false, lastQueue := 31, turn := (0, 0) }) s
  let live := s.bank.prog
  noteAllQueues { s with
    clerks := [], bank := { s.bank with prog := [] },
    staging := { s.staging with bank := { s.staging.bank with prog := s.staging.bank.prog.filter fun x => !live.contains x } } }

/-- On exit from ST3 or ST4 slots 0–31 are being reloaded. -/
def reloadOffices (s : State) : State := (List.range 8).foldl (fun s o => modOffice s o fun x => { x with reloading := true }) s

end Sys2Proof.Machine
end

