-- ==== Sys2Proof/Machine/Memory.lean ====
section
/-! DEFINITION. The CXL port, the host window, second-tier requests, GDDR7 and the capture ring (spec/10, and R429 and R430 of spec/16). -/

namespace Sys2Proof.Machine

/-! ### The CXL link (R267, R269, R277) -/

/-- Every outstanding request is abandoned and counted, and the records it wrote are bad (R277, R278). -/
def abandonUio (s : State) : State :=
  let us := s.cxl.uio.map (·.2)
  let s := { s with cxl := { s.cxl with uio := [] } }
  us.foldl (fun s u =>
    let s := cnt1 6 s
    match u.unit with
    | some p => if u.rewrite then s else (recordsIn s p).foldl (fun s r => markBad r s) s
    | none => s) s

/-- The link goes down (R269, R277): requests are abandoned, every window sets DISABLED_LINK, and the port trains again unless it is in
reset. -/
def cxlDown (s : State) : State :=
  if s.cxl.mode = 0 then s
  else
    let s := abandonUio s
    let s := [0, 1, 2, 3].foldl (fun s w => modWindow s w fun x => { x with disabledLink := true }) s
    dropRewrites { s with cxl := { s.cxl with mode := 0, training := !cxlInReset s } }

/-- The port enters reset, by its pin or by RESET_UNIT (R269, R274, R383): its link goes down, and the page stands still until L0. -/
def cxlReset (s : State) : State :=
  let s := cxlDown s
  { s with cxl := { s.cxl with training := false, pageHeld := true } }

/-- CXL_PERST_ASSERT (R269, R381). -/
def perstAssert (s : State) : State :=
  let s := cxlReset s
  { s with cxl := { s.cxl with perst := true } }

def execCxlPerstAssert (s : State) : Host.Outcome State Fault Refusal := .next (perstAssert s)

/-- CXL_PERST_DEASSERT (R269): the port trains, but where RESET_UNIT holds it (R383). -/
def execCxlPerstDeassert (s : State) : Host.Outcome State Fault Refusal :=
  if s.cxl.perst then .next { s with cxl := { s.cxl with perst := false, training := !s.cxl.unitHeld } } else .next s

/-- CXL_LINK_UP (R267): training ends in a mode, or at another rate or width with the link down; below mode 1 it alerts CXL_DEGRADED. In L0
DISABLED_LINK clears (R277). -/
def cxlLinkUp (mode : Nat) (s : State) : State :=
  if cxlInReset s || !s.cxl.training then s
  else if mode = 0 || mode > 4 then { s with cxl := { s.cxl with training := false } }
  else
    let was := [0, 1, 2, 3].any fun w => (windowOf s w).disabledLink
    let s := [0, 1, 2, 3].foldl (fun s w => modWindow s w fun x => { x with disabledLink := false }) s
    let s := { s with cxl := { s.cxl with training := false, mode := mode, pageHeld := false } }
    let s := if mode > 1 then alert 0x0108 mode [] s else s
    drainQueue (if was then windowChanged s else s)

def execCxlLinkUp (mode : Nat) (s : State) : Host.Outcome State Fault Refusal := .next (cxlLinkUp mode s)

/-- CXL_LINK_DOWN (R277). -/
def execCxlLinkDown (s : State) : Host.Outcome State Fault Refusal := .next (cxlDown s)

/-! ### The host window (R270, R271, R275, R326) -/

/-- Bytes put into a byte string at an offset. -/
def overlay (l : List Byte) (k : Nat) (d : List Byte) : List Byte := fit (max l.length (k + d.length)) (l.take k ++ zeros (k - l.length) ++ d ++ l.drop (k + d.length))

/-- A write to box b's page at offset k (R326). -/
def boxWrite (b k : Nat) (data : List Byte) (s : State) : State :=
  let x := boxOf s b
  if k < 0x40 || x.hbState = 1 || x.hbState = 2 then cnt1 8 s
  else modBox s b fun x => { x with buffer := overlay x.buffer (k - 0x40) data }

/-- A write to MSI-X entry v at byte k of it: the entry is kept with its mask bit, 1 at reset, inverted; unmasking sends what is pending. -/
def msixWrite (v k : Nat) (data : List Byte) (s : State) : State :=
  let bytes := overlay (leBytes 16 ((tget 0 s.cxl.msix v) ^^^ (BitVec.ofNat 128 (2 ^ 96))).toNat) k data
  let e : BitVec 128 := BitVec.ofNat 128 (leNat bytes) ^^^ BitVec.ofNat 128 (2 ^ 96)
  let s := { s with cxl := { s.cxl with msix := tset 0 s.cxl.msix v e } }
  if msixMasked s v then s else { s with cxl := { s.cxl with pba := s.cxl.pba &&& ~~~(BitVec.ofNat 8 (2 ^ v)) } }

/-- A write to the doorbell page at offset k (R275). -/
def doorbellWrite (k : Nat) (data : List Byte) (s : State) : State :=
  let v := leNat (data.take 4)
  if k < 0x20 then (if k % 8 = 0 then doorbell (k / 8) v s else s)
  else if k = 0x20 then { s with cxl := { s.cxl with eventConsume := v } }
  else if k = 0x28 then { s with cxl := { s.cxl with teleConsume := v } }
  else if 0x800 ≤ k && k < 0x880 then msixWrite ((k - 0x800) / 16) (k % 16) data s
  else s

/-- HOST_WINDOW_WRITE (R269–R271): 4 or 8 bytes, naturally aligned; any other size is dropped and counted. Read-only pages ignore writes. -/
def windowWrite (offset : Nat) (data : List Byte) (s : State) : State :=
  if !cxlUp s then s
  else if !((data.length = 4 || data.length = 8) && offset % data.length = 0) then cnt1 8 s
  else if 0x2000 ≤ offset && offset < 0x6000 then boxWrite (offset / 4096 - 2) (offset % 4096) data s
  else if 0x6000 ≤ offset && offset < 0x7000 then doorbellWrite (offset % 4096) data s
  else s

def execHostWindowWrite (offset : Nat) (data : List Byte) (s : State) : Host.Outcome State Fault Refusal := .next (windowWrite offset data s)

/-- Slot j of a ring page of 63 records: the record of index i stands in slot i mod 63; the last of `recs` has index `produce` − 1 (R340, R427). -/
def ringSlot (produce : Nat) (recs : List (List Byte)) (j : Nat) : List Byte :=
  let index := fun (k : Nat) => (produce + 2 ^ 32 + k - recs.length) % 2 ^ 32
  match ((List.range recs.length).filter fun k => index k % 63 = j).getLast? with
  | some k => fit 64 (recs.getD k [])
  | none => zeros 64

/-- A ring page: two counts, a byte, reserved bytes, and the 63 slots (R340, R427). -/
def ringPage (produce lost mark : Nat) (recs : List (List Byte)) : List Byte :=
  fit 64 (leBytes 4 produce ++ leBytes 4 lost ++ leBytes 1 mark) ++ (List.range 63).flatMap (ringSlot produce recs)

/-- Box HBb's page (R326). -/
def boxPage (s : State) (b : Nat) : List Byte :=
  let x := boxOf s b
  fit 0x20 (leBytes 4 x.complete ++ leBytes 4 x.hbState) ++ (match x.last with | some r => completionBytes r | none => zeros 32) ++ fit 4032 x.buffer

/-- The doorbell page (R275). -/
def doorbellPage (s : State) : List Byte :=
  let doors := (List.range 4).flatMap fun b => leBytes 8 (tget 0 s.cxl.produce b)
  let entries := (List.range 8).flatMap fun v => leBytes 16 ((tget 0 s.cxl.msix v) ^^^ BitVec.ofNat 128 (2 ^ 96)).toNat
  fit 0x800 (doors ++ leBytes 8 s.cxl.eventConsume ++ leBytes 8 s.cxl.teleConsume) ++ fit 0x400 entries ++ fit 0x400 (leBytes 8 s.cxl.pba.toNat)

/-- The 4,096 bytes of a page of BAR0 (R270). -/
def hostPage (s : State) (page : Nat) : List Byte :=
  fit 4096 (match page with
    | 0 => identityPage s
    | 1 => statusPage s 9
    | 2 => boxPage s 0
    | 3 => boxPage s 1
    | 4 => boxPage s 2
    | 5 => boxPage s 3
    | 6 => doorbellPage s
    | 7 => ringPage s.gmi.eventProduce (cntOf s 20 % 2 ^ 32) 0 (s.gmi.ring.map eventBytes)
    | 8 => ringPage s.tele.produce s.tele.lost (fillMark s) (s.tele.ring.map teleBytes)
    | _ => [])

/-- What a host read of the window returns: the current contents; nothing while the window is unreachable (R269, R271). No command stands for a
read, which changes nothing (notes/assumptions/131.md). -/
def hostRead (s : State) (offset length : Nat) : Option (List Byte) :=
  if cxlUp s then some ((List.range length).flatMap fun i => sliceAt (hostPage s ((offset + i) / 4096)) ((offset + i) % 4096) 1) else none

/-! ### ADC bursts and second-tier completions (R277, R278, R430) -/

/-- A burst is over, written or dropped: the next starts, or the claim ends with OK after the last (R430). -/
def nextBurst (s : State) : State :=
  let c := s.capture
  let s := { s with capture := { c with adcLeft := c.adcLeft - 1, adcWait := none, adcSince := s.mer.ns, adcBusy := decide (c.adcLeft > 1) } }
  if c.adcLeft > 1 then s
  else returnLane c.adcLane (modLane s c.adcLane fun x =>
    if x.claim = .capture then { x with claim := .none, claimResult := some .ok, claimLast := .capture } else x)

/-- A burst's record enters the writer's queue: 65,536 samples, one per byte in bits [6:0] (R430). -/
def burstRecord (samples : List Byte) (s : State) : State :=
  let s := putRecord 2 0 false s.capture.adcLane 0 s.capture.adcSince ((fit 65536 samples).map (· &&& 0x7F#8)) s
  nextBurst (cnt1 23 { s with capture := { s.capture with adcDone := min 255 (s.capture.adcDone + 1) } })

/-- A burst that waits enters as soon as the queue has room; copies that wait for the ring follow. -/
def captureMoves (s : State) : State :=
  let s := drainQueue s
  let s := match s.capture.adcWait with
    | some (_, l) => if captureFree s ≥ 65600 then burstRecord l s else s
    | none => s
  captureTake s

/-- UIO_COMPLETION (R277, R278): the request leaves; one with an error is counted and fails. -/
def uioCompletion (req : Nat) (error : Bool) (s : State) : State :=
  match tfind s.cxl.uio req with
  | none => s
  | some u =>
    let s := { s with cxl := { s.cxl with uio := tdel s.cxl.uio req } }
    captureMoves (dropRewrites (if error then uioFailed u (cnt1 7 s) else modWindow s u.window fun x => { x with fails := 0 }))

def execUioCompletion (req : Nat) (error : Bool) (s : State) : Host.Outcome State Fault Refusal := .next (uioCompletion req error s)

/-- UIO_TIMEOUT (R277): no completion within 1 ms. -/
def uioTimeout (req : Nat) (s : State) : State :=
  match tfind s.cxl.uio req with
  | none => s
  | some u =>
    if s.mer.ns < u.startNs + 1000000 then s
    else captureMoves (dropRewrites (uioFailed u (cnt1 6 { s with cxl := { s.cxl with uio := tdel s.cxl.uio req } })))

def execUioTimeout (req : Nat) (s : State) : Host.Outcome State Fault Refusal := .next (uioTimeout req s)

/-- ADC_CAP with GO (R72–R74, R430): a CAPTURE claim on the lane's ADC. -/
def adcCapAns (lane bursts : Nat) (s : State) : Ans :=
  if s.pow.ladder ≥ 2 then refuse .notReady s
  else if s.capture.adcBusy then busy 4 s.capture.adcLane s
  else if (laneOf s lane).claim ≠ .none then adcBusy lane s
  else
    let s := modLane s lane fun x => { x with claim := .capture, claimResult := none }
    okAns { s with capture := { s.capture with
      adcLane := lane, adcBursts := bursts, adcBusy := true, adcLeft := bursts + 1, adcDone := 0, adcSince := s.mer.ns, adcWait := none } }

def execAdcCapStart (c : Ctx) (lane bursts : Nat) (s : State) : Host.Outcome State Fault Refusal := .next (gmiRun c 0x801 (adcCapAns lane bursts) s)

/-- ADC_BURST_DONE (R430): the burst's record enters the queue, or waits for room. -/
def burstDone (samples : List Byte) (s : State) : State :=
  if !s.capture.adcBusy || s.capture.adcWait.isSome then s
  else if captureFree s ≥ 65600 then burstRecord samples s
  else { s with capture := { s.capture with adcWait := some (roundNo s, samples) } }

def execAdcBurstDone (samples : List Byte) (s : State) : Host.Outcome State Fault Refusal := .next (burstDone samples s)

/-- ADC_BURST_DROP (R430): no queue space within 4 Rounds. -/
def burstDrop (s : State) : State :=
  match s.capture.adcWait with
  | none => s
  | some (r, _) =>
    if roundNo s < r + 4 then s else nextBurst { s with capture := { s.capture with dropped := s.capture.dropped + 1 } }

def execAdcBurstDrop (s : State) : Host.Outcome State Fault Refusal := .next (burstDrop s)

/-- CAPTURE_PAD (R429): a unit left unfilled for 1 Round is completed with a PAD. -/
def capturePad (s : State) : State :=
  match s.capture.partialSince with
  | none => s
  | some r => if roundNo s < r + 1 then s else captureMoves (placePad (256 - s.capture.place % 256) s)

def execCapturePad (s : State) : Host.Outcome State Fault Refusal := .next (capturePad s)

/-- CAPTURE_PUBLISH (R278, R429). -/
def execCapturePublish (s : State) : Host.Outcome State Fault Refusal := .next (publish s)

/-! ### GDDR7 (R280–R286) -/

/-- The spilled letters of a half, in the order of their streams. -/
def spilledAt (s : State) (h : Nat) : List (Nat × RHeld) :=
  (reorderOf s h).streams.flatMap fun x => ((x.2.held ++ x.2.aside).filter (·.spilled)).map fun y => (x.1, y)

/-- A spilled letter is bad (R129, R282): it is given up and SPOILT is reported with CAUSE PARITY. -/
def spoilSpilled (h n : Nat) (s : State) : State :=
  match (spilledAt s h)[n]? with
  | none => s
  | some (key, y) =>
    let drop := fun (x : Stream) => { x with held := x.held.erase y, aside := x.aside.erase y }
    report 0x0202 y.letter.ingress [1] (cnt1 (idHem 12 h) (match streamOf s h key with | some x => putStream h key (drop x) s | none => s))

/-- The code of a GDDR7 user in MEM_PARITY: its row in the table of R282. -/
def userCode : MemUser → Nat
  | .letterSpill _ => 0
  | .mailbagSpill _ => 1
  | .captureRing _ => 2
  | .diagnosticsRead => 3

/-- GDDR7_PARITY_FAIL (R282): the line is read again, at protection class (R283); a second failure has the outcome of its user. -/
def parityFail (half : Nat) (user : MemUser) (again : Bool) (s : State) : State :=
  let s := memRequest half 0 0 256 s
  if !again then cnt1 (idHem 9 half) s
  else
    let s := report 0x020D half [BitVec.ofNat 8 (userCode user)] (cnt1 (idHem 10 half) s)
    match user with
    | .letterSpill n => spoilSpilled half n s
    | .mailbagSpill g => match entryOf s g with | some e => abortStep e 3 s | none => s
    | .captureRing n => match s.capture.records.find? fun r => r.kind ≠ 0 && r.seq = n with | some r => markBad r s | none => s
    | .diagnosticsRead => modMem s half fun m => { m with diagParity := true }

def execGddr7ParityFail (half : Nat) (user : MemUser) (again : Bool) (s : State) : Host.Outcome State Fault Refusal := .next (parityFail half user again s)

/-- The ring's size in a half: it exists in the half named, while it lies in GDDR7 (R281). -/
def ringIn (s : State) (h : Nat) : Nat := if ringTier s = none && s.bank.regs.captureHalf = h then s.bank.regs.captureGib * gib else 0

/-- The first byte of a half's diagnostic scratch (R281). -/
def scratchBase (s : State) (h : Nat) : Nat := ringBase + ringIn s h

/-- A session or a CAPTURE claim that targets the ring: the owner that a refusal names, kind and number (R279, R332). -/
def ringUser (s : State) (b : Bank) : Option (Nat × Nat) :=
  match (b.copy.find? fun x => x.2.enable && x.2.destRing) with
  | some x => some (5, x.1)
  | none => if s.capture.adcBusy then some (5, 0) else none

/-- The data-service user, or the ring, that holds lines of a half: owner kind and number (R285). -/
def halfUser (s : State) (h : Nat) : Option (Nat × Nat) :=
  if heldCells s h true > 0 then some (8, h)
  else match (memOf s h).mspill with
    | x :: _ => some (9, groupNumber (groupOf s x.1))
    | [] => if ringIn s h > 0 then ringUser s s.bank else none

/-- A claim on a whole half, or why it is refused (R285): what MEM_TEST and the reset of a half ask. -/
def wholeHalf (h : Nat) (s : State) : Option Ans :=
  if !(s.pm.standing || s.pow.ladder = 1) || (memOf s h).state ≠ 1 then some (refuse .notReady s)
  else match halfUser s h with
    | some (k, n) => some (busy k n s)
    | none => if (memOf s h).claims.isEmpty then none else some (busy 10 h s)

/-- MEM_TEST (R285): a claim on a range of the diagnostic scratch, which is then a request of diagnostics class (R283), or on a whole half. -/
def memTestAns (half : Nat) (whole : Bool) (lo len : Nat) (s : State) : Ans :=
  if half > 1 then badArg 0 s
  else if whole then
    match wholeHalf half s with
    | some a => a
    | none => okAns (modMem s half fun m => { m with claims := m.claims ++ [{ whole := true, lo := 0, len := 0 }] })
  else if lo < scratchBase s half || lo ≥ scratchBase s half + gib then badArg 2 s
  else if len = 0 || lo + len > scratchBase s half + gib then badArg 10 s
  else if (memOf s half).state ≠ 1 then refuse .notReady s
  else if (memOf s half).claims.any fun m => m.whole || (lo < m.lo + m.len && m.lo < lo + len) then busy 10 half s
  else okAns (memRequest half 2 0 len (modMem s half fun m => { m with claims := m.claims ++ [{ whole := false, lo := lo, len := len }] }))

def execMemTest (c : Ctx) (half : Nat) (whole : Bool) (lo len : Nat) (s : State) : Host.Outcome State Fault Refusal :=
  .next (gmiRun c 0x805 (memTestAns half whole lo len) s)

/-- MEM_TEST_END (R285): the claim is over, and the half's users go on. -/
def execMemTestEnd (half : Nat) (whole : Bool) (lo : Nat) (s : State) : Host.Outcome State Fault Refusal :=
  .next (captureMoves (modMem s half fun m => { m with claims := m.claims.filter fun x => !(x.whole = whole && (whole || x.lo = lo)) }))

/-- MEM_READ (R281, R282): bytes of the diagnostic scratch or the capture ring, and the parity flag after them; a request of diagnostics or of capture
class (R283). -/
def memReadAns (half offset length : Nat) (s : State) : Ans :=
  if half > 1 then badArg 0 s
  else if offset < ringBase || offset + length > scratchBase s half + gib then badArg 1 s
  else if (memOf s half).state ≠ 1 then refuse .notReady s
  else if length > 4095 then badArg 9 s
  else okWith (mread (memOf s half).mem offset length ++ leBytes 1 (bit (memOf s half).diagParity)) 9
    (memRequest half (if offset < scratchBase s half then 3 else 2) 0 length (modMem s half fun m => { m with diagParity := false }))

def execMemRead (c : Ctx) (half offset length : Nat) (s : State) : Host.Outcome State Fault Refusal :=
  .next (gmiRun c 0x806 (memReadAns half offset length) s)

end Sys2Proof.Machine
end

