-- ==== Sys2Proof/Machine/Power.lean ====
section
/-! DEFINITION. The power ladder, caps, the governor, the load smoother, cap letters, ramp schedules and protection (spec/15), with the tray
caps of R394. Powers of the governor are in 1/1,000,000 W, so that a W per ms is 1,024 per Round. -/

namespace Sys2Proof.Machine

/-! ### Caps and the ceiling (R390, R391) -/

/-- One watt. -/
def watt : Nat := 1000000

/-- The lowest of the three commanded terms. -/
def Terms.least (t : Terms) : Nat := min t.rack (min t.fabric t.host)

/-- The PROTECT term that the conditions in force ask for (R405). -/
def protectDue (s : State) : Nat := if s.pow.coolant ≠ 0 then 400 else if s.pow.droop52 then 500 else 1000

/-- At most 400 under the skeleton freeze (R390, R407). -/
def freezeCap (s : State) (n : Nat) : Nat := if s.pow.frozen then min 400 n else n

/-- The module's effective cap, permille (R390). -/
def effModule (s : State) : Nat := freezeCap s (min s.pow.terms.least (min s.pow.rampMod s.pow.protect))

/-- The effective cap of home accelerator i with a RAMP and a PROTECT term given. -/
def effAccWith (s : State) (i ramp prot : Nat) : Nat := freezeCap s (min (accOf s i).terms.least (min ramp prot))

/-- The effective cap of home accelerator i (R390). -/
def effAcc (s : State) (i : Nat) : Nat := effAccWith s i s.pow.rampAcc s.pow.protect

/-- The power limit of a ladder state (R386). -/
def ladderLimit (st : Nat) : Nat := if st = 0 then 2600 * watt else if st = 1 then 260 * watt else if st = 2 then 26 * watt else if st = 3 then 2600000 else 260000

/-- The deepest state whose limit C keeps: the present one, that of a commanded entry which has begun (R391, R408), or ST4 after step 3 of
R439. -/
def limitState (s : State) : Nat :=
  if s.tray.pull = 3 then 4
  else match s.pow.move with
    | some m => if m.target > s.pow.ladder && roundNo s ≥ m.atRound && !m.protective then m.target else s.pow.ladder
    | none => s.pow.ladder

/-- The target of C (R391). -/
def ceilTarget (s : State) : Nat := min (effModule s * 2600000) (min (ladderLimit (limitState s)) (2600 * watt))

/-- The slope limits of a Round, the larger of the set values and MOD_RATE while an entry moves C (R395). -/
def slopeUp (s : State) : Nat := max s.bank.regs.rampUp s.pow.moveRate * 1024
def slopeDown (s : State) : Nat := max s.bank.regs.rampDown s.pow.moveRate * 1024

/-- C is changed at once (R391): the band is opened for this Round (R395). -/
def jumpCeil (c : Nat) (s : State) : State :=
  let l : Int := min ((s.pow.pinW * watt : Nat) : Int) (c : Int)
  { s with pow := { s.pow with ceil := c, jumped := true, level := l, lo := 0, hi := c } }

/-- A protective change moves C down at once; one faster than RAMP_DOWN is reported with C before and after (R391, R406). -/
def protectCeil (cause : Nat) (s : State) : State :=
  let c := min s.pow.ceil (ceilTarget s)
  let old := s.pow.ceil
  let s := if c < old then jumpCeil c s else s
  if old - c > s.bank.regs.rampDown * 1024 then report 0x0311 cause (leBytes 2 (old / watt) ++ leBytes 2 (c / watt)) s else s

/-- The cause of a protective change, as in the cap letter (R398). -/
def protectCause (s : State) : Nat := if s.pow.coolant ≠ 0 then 3 else if s.pow.droop52 then 2 else 0

/-- C moves one Round toward its target (R391). -/
def moveCeil (s : State) : State :=
  let t := ceilTarget s
  let c := s.pow.ceil
  let up := if s.pow.moveRate > 0 then s.pow.moveRate else s.bank.regs.rampUp
  let down := if s.pow.moveRate > 0 then s.pow.moveRate else s.bank.regs.rampDown
  let c' := if c < t then min t (c + up * 1024) else max t (c - down * 1024)
  { s with pow := { s.pow with ceil := c', moveRate := if c' = t then 0 else s.pow.moveRate } }

/-- The governor's band for the Round that begins, from the average of the Round just ended (R395). -/
def band (avgW : Nat) (s : State) : State :=
  let p : Int := (avgW * watt : Nat)
  let u : Int := slopeUp s
  let d : Int := slopeDown s
  let l := max (s.pow.level - d) (min (s.pow.level + u) p)
  let c : Int := s.pow.ceil
  let s := { s with pow := { s.pow with pinW := avgW } }
  if s.pow.jumped || s.tray.pull > 0 || roundNo s < s.pow.stepWindowEnd then { s with pow := { s.pow with level := min p c, lo := 0, hi := c } }
  else { s with pow := { s.pow with level := l, lo := l - d, hi := min c (l + u) } }

/-- Fill that the presses and the tiles can add, W (R397). -/
def fillAvailable (s : State) : Nat :=
  45 * ((List.range 8).filter fun o => (officeOf s o).jobs.isEmpty && (officeOf s o).running.isNone).length +
  40 * ((List.range 16).filter fun t => s.lanes.any fun x => x.1 / 64 = t && x.2.lit).length

/-- The load smoother for the Round that begins (R397). -/
def smoother (predictedW : Nat) (s : State) : State :=
  let on := s.pow.ladder = 0 && s.bank.regs.smoothEn && !s.ident.skeleton
  let lo := (s.pow.lo.toNat + watt - 1) / watt
  let top := min s.pow.hi.toNat s.pow.ceil / watt
  if !on || predictedW ≥ lo then { s with pow := { s.pow with fillW := 0, smooth := false } }
  else
    let avail := fillAvailable s
    let fill := min (lo - predictedW) (min avail (top - predictedW))
    let s := pcntSel 8 (bit (decide (fill > 0))) (fun _ => true) { s with pow := { s.pow with fillW := fill, smooth := decide (fill > 0) } }
    let recent := match s.pow.shortRound with | some r => decide (roundNo s < r + 1024) | none => false
    if lo > predictedW + avail && !recent then
      report 0x0313 0 (leBytes 2 lo ++ leBytes 2 predictedW ++ leBytes 2 fill) { s with pow := { s.pow with shortRound := some (roundNo s) } }
    else s

/-- The draw has been 26 W above C with every lever at its limit since this Round (R393). -/
def noteOver (s : State) : State :=
  let overW := s.pow.pinW * watt > s.pow.ceil + 26 * watt && s.pow.fillW = 0 && s.pow.duty = 15 && s.pow.suppress = 12
  { s with pow := { s.pow with
      overSince := if overW then (match s.pow.overSince with | some r => some r | none => some (roundNo s)) else none,
      unmet := s.pow.unmet && overW } }

/-- Item 3 of R50, first: the PROTECT term, lowered at once with C (R391, R405). -/
def protectBoundary (avgW : Nat) (s : State) : State :=
  let p := protectDue s
  let lowered := decide (p < s.pow.protect)
  let s := { s with pow := { s.pow with protect := p, protRound := if lowered then some (roundNo s) else s.pow.protRound, pinW := avgW },
                    sens := { s.sens with vinRead := s.sens.vinMv / 10 } }
  if lowered then protectCeil (protectCause s) s else s

/-- After the caps and entries of the boundary: C moves toward its target unless it was changed at once, and the band and the smoother's fill are
computed for the Round that begins (R391, R395, R397). -/
def governorBoundary (avgW predictedW : Nat) (s : State) : State :=
  noteOver (smoother predictedW (band avgW (if s.pow.jumped then s else moveCeil s)))

/-! ### Throttling (R392, R393) -/

/-- GOVERNOR_ADJUST (R392): every 64 cycles the draw is compared with hi. -/
def governorAdjust (drawW : Nat) (s : State) : State :=
  let d : Int := (drawW * watt : Nat)
  if d > s.pow.hi then
    let s := { s with pow := { s.pow with belowSince := none } }
    if s.pow.fillW > 0 then { s with pow := { s.pow with fillW := 0, smooth := false } }
    else if s.pow.duty < 15 then { s with pow := { s.pow with duty := s.pow.duty + 1 } }
    else if s.pow.suppress < 12 then { s with pow := { s.pow with suppress := s.pow.suppress + 1 } }
    else s
  else if d + 26 * (watt : Nat) ≤ s.pow.hi then
    match s.pow.belowSince with
    | none => { s with pow := { s.pow with belowSince := some s.mer.ns } }
    | some t =>
      if s.mer.ns < t + 1024 then s
      else
        let s := { s with pow := { s.pow with belowSince := some s.mer.ns } }
        if s.pow.suppress > 0 then { s with pow := { s.pow with suppress := s.pow.suppress - 1 } }
        else if s.pow.duty > 0 then { s with pow := { s.pow with duty := s.pow.duty - 1 } }
        else s
  else { s with pow := { s.pow with belowSince := none } }

def execGovernorAdjust (drawW : Nat) (s : State) : Host.Outcome State Fault Refusal := .next (governorAdjust drawW s)

/-- CAP_UNMET (R393): 16 Rounds of it, alerted once. -/
def execCapUnmet (s : State) : Host.Outcome State Fault Refusal :=
  match s.pow.overSince with
  | some r =>
    if roundNo s ≥ r + 16 && !s.pow.unmet then
      .next (alert 0x0124 0 (leBytes 2 (s.pow.ceil / watt) ++ leBytes 2 s.pow.pinW) { s with pow := { s.pow with unmet := true } })
    else .next s
  | none => .next s

/-! ### Cap letters (R398–R400) -/

/-- The 32 payload bytes of a cap letter (R398). -/
def capLetterBytes (seq permille cause : Nat) (protective : Bool) (rate effect epoch : Nat) : List Byte :=
  leBytes 2 seq ++ leBytes 2 permille ++ leBytes 1 (cause + 16 * bit protective) ++ leBytes 1 rate ++ zeros 2 ++ leBytes 8 effect ++ leBytes 4 epoch ++ zeros 12

/-- The cap that accelerator i is to be told now: a protective term counts from its detection on (R405). -/
def capToTell (s : State) (i : Nat) : Nat := effAccWith s i s.pow.rampAcc (min s.pow.protect (protectDue s))

/-- Whether the cap to be told comes from the PROTECT term or the freeze, and its cause (R398). -/
def capCause (s : State) (i : Nat) : Bool × Nat :=
  let v := capToTell s i
  let prot := min s.pow.protect (protectDue s)
  if s.pow.frozen && v = 400 && prot > 400 then (true, 4)
  else if prot < 1000 && v = prot then (true, if s.pow.coolant ≠ 0 || prot = 400 then 3 else 2)
  else if s.pow.rampAcc < 1000 && v = s.pow.rampAcc then (false, 1)
  else (false, 0)

/-- A cap letter leaves on port A-s (R398). -/
def sendCapLetter (i : Nat) (payload : List Byte) (s : State) : State :=
  let slot := homeBase s + i
  cnt1 16 (sendOnPort slot { blankHeader with dest := rackOf (srcRef s) * 4096 + slot * 32, cls := 5, vc := 7, groupOp := 0x0600 } 0 payload s)

/-- The letter held is sent again (R400). -/
def resendCap (i : Nat) (s : State) : State := sendCapLetter i (accOf s i).letter (modAcc s i fun a => { a with sentRound := roundNo s })

/-- A letter with new content: CAP_SEQ + 1, unless it would lie 32,768 or more beyond the last one acknowledged (R399). -/
def newCap (i permille cause : Nat) (protective : Bool) (rate effect : Nat) (f : AccCap → AccCap) (s : State) : State :=
  let a := accOf s i
  let seq := (a.capSeq + 1) % 65536
  if (seq + 65536 - a.ackedSeq) % 65536 ≥ 32768 then resendCap i s
  else
    let l := capLetterBytes seq permille cause protective rate effect s.pm.epoch
    sendCapLetter i l (modAcc s i fun a => f { a with
      capSeq := seq, letter := l, acked := false, resends := 0, sentRound := roundNo s, refreshRound := roundNo s, due := false })

/-- The schedule entry that is to be announced to the accelerators: within 64 Rounds of its Round, and not announced (R398). -/
def entryToAnnounce (s : State) (i : Nat) : Option RampEntry :=
  s.pow.sched.find? fun e => e.accPermille ≠ 0xFFFF && e.atRound ≤ roundNo s + 64 && (accOf s i).announced < e.atRound

/-- The lead sends cap letters (R398); the standby sends none. -/
def sendsCaps (s : State) : Bool := s.pm.role ≠ .standby && decide (s.pow.ladder ≤ 1)

/-- CAP_LETTER_SEND (R398). -/
def capLetter (i : Nat) (s : State) : State :=
  if !sendsCaps s || i > 15 || !admitted s (homeBase s + i) then s
  else
    let v := capToTell s i
    let a := accOf s i
    if a.due || a.known ≠ v then
      let (prot, cause) := capCause s i
      newCap i v cause prot (if prot then 0 else s.bank.regs.accRamp) 0 (fun a => { a with known := v }) s
    else match entryToAnnounce s i with
      | some e =>
        let told := effAccWith s i e.accPermille s.pow.protect
        newCap i told 1 false e.accRate e.atRound (fun a => { a with announced := e.atRound, pendingCap := told }) s
      | none => s

def execCapLetterSend (i : Nat) (s : State) : Host.Outcome State Fault Refusal := .next (capLetter i s)

/-- CAP_ACK_TIMEOUT (R400): three resends, then the alert, and from then on one every 1,024 Rounds. -/
def capAckTimeout (i : Nat) (s : State) : State :=
  let a := accOf s i
  if !sendsCaps s || a.acked || a.letter.isEmpty || roundNo s < a.sentRound + (if a.resends ≥ 3 && a.unacked then 1024 else s.bank.regs.capAckTimeout) then s
  else if a.resends < 3 then resendCap i (modAcc s i fun a => { a with resends := a.resends + 1 })
  else if !a.unacked then
    alert 0x0123 (homeBase s + i) (leBytes 2 a.capSeq) (modAcc s i fun a => { a with unacked := true, sentRound := roundNo s })
  else resendCap i s

def execCapAckTimeout (i : Nat) (s : State) : Host.Outcome State Fault Refusal := .next (capAckTimeout i s)

/-- CAP_REFRESH (R400): every 2¹⁴ Rounds, with CAUSE REFRESH. -/
def execCapRefresh (i : Nat) (s : State) : Host.Outcome State Fault Refusal :=
  let a := accOf s i
  if !sendsCaps s || a.letter.isEmpty || roundNo s < a.refreshRound + 16384 then .next s
  else
    let l := a.letter.take 4 ++ [((a.letter.getD 4 0) &&& 0xF0#8) ||| 5#8] ++ a.letter.drop 5
    .next (resendCap i (modAcc s i fun a => { a with letter := l, refreshRound := roundNo s }))

/-! ### The LADDER block (R411) -/

/-- A field list packed from bit 0 upwards: (value, width). -/
def pack : List (Nat × Nat) → Nat
  | [] => 0
  | (v, w) :: r => v % 2 ^ w + 2 ^ w * pack r

/-- A signed reading as a byte. -/
def byteOf (i : Int) : Nat := toSigned 8 i

/-- The present permille of the accelerators' RAMP term, which moves at ACC_RATE (R399, R404). -/
def accRampNow (s : State) : Nat :=
  if s.pow.accRate = 0 then s.pow.rampAcc
  else
    let d := s.pow.accRate * (roundNo s - s.pow.accStart) * 1024 / 1000000
    if s.pow.accFrom ≤ s.pow.rampAcc then min s.pow.rampAcc (s.pow.accFrom + d) else max s.pow.rampAcc (s.pow.accFrom - d)

/-- A word of the LADDER block; staged fields come from the bank given. -/
def ladderWord (b : Bank) (s : State) (off : Nat) : Nat :=
  let p := s.pow
  let r := b.regs
  if off = 0x00 then
    pack [(p.ladder, 3), (bit p.droop52, 1), (bit (decide (p.coolant ≠ 0)), 1), (bit p.thermal, 1), (bit p.leakBlock, 1), (bit p.frozen, 1), (bit p.smooth, 1),
          (bit (decide (p.duty > 0) || decide (p.suppress > 0)), 1), (bit (decide (roundNo s < p.stepWindowEnd)), 1), (bit (!p.sched.isEmpty), 1)]
  else if off = 0x04 then pack [(effModule s, 16), (p.ceil / watt, 16)]
  else if off = 0x08 then pack [(p.terms.rack, 16), (p.terms.fabric, 16)]
  else if off = 0x0C then pack [(p.terms.host, 16), (p.rampMod, 16)]
  else if off = 0x10 then pack [(p.protect, 16)]
  else if off = 0x14 then pack [(s.sens.vinRead, 16), (s.sens.iin, 16)]
  else if off = 0x18 then pack [(p.pinW, 16), (p.fillW, 16)]
  else if off = 0x1C then pack [(byteOf s.sens.dieWest, 8), (byteOf s.sens.dieEast, 8), (byteOf s.sens.coolT, 8)]
  else if off = 0x20 then pack [(r.rampUp, 12), (r.rampDown, 12), (r.accRamp, 8)]
  else if off = 0x24 then pack [(bit r.smoothEn, 1), (0, 7), (r.capAckTimeout, 8), (r.coolTMax, 8)]
  else if off = 0x28 then pack [(p.duty, 4), (p.suppress, 4)]
  else if 0x40 ≤ off && off < 0xC0 then
    let i := (off - 0x40) / 8
    let a := accOf s i
    if off % 8 = 0 then pack [(effAcc s i, 16), (a.drawW, 16)] else pack [(a.capSeq, 16), (bit a.acked, 1), (bit a.unacked, 1)]
  else 0

/-- The words of the LADDER block in a range of offsets, as bytes. -/
def ladderBytes (s : State) (first n : Nat) : List Byte := (List.range n).flatMap fun i => leBytes 4 (ladderWord s.bank s (first + 4 * i))

/-- POWER_READ (R409). -/
def execPowerRead (c : Ctx) (s : State) : Host.Outcome State Fault Refusal := .next (gmiRun c 0x605 (fun s => okWith (ladderBytes s 0 48) 0 s) s)

/-- CAP_READ in mode 0, or in a mode that there is not (R400). -/
def execCapRead (c : Ctx) (s : State) (badMode : Bool := false) : Host.Outcome State Fault Refusal :=
  .next (gmiRun c 0x601 (fun s => if badMode then badArg 0 s else okWith (ladderBytes s 4 4 ++ ladderBytes s 0x40 32) 0 s) s)

/-- CAP_READ in mode 1 (R400): an acknowledgement from a home slot's AP box. -/
def capAckAns (c : Ctx) (ackSeq ackEpoch drawW : Nat) (s : State) : Ans :=
  match c.box with
  | .ap slot =>
    if slot < homeBase s || slot ≥ homeBase s + 16 then badArg 0 s
    else
      let i := slot - homeBase s
      let s := modAcc s i fun a =>
        let hit := decide (ackSeq = a.capSeq) && decide (ackEpoch = s.pm.epoch)
        let sent := decide ((ackSeq + 65536 - a.ackedSeq) % 65536 ≤ (a.capSeq + 65536 - a.ackedSeq) % 65536) && decide (ackEpoch = s.pm.epoch)
        { a with acked := a.acked || hit, ackedSeq := if sent then ackSeq % 65536 else a.ackedSeq, unacked := a.unacked && !hit, drawW := drawW }
      okWith (fit 32 (accOf s i).letter) 0 s
  | _ => badArg 0 s

def execCapReadAck (c : Ctx) (ackSeq ackEpoch drawW : Nat) (s : State) : Host.Outcome State Fault Refusal :=
  .next (gmiRun c 0x601 (capAckAns c ackSeq ackEpoch drawW) s)

/-! ### Ramp schedules (R401–R404) -/

/-- The first entry that fails its checks (R401, R402). -/
def rampBad (s : State) : Nat → Nat → List RampEntry → Option Nat
  | _, _, [] => none
  | k, last, e :: r =>
    let ok := decide (e.atRound > last) && (k ≠ 0 || decide (e.atRound ≥ roundNo s + 2)) &&
      (e.modPermille = 0xFFFF || (decide (100 ≤ e.modPermille) && decide (e.modPermille ≤ 1000))) &&
      (e.accPermille = 0xFFFF || (decide (100 ≤ e.accPermille) && decide (e.accPermille ≤ 1000))) && decide (e.modRate ≤ 2600)
    if ok then rampBad s (k + 1) e.atRound r else some k

/-- RAMP_POST (R315, R402), DETAIL being the byte offset of SCHED_ID or COUNT, or the number of the failing entry: it replaces the schedule held from its first AT_ROUND onward. -/
def rampPostAns (schedId : Nat) (entries : List RampEntry) (s : State) : Ans :=
  if s.pm.standing then refuse .notReady s
  else if schedId = 0xFFFFFFFF then badArg 0 s
  else if entries.isEmpty || entries.length > 64 then badArg 4 s
  else match rampBad s 0 0 entries with
    | some k => badArg k s
    | none =>
      if !s.mer.timed then refuse .notReady s
      else
        let first := (entries.map (·.atRound)).headD 0
        let kept := s.pow.sched.filter fun e => e.atRound < first
        okAns { s with pow := { s.pow with schedId := schedId, sched := kept ++ entries, schedIndex := 0 } }

def execRampPost (c : Ctx) (schedId : Nat) (entries : List RampEntry) (s : State) : Host.Outcome State Fault Refusal :=
  .next (gmiRun c 0x602 (rampPostAns schedId entries) s)

/-- RAMP_CANCEL (R404): entries not yet due are dropped, and a moving term holds its present value. -/
def rampCancelAns (schedId : Nat) (s : State) : Ans :=
  if (s.pow.sched.isEmpty && !s.pow.schedMoving) || (schedId ≠ 0xFFFFFFFF && schedId ≠ s.pow.schedId) then badArg 0 s
  else
    let held := if s.pow.moveRate > 0 then min 1000 (s.pow.ceil / 2600000) else s.pow.rampMod
    okAns { s with pow := { s.pow with
      sched := [], schedMoving := false, rampMod := held, moveRate := 0, rampAcc := accRampNow s, accRate := 0 } }

def execRampCancel (c : Ctx) (schedId : Nat) (s : State) : Host.Outcome State Fault Refusal := .next (gmiRun c 0x603 (rampCancelAns schedId) s)

/-- An accelerator still holds the letter of the entry of a Round, to be applied then: no newer letter has replaced it (R398, R399). -/
def AccCap.pends (a : AccCap) (r : Nat) : Bool := a.announced = r && fieldAt a.letter 8 8 = r

/-- An entry sets its RAMP terms and C moves at its rate, at once for MOD_RATE 0 with a step window of 64 Rounds (R391, R395, R403). -/
def rampEntry (e : RampEntry) (s : State) : State :=
  let s := logTimed 0x0602 s
  let now := accRampNow s
  let acc := e.accPermille ≠ 0xFFFF
  let s := { s with pow := { s.pow with
      rampMod := if e.modPermille = 0xFFFF then s.pow.rampMod else e.modPermille, accFrom := if acc then now else s.pow.accFrom,
      rampAcc := if acc then e.accPermille else s.pow.rampAcc, accRate := if acc then e.accRate else s.pow.accRate,
      accStart := if acc then roundNo s else s.pow.accStart, schedMoving := true,
      moveRate := if e.modPermille = 0xFFFF then s.pow.moveRate else e.modRate } }
  let s := (List.range 16).foldl (fun s i => modAcc s i fun a => if acc && a.pends e.atRound then { a with known := a.pendingCap } else a) s
  let s := if e.modPermille ≠ 0xFFFF && e.modRate = 0 then
      jumpCeil (ceilTarget s) { s with pow := { s.pow with stepWindowEnd := roundNo s + 64 } }
    else s
  if s.pow.protRound = some (roundNo s) then report 0x0312 s.pow.schedId (leBytes 1 s.pow.schedIndex) s else s

/-- RAMP_ENTRY_DUE (R403). -/
def rampDue (s : State) : State :=
  match s.pow.sched with
  | [] => s
  | e :: r =>
    if e.atRound > roundNo s then s
    else
      let s := rampEntry e { s with pow := { s.pow with sched := r } }
      { s with pow := { s.pow with schedIndex := s.pow.schedIndex + 1 } }

def execRampEntryDue (s : State) : Host.Outcome State Fault Refusal := .next (rampDue s)

/-- RAMP_MOVEMENT_END (R403): the last entry's movement has finished. -/
def execRampMovementEnd (s : State) : Host.Outcome State Fault Refusal :=
  if s.pow.sched.isEmpty && s.pow.schedMoving && s.pow.ceil = ceilTarget s && accRampNow s = s.pow.rampAcc then
    .next (report 0x0314 s.pow.schedId [] { s with pow := { s.pow with schedMoving := false, accRate := 0 } })
  else .next s

/-! ### Ladder changes (R386–R389, R408) -/

/-- The lowest open group with a step in progress (R388). -/
def groupInProgress (s : State) : Option Nat :=
  minNat? (((s.groups.filter fun x => x.2.launched && x.2.progress && x.2.state ≠ .free).map fun x => groupNumber x.2))

/-- LEAVING_SEND (R306, R387, R408): ROLL with LEAVING on every admitted link, at once for a protective entry, else once C has reached the
limit of the state to be entered. -/
def leavingSend (s : State) : State :=
  match s.pow.move with
  | none => s
  | some m =>
    if m.target ≤ s.pow.ladder || m.leavingRound.isSome || !(m.protective || (roundNo s ≥ m.atRound && s.pow.ceil ≤ ladderLimit m.target)) then s
    else
      -- in ST2 and lower no ROLL flit is sent (R302)
      let s := if s.pow.ladder ≤ 1 then (admittedPorts s).foldl (fun s p => modTx s p fun t => { t with rollDue := true, leaving := true }) s else s
      { s with pow := { s.pow with move := some { m with leavingRound := some (roundNo s) } } }

/-- A protective condition asks for a lower state (R405): the lowest asked for applies, and LEAVING goes out at once, so that the entry is at the
second boundary after detection. -/
def protMove (target : Nat) (s : State) : State :=
  if s.pow.ladder ≥ target then s
  else
    let m : LadderMove := { target := target, atRound := roundNo s, leavingRound := none, protective := true }
    match s.pow.move with
    | some x => if x.target ≥ target && x.target > s.pow.ladder then leavingSend { s with pow := { s.pow with move := some { x with protective := true } } }
      else leavingSend { s with pow := { s.pow with move := some m } }
    | none => leavingSend { s with pow := { s.pow with move := some m } }

def execLeavingSend (s : State) : Host.Outcome State Fault Refusal := .next (leavingSend s)

/-- A step in progress ends with no results and no notice (R388, R439); the STEP_MARKs that it still owes leave first (R262). -/
def endStepSilently (e : Nat) (s : State) : State :=
  let g := groupOf s e
  if !(g.launched && g.progress) then s
  else cnt1 (idGroup 6 e) (modGroup (dropBundles (groupNumber g) (if g.endDue then s else sendOwed e .incomplete 7 s)) e fun g => { g with
    launched := false, progress := false, level := 0, endDue := false, inRackDone := false })

/-- Groups that are open and committed. -/
def liveGroups (s : State) : List Nat := (s.groups.filter fun x => x.2.state = .running || x.2.state = .closing).map (·.1)

/-- Steps in progress end, and every member of every open group receives OFFICE_CLOSING with NOT_READY (R388, R439). -/
def closeOffices (s : State) : State := (liveGroups s).foldl (fun s e => noticeAll e 1 .notReady 7 (endStepSilently e s)) s

/-- Close memory at a ladder entry (R286): what was accepted is completed, at protection class (R283); self-refresh in ST2 and ST3; in ST4 its contents are lost and the ring restarts empty. -/
def sleepMemory (t : Nat) (s : State) : State :=
  let f := fun (m : MemHalf) => if t ≥ 4 then { m with state := 3, claims := [], mem := [], waiting := [] } else { m with state := 2, claims := [], waiting := [] }
  let s := if t ≥ 2 then modMem (modMem s 0 f) 1 f else s
  if t < 4 then s
  else
    let cut := fun (x : Stream) => { x with held := x.held.filter fun y => !y.spilled, aside := x.aside.filter fun y => !y.spilled }
    let cutAll := fun (r : Reorder) => { r with streams := r.streams.map fun x => (x.1, cut x.2) }
    let s := modReorder (modReorder s 0 cutAll) 1 cutAll
    if (ringTier s).isNone then restartRing s else s

/-- Lanes at a ladder entry (R71): in ST2 the modulator drive is off, the ring heaters hold and adaptation is frozen; in ST3 transmit and receive
are off, with heater codes and coefficients saved in the tile; in ST4 everything the lane learned is lost. -/
def sleepLanes (t : Nat) (s : State) : State :=
  if t < 2 then s
  else
    let f := fun (x : Lane) =>
      if t = 2 then { x with fzLadder := true, lit := false, txPwr := -32768, cdrLock := false, line := [] }
      else if t = 3 then { x with fzLadder := true, lit := false, txPwr := -32768, cdrLock := false, ringLock := false, adaptOn := false, saved := x.saved || x.ringLock, line := [] }
      else { x with fzLadder := true, saved := false, line := [], txPwr := -32768, cdrLock := false, ringLock := false, lit := false, adaptOn := false, heater := 0, ctle := 0x10, dfe := [], ffe := [], snr := 0 }
    (s.lanes.map (·.1)).foldl (fun s g => modLane s g f) s

/-- Time at a ladder entry (R35, R44, R45, R47): from ST2 on the module is out of service for time and no time lead; in ST3 and ST4 the keeper
counts, in crystal steps scaled by the ratio that monitor 0 last measured. A grandmaster that leaves ST0–ST2 is in KEEPER as one that enters it
from HOLDOVER, with 1 s of timed service, and an election under way ends without it (notes/assumptions/118.md). -/
def keepTime (t : Nat) (s : State) : State :=
  let s := if t ≥ 2 then { s with mer := { s.mer with rackTime := false } } else s
  if t < 3 || s.mer.state = .keeper then s
  else
    let m := s.mer
    { s with mer := { m with
      state := .keeper, keeperRuns := true, lockRun := 0, keeperScale := crystalRatio s,
      holdoverEnd := if m.state = .master then some (m.ns + 1000000000) else m.holdoverEnd,
      electionSince := none, announcing := false, best := none, lostGm := none } }

/-- Lanes at an exit to ST0 or ST1 (R71): from ST2 clock recovery relocks; from ST3 the rings relock from their saved codes, the coefficients are
restored, and the link trains fast (R104). -/
def wakeLanes (s : State) : State :=
  (s.lanes.map (·.1)).foldl (fun s g =>
    let x := laneOf s g
    let s := modLane s g fun x => { x with
      fzLadder := false, ringLock := x.ringLock || x.saved, lit := (x.ringLock || x.saved) && !x.blank, cdrLock := !x.los, saved := false }
    if x.saved then modLink s (portOfLane g) fun l => { l with fast := decide (l.disc = .dark) } else s) s

/-- Ring heaters at an exit from ST3 or ST4 to ST2 (R71, R386): the rings relock from their saved codes; the drive stays off. -/
def warmRings (s : State) : State :=
  (s.lanes.map (·.1)).foldl (fun s g => modLane s g fun x => { x with ringLock := x.ringLock || x.saved }) s

/-- The laser units' ENABLE, their launch powers and dynamic addresses being set with it (R462, R463). -/
def laserUnits (on : Bool) (s : State) : State :=
  [0, 1, 2, 3].foldl (fun s u => modUnit s u fun x => { x with enable := if on then 0xFF else 0, powerSet := on || x.powerSet, addr := if on then 0x10 + u else x.addr }) s

/-- A lead that parks in ST2 or lower becomes standby there: its standby, in ST0 or ST1 as its last roll record on a peer link says, takes over
(R312). -/
def parkLead (t : Nat) (s : State) : State :=
  let takesOver := match s.pm.partnerRoll with | some r => decide (r.ladder ≤ 1) | none => false
  if t ≥ 2 && s.pow.ladder ≤ 1 && s.pm.role = .lead && takesOver then { s with pm := { s.pm with role := .standby, healthDue := true } } else s

/-- A module that returns from a state below ST2 starts as standby when its partner's roll record shows LEAD (R313). -/
def returnAsStandby (s : State) : State :=
  match s.pm.partnerLast with
  | some r => if r.lead then { s with pm := { s.pm with role := .standby, healthDue := true } } else s
  | none => s

/-- The notices of a ladder entry leave while the module still sends flits (R388). -/
def flushNotices (s : State) : State := if s.pow.ladder ≤ 1 then (admittedPorts s).foldl (fun s p => flushVc5 p 64 s) s else s

/-- Entry to a ladder state below the present one, in item 3 of the boundary or at once in a thermal trip (R71, R74, R238, R286, R386–R388). -/
def enterLadder (t : Nat) (protective : Bool) (s : State) : State :=
  let old := s.pow.ladder
  let s := closeOffices s
  let s := flushNotices (if t ≥ 3 then (liveGroups s).foldl (fun s e => closeGroup e .notReady s) s else s)
  let s := if t ≥ 2 then endLaneClaims .notReady s else s
  let s := sleepLanes t (sleepMemory t s)
  let s := parkLead t (keepTime t s)
  let s := if t ≥ 3 then loseOffices s else s
  -- with its receivers off a link has lost every lane (R71, R105)
  let s := if t ≥ 3 then (s.links.map (·.1)).foldl (fun s p => linkToDark p s) s else s
  let s := if t ≥ 4 then laserUnits false (cxlDown s) else s
  let s := { s with cxl := { s.cxl with training := s.cxl.training && decide (t < 4), l1 := decide (t = 3) }, pow := { s.pow with ladder := t, move := none } }
  let s := if protective then protectCeil (protectCause s) s else s
  let s := if s.pow.stopping then assertFault s else s
  report 0x0310 t (leBytes 1 old ++ leBytes 1 (bit protective)) s

/-- LADDER_ENTRY (R387, R405, R408): at least 1 Round after LEAVING has left, which is the second boundary after a protective detection. -/
def ladderEntry (s : State) : State :=
  match s.pow.move with
  | none => s
  | some m =>
    match m.leavingRound with
    | none => s
    | some r => if m.target > s.pow.ladder && roundNo s ≥ r + 2 then enterLadder m.target m.protective s else s

def execLadderEntry (s : State) : Host.Outcome State Fault Refusal := .next (ladderEntry s)

/-- What comes back at an exit to a higher state (R71, R238, R286, R296, R305, R463). -/
def exitLadder (t : Nat) (s : State) : State :=
  let old := s.pow.ladder
  let wake := fun (m : MemHalf) => { m with state := if t ≤ 1 then 1 else 2 }
  let s := if (t ≤ 1 && old ≥ 2) || (t < 4 && old = 4) then modMem (modMem s 0 wake) 1 wake else s
  let s := if t ≤ 1 && old ≥ 2 then
      let s := wakeLanes s
      (admittedPorts s).foldl (fun s p => modLink s p fun l => { l with rollRound := some (roundNo s - 1), silent := false }) s
    else if old ≥ 3 then warmRings s
    else s
  let s := if t ≤ 2 && old ≥ 3 then returnAsStandby (reloadOffices s) else s
  let s := if t ≤ 1 && s.mer.state = .master then { s with mer := { s.mer with rackTime := true } } else s
  let s := if old = 4 then
      let s := laserUnits true s
      { s with cxl := { s.cxl with training := !cxlInReset s }, pm := { s.pm with aliveRound := roundNo s } }
    else s
  let s := { s with
    cxl := { s.cxl with l1 := decide (t = 3) },
    -- an orderly stop that began with PWR_EN ends here, and FAULT_N with it (R451)
    ident := { s.ident with fault := if s.pow.stopByEn then s.ident.skeleton || s.clk.halt || decide (s.ident.boot ≠ 2) else s.ident.fault },
    pow := { s.pow with
      ladder := t, move := none, leakHold := s.pow.leakHold && decide (t ≥ 2), tripped := false, stopping := false, stopByEn := false } }
  captureMoves (report 0x0310 t (leBytes 1 old ++ [0]) s)

/-- A condition in force allows no state so high (R405, R406, R451; notes/assumptions/159.md). -/
def exitHeld (target : Nat) (s : State) : Bool :=
  (s.pow.droop48 && target < 1) || ((s.pow.leak = 1 || (s.pow.leakHold && s.pow.leak ≠ 0) || s.pow.thermal) && target < 2) ||
  (s.pow.leakBlock && target = 0) || (s.pow.tripped && !(decide (s.sens.dieWest ≤ 95) && decide (s.sens.dieEast ≤ 95))) ||
  (s.pow.stopping && !(s.pow.stopByEn && s.pow.ladder = 4)) || (s.pow.ladder = 4 && !s.tray.pwrEn) || s.tray.pull > 0

/-- LADDER_EXIT (R386, R408): an exit that a condition bars when it is due does not take place (R405; notes/assumptions/160.md). -/
def ladderExit (s : State) : State :=
  match s.pow.move with
  | none => s
  | some m =>
    if m.target ≥ s.pow.ladder || roundNo s < m.atRound then s
    else if exitHeld m.target s then { s with pow := { s.pow with move := none } }
    else exitLadder m.target s

def execLadderExit (s : State) : Host.Outcome State Fault Refusal := .next (ladderExit s)

/-- Why an exit to a state is refused (R405, R406, R451): the condition in force allows no state so high; after a trip only the sideband may ask. -/
def exitBarred (c : Ctx) (target : Nat) (s : State) : Bool := exitHeld target s || (s.pow.tripped && !isSb c.box)

/-- LADDER_SET (R408). -/
def ladderSetAns (c : Ctx) (target atRound : Nat) (s : State) : Ans :=
  if target > 4 then badArg 0 s
  else if atRound ≠ 0 && atRound < roundNo s + 2 then badArg 8 s
  else if target = s.pow.ladder then okAns s
  else if target > s.pow.ladder && (groupInProgress s).isSome then busy 11 ((groupInProgress s).getD 0) s
  else if target < s.pow.ladder && exitBarred c target s then refuse .notReady s
  else if atRound = 0 then
    okAns { s with pow := { s.pow with move := some { target := target, atRound := nextSlotted s, leavingRound := none, protective := false } } }
  else if !s.mer.timed then refuse .notReady s
  else okAns { s with pow := { s.pow with timedLadder := some (target, atRound) } }

def execLadderSet (c : Ctx) (target atRound : Nat) (s : State) : Host.Outcome State Fault Refusal :=
  .next (gmiRun c 0x604 (ladderSetAns c target atRound) s)

/-- TIMED_LADDER_DUE (R47, R389): a LADDER_SET held for its Round begins. -/
def execTimedLadderDue (s : State) : Host.Outcome State Fault Refusal :=
  match s.pow.timedLadder with
  | some (t, r) =>
    if roundNo s < r then .next s
    else
      let s := logTimed 0x0604 { s with pow := { s.pow with timedLadder := none } }
      let barred := match s.pow.move with | some m => m.protective && decide (m.target > t) | none => false
      if t = s.pow.ladder || barred then .next s
      else .next { s with pow := { s.pow with move := some { target := t, atRound := r, leavingRound := none, protective := false } } }
  | none => .next s

/-! ### Protection (R405) -/

/-- A journal summary is to be written if the hold-up check allows it; NO_HOLDUP is logged otherwise (R405, R467). -/
def journalDue (cause : Nat) (s : State) : State :=
  if holdupOk s 8192 then { s with tray := { s.tray with journalPending := s.tray.journalPending ++ [(cause, roundNo s, s.pow.ladder)] } }
  else reportSt 0x0341 cause .noHoldup [] s

/-- VIN_60 measured below 52 V: PROTECT 500 at the next boundary. -/
def droop52 (mv : Nat) (s : State) : State :=
  let was := s.pow.droop52
  let s := { s with sens := { s.sens with vinMv := mv }, pow := { s.pow with droop52 := true, droopRound := roundNo s } }
  if was then s else alert 0x0120 52 (leBytes 2 (mv / 10)) s

/-- VIN_DROOP_52. -/
def execVinDroop52 (mv : Nat) (s : State) : Host.Outcome State Fault Refusal := if mv < 52000 then .next (droop52 mv s) else .next s

/-- VIN_DROOP_48: ST1 at the second boundary, and a journal summary. -/
def droop48 (mv : Nat) (s : State) : State :=
  let s := droop52 mv s
  if s.pow.droop48 then s
  else protMove 1 (journalDue 1 (alert 0x0120 48 (leBytes 2 (mv / 10)) { s with pow := { s.pow with droop48 := true, priorLadder := s.pow.ladder } }))

def execVinDroop48 (mv : Nat) (s : State) : Host.Outcome State Fault Refusal := if mv < 48000 then .next (droop48 mv s) else .next s

/-- The orderly stop (R405, R451): its start sequence alone ends one for VIN_60 (notes/assumptions/159.md); a journal summary if hold-up allows, then ST4 with FAULT_N asserted. -/
def orderlyStop (s : State) : State := if s.pow.stopping then s else protMove 4 (journalDue 2 { s with pow := { s.pow with stopping := true } })

/-- VIN_DROOP_44. -/
def droop44 (mv : Nat) (s : State) : State :=
  let s := droop48 mv s
  if s.pow.stopping && !s.pow.stopByEn then s
  else
    let s := orderlyStop (alert 0x0120 44 (leBytes 2 (mv / 10)) s)
    { s with pow := { s.pow with stopByEn := false } }

def execVinDroop44 (mv : Nat) (s : State) : Host.Outcome State Fault Refusal := if mv < 44000 then .next (droop44 mv s) else .next s

/-- The module returns to a state when no other condition forbids it (R405). -/
def returnTo (t : Nat) (s : State) : State :=
  let low := max t (max (if s.pow.droop48 then 1 else 0) (if s.pow.thermal || s.pow.leakHold then 2 else 0))
  let low := if s.pow.leakBlock then max low 1 else low
  if low ≥ s.pow.ladder || s.pow.tripped || s.pow.stopping then s
  else { s with pow := { s.pow with move := some { target := low, atRound := roundNo s, leavingRound := none, protective := false } } }

/-- DROOP_RELEASE: VIN_60 has held 53 V; for 1,024 Rounds the PROTECT term ends, for 2²⁰ Rounds the module returns to ST0. -/
def droopRelease (s : State) : State :=
  if !(s.pow.droop52 || s.pow.droop48) || s.pow.stopping || roundNo s < s.pow.droopRound + 1024 then s
  else
    let (f, s) := drawFree s
    let s := { s with sens := { s.sens with vinMv := max s.sens.vinMv (53000 + f % 15000) }, pow := { s.pow with droop52 := false } }
    if s.pow.droop48 && roundNo s ≥ s.pow.droopRound + 2 ^ 20 then returnTo 0 { s with pow := { s.pow with droop48 := false } } else s

def execDroopRelease (s : State) : Host.Outcome State Fault Refusal := .next (droopRelease s)

/-- A coolant fault (R405, R410): PROTECT 400 at the first boundary after detection. -/
def coolantFault (cause : Nat) (s : State) : State :=
  let was := s.pow.coolant.getLsbD cause
  let s := { s with pow := { s.pow with coolant := s.pow.coolant ||| laneBit cause, coolRound := roundNo s } }
  if was then s else alert 0x0121 cause [] s

/-- COOLANT_FAULT: 0 flow, 1 temperature, 2 stuck flow, 3 leak. -/
def execCoolantFault (cause : Nat) (s : State) : Host.Outcome State Fault Refusal := if cause ≤ 3 then .next (coolantFault cause s) else .next s

/-- COOLANT_RELEASE: every cause clear for 2²⁰ Rounds. -/
def execCoolantRelease (s : State) : Host.Outcome State Fault Refusal :=
  if s.pow.coolant ≠ 0 && s.pow.leak ≠ 1 && roundNo s ≥ s.pow.coolRound + 2 ^ 20 then 
    .next { s with pow := { s.pow with coolant := 0 },
                   sens := { s.sens with flowOk := true, coolT := min s.sens.coolT s.bank.regs.coolTMax } }
  else .next s

/-- The sensors of a hemisphere that are still in the vote (R442). -/
def votingSensors (s : State) (h : Nat) : List Nat := [0, 1, 2].filter fun n => !s.sens.stuck.contains (h, n)

/-- The larger of two readings. -/
def maxInt (a b : Int) : Int := if a ≥ b then a else b

/-- The voted die temperature of a hemisphere from its three readings and the power-derived estimate (R442). -/
def votedTemp (s : State) (h : Nat) (readings : List Int) (estimate : Int) : Int :=
  match (votingSensors s h).map fun n => readings.getD n estimate with
  | [a, b, c] => maxInt (min a b) (min (maxInt a b) c)
  | [a, b] => maxInt a b
  | [a] => maxInt a estimate
  | _ => estimate

def noteDie (h : Nat) (t : Int) (s : State) : State :=
  { s with sens := { s.sens with dieWest := if h = 0 then t else s.sens.dieWest, dieEast := if h = 0 then s.sens.dieEast else t } }

/-- THERMAL_ST2: above 105 °C, ST2 at the second boundary after detection. -/
def thermalSt2 (h : Nat) (readings : List Int) (estimate : Int) (s : State) : State :=
  let t := votedTemp s h readings estimate
  let s := noteDie h t s
  if t ≤ 105 then s
  else
    let was := s.pow.thermal
    let s := { s with pow := { s.pow with thermal := true, thermRound := roundNo s, priorLadder := if was then s.pow.priorLadder else s.pow.ladder } }
    protMove 2 (if was then s else alert 0x0122 h (leBytes 1 (byteOf t)) s)

def execThermalSt2 (h : Nat) (readings : List Int) (estimate : Int) (s : State) : Host.Outcome State Fault Refusal :=
  .next (thermalSt2 h readings estimate s)

/-- THERMAL_RELEASE: both hemispheres at or below 95 °C for 2²⁰ Rounds; the module returns to its prior state. -/
def thermalRelease (s : State) : State :=
  if !s.pow.thermal || roundNo s < s.pow.thermRound + 2 ^ 20 then s
  else
    let s := { s with sens := { s.sens with dieWest := min s.sens.dieWest 95, dieEast := min s.sens.dieEast 95 }, pow := { s.pow with thermal := false } }
    returnTo s.pow.priorLadder s

def execThermalRelease (s : State) : Host.Outcome State Fault Refusal := .next (thermalRelease s)

/-- THERMAL_TRIP: above 115 °C the hardware trips to ST4 at no boundary and without LEAVING. -/
def thermalTrip (h : Nat) (readings : List Int) (estimate : Int) (s : State) : State :=
  let t := votedTemp s h readings estimate
  let s := noteDie h t s
  if t ≤ 115 || s.pow.tripped then s
  else
    let s := alert 0x0122 h (leBytes 1 (byteOf t)) { s with pow := { s.pow with tripped := true, timedLadder := none } }
    if s.pow.ladder = 4 then s else enterLadder 4 true s

def execThermalTrip (h : Nat) (readings : List Int) (estimate : Int) (s : State) : Host.Outcome State Fault Refusal :=
  .next (thermalTrip h readings estimate s)

/-! ### Sensors (R442, R443, R459, R460) -/

/-- LEAK_WET (R405, R443): below 1.0 V for 10 ms; ST2 at the second boundary. -/
def leakWet (mv : Nat) (s : State) : State :=
  let s := { s with sens := { s.sens with leakMv := mv } }
  if mv ≥ 1000 then s
  else protMove 2 (coolantFault 3 { s with pow := { s.pow with leak := 1, leakBlock := false, leakHold := true } })

def execLeakWet (mv : Nat) (s : State) : Host.Outcome State Fault Refusal := .next (leakWet mv s)

/-- LEAK_SENSOR_FAULT (R405, R443): above 4.0 V; exit to ST0 is blocked. A wet line that reads so is wet no more, and its coolant cause clears. -/
def leakSensorFault (mv : Nat) (s : State) : State :=
  let s := { s with sens := { s.sens with leakMv := mv } }
  if mv ≤ 4000 || s.pow.leak = 2 then s
  else alert 0x0133 0 (leBytes 2 (mv / 10)) { s with pow := { s.pow with
    leak := 2, leakBlock := true, coolRound := if s.pow.leak = 1 then roundNo s else s.pow.coolRound } }

def execLeakSensorFault (mv : Nat) (s : State) : Host.Outcome State Fault Refusal := .next (leakSensorFault mv s)

/-- LEAK_LINE_DRY (R443): within 1.0–4.0 V. -/
def execLeakLineDry (mv : Nat) (s : State) : Host.Outcome State Fault Refusal :=
  if 1000 ≤ mv && mv ≤ 4000 then
    .next { s with sens := { s.sens with leakMv := mv }, pow := { s.pow with leak := 0, leakBlock := false, coolRound := if s.pow.leak = 1 then roundNo s else s.pow.coolRound } }
  else .next s

/-- FLOW_OK_TEST (R443): every 1 s; FLOW_OK is stuck high when COOL_T has risen 8 °C in 10 s at a power that differs by less than 10 %. -/
def execFlowOkTest (riseC avgW prevAvgW : Nat) (s : State) : Host.Outcome State Fault Refusal :=
  if s.sens.flowOk && riseC ≥ 8 && 10 * (max avgW prevAvgW - min avgW prevAvgW) < prevAvgW then .next (coolantFault 2 s) else .next s

/-- FLOW_OK_DEASSERT (R460): low for 500 µs. -/
def execFlowOkDeassert (s : State) : Host.Outcome State Fault Refusal := .next (coolantFault 0 { s with sens := { s.sens with flowOk := false } })

/-- COOL_T_OUT_OF_RANGE (R405, R460): below −10 °C, above 100 °C, or above COOL_T_MAX. -/
def execCoolTOutOfRange (t : Int) (s : State) : Host.Outcome State Fault Refusal :=
  let s := { s with sens := { s.sens with coolT := t } }
  if t < -10 || t > 100 || t > s.bank.regs.coolTMax then .next (coolantFault 1 s) else .next s

/-- SENSOR_STUCK (R442): more than 10 °C below the estimate for more than 1 s; out of the vote until cold reset. With no sensor left every
sensor is reported. -/
def sensorStuck (h n : Nat) (reading estimate : Int) (s : State) : State :=
  if h > 1 || n > 2 || s.sens.stuck.contains (h, n) || reading ≥ estimate - 10 then s
  else
    alert 0x0132 (3 * h + n) (leBytes 1 (byteOf reading) ++ leBytes 1 (byteOf estimate))
      { s with sens := { s.sens with stuck := s.sens.stuck ++ [(h, n)] } }

def execSensorStuck (h n : Nat) (reading estimate : Int) (s : State) : Host.Outcome State Fault Refusal := .next (sensorStuck h n reading estimate s)

end Sys2Proof.Machine
end

