-- ==== Sys2Proof/Machine/Clock.lean ====
section
/-! DEFINITION. Clock sources, monitors, failover, source selection, reset pins and unit resets (spec/14). Sources are numbered 0 REFCLK,
1 crystal, 2 FBO, 3 CXL_REFCLK; domains 0 core, 1 crystal. -/

namespace Sys2Proof.Machine

/-! ### Verdicts and failover (R371–R377) -/

/-- The source a domain runs from, from the codes of CLK_STATUS. -/
def coreSource (s : State) : Nat := if s.clk.coreSrc = 0 then 0 else if s.clk.coreSrc = 1 then 2 else 1
def xtalSource (s : State) : Nat := if s.clk.xtalSrc = 0 then 1 else if s.clk.xtalSrc = 1 then 2 else 0

/-- CLOCK_HALT (R377): dark, FAULT_N asserted, and the Triad on the uncorrected FBO. -/
def clockHalt (s : State) : State :=
  if s.clk.halt then s
  else assertFault { s with clk := { s.clk with halt := true, xtalSrc := 1 }, ident := { s.ident with dark := true } }

/-- The non-maskable event of a failover (R375 step 3) reaches every channel of the Triad in service as one input (R289). -/
def deliverNmi (i : Nat) (s : State) : State := deliverInput (.nmi i) s

/-- A domain takes a fallback (R375): `code` is its SRC code; the event reaches the Triad, and CLK_FAILOVER names source and fallback. -/
def failover (i code : Nat) (s : State) : State := alert 0x0110 i (leBytes 1 code) (deliverNmi i s)

/-- The core domain's source has failed: the first ready fallback, or CLOCK_HALT (R368, R375, R377). -/
def failCore (i : Nat) (s : State) : State :=
  if coreSource s ≠ i then s
  else if i ≠ 2 && (srcOf s 2).ready then failover i 1 { s with clk := { s.clk with coreSrc := 1 } }
  else if i ≠ 1 && (srcOf s 1).ready then (if i = 2 then s else failover i 2 { s with clk := { s.clk with coreSrc := 2 } })
  else clockHalt { s with clk := { s.clk with holdCore := true } }

/-- The crystal domain's source has failed (R368, R375, R377). -/
def failXtal (i : Nat) (s : State) : State :=
  if xtalSource s ≠ i then s
  else if i ≠ 2 && (srcOf s 2).ready then failover i 1 { s with clk := { s.clk with xtalSrc := 1 } }
  else if i ≠ 0 && (srcOf s 0).ready then (if i = 2 then s else failover i 2 { s with clk := { s.clk with xtalSrc := 2 } })
  else clockHalt { s with clk := { s.clk with holdXtal := true } }

/-- A verdict fails a source (R373–R377): SRC_RDY clears; a domain on it takes its fallback. When the FBO fails nothing switches. -/
def failSource (i : Nat) (s : State) : State :=
  let was := (srcOf s i).failed
  let s := modSrc s i fun x => { x with failed := true, ready := false, good := 0 }
  if was || i > 2 then s
  else
    let s := if i = 2 then alert 0x0111 0 [] s else s
    let s := failXtal i (failCore i s)
    if (srcOf s 0).failed && (srcOf s 1).failed then clockHalt s else s

/-- CLOCK_EDGE_LOSS (R372): a source without edges for 100 ns is failed at once. -/
def edgeLoss (i : Nat) (s : State) : State :=
  if i > 3 then s else failSource i (modSrc s i fun x => { x with lostEdges := true, fresh := true, good := 0, ready := false })

def execClockEdgeLoss (src : Nat) (s : State) : Host.Outcome State Fault Refusal := .next (edgeLoss src s)

/-- A monitor's band (R371). -/
def inBand (k n : Nat) : Bool := if k = 1 || k = 2 then 15200 ≤ n && n ≤ 16800 else 15992 ≤ n && n ≤ 16008

/-- A monitor takes the count of the window that ends. -/
def noteCount (k n : Nat) (s : State) : State :=
  let m := monOf s k
  let ok := inBand k n
  let m' : Mon := { count := n % 65536, fails := if ok then m.fails else min 255 (m.fails + 1), pass := ok }
  { s with clk := { s.clk with mons := tset {} s.clk.mons k m' } }

/-- A source that had lost its edges and whose monitors counted it through this window has them back. -/
def edgesBack (counts : List Nat) (i : Nat) (s : State) : State :=
  let seen := if i = 0 then counts.getD 0 0 + counts.getD 2 0 + counts.getD 3 0
    else if i = 1 then counts.getD 1 0 + counts.getD 4 0
    else if i = 2 then counts.getD 1 0 + counts.getD 2 0
    else counts.getD 3 0 + counts.getD 4 0
  modSrc s i fun x => { x with lostEdges := x.lostEdges && (x.fresh || seen = 0), fresh := false }

/-- The sources that the verdict at the end of a window names (R373): rule 1, then 2, then 3. A crystal that failed to start counts as
without edges (R370). -/
def verdict (s : State) : List Nat :=
  let pass := fun k => (monOf s k).pass
  let lost := [0, 1, 2].filter fun i => (srcOf s i).lostEdges || (i = 1 && s.clk.xtalFailed)
  if !lost.isEmpty then lost
  else if !pass 2 && pass 1 then [0]
  else if !pass 1 && pass 2 then [1]
  else if !pass 1 && !pass 2 && pass 0 then [2]
  else if !pass 0 && !(srcOf s 3).lostEdges && !pass 3 && pass 4 then [0]
  else if !pass 0 && !(srcOf s 3).lostEdges && !pass 4 && pass 3 then [1]
  else []

/-- The state of a source that a verdict does not name: one more good window (R374). The crystal's count from its amplitude OK on (R370). -/
def goodWindow (i : Nat) (s : State) : State :=
  if (srcOf s i).lostEdges || (i = 1 && !s.clk.xtalOk) then s
  else modSrc s i fun x => { x with failed := false, good := min 16 (x.good + 1) }

/-- The sources that fail at the end of a window (R372, R373): one without edges at once; one off frequency where the verdict names it in a second
window in a row (notes/assumptions/145.md). -/
def failsNow (named : List Nat) (s : State) : List Nat :=
  named.filter fun i => (srcOf s i).lostEdges || (i = 1 && s.clk.xtalFailed) || s.clk.suspects.contains i

/-- CLOCK_MONITOR_WINDOW (R371–R375). -/
def monitorWindow (counts : List Nat) (s : State) : State :=
  let s := [0, 1, 2, 3, 4].foldl (fun s k => noteCount k (counts.getD k 0) s) s
  let s := [0, 1, 2, 3].foldl (fun s i => edgesBack counts i s) s
  let named := verdict s
  let doubt := named.isEmpty && !(monOf s 0).pass
  let s := { s with clk := { s.clk with ambiguous := doubt } }
  let s := if doubt then alert 0x0112 0 [] s else s
  let s := ([0, 1, 2, 3].filter fun i => !named.contains i).foldl (fun s i => goodWindow i s) s
  (failsNow named s).foldl (fun s i => failSource i s) { s with clk := { s.clk with suspects := named } }

def execClockMonitorWindow (counts : List Nat) (s : State) : Host.Outcome State Fault Refusal := .next (monitorWindow counts s)

/-! ### Readiness and selection (R370, R374, R378, R379) -/

/-- The transmitters may come up: boot stage 5 has passed and REF_RDY has set (R349, R379), and nothing holds them dark. -/
def lightUp (s : State) : State :=
  if s.ident.boot ≥ 1 && s.clk.coreChosen && !s.clk.halt && !s.trust.halt && !s.clk.refTimeout && !s.clk.posBad && s.tray.pull < 2 && !s.clk.rstLow && !s.clk.pwrReset
  then { s with ident := { s.ident with dark := false } } else s

/-- CLOCK_SRC_READY (R374, R378): 16 good windows set SRC_RDY; a primary source is selected at its first setting after a reset. -/
def srcReady (i : Nat) (s : State) : State :=
  let x := srcOf s i
  if i > 3 || x.ready || x.failed || x.lostEdges || x.good < 16 then s
  else
    let s := modSrc s i fun x => { x with ready := true }
    if i = 0 && !s.clk.coreChosen then lightUp { s with clk := { s.clk with coreSrc := 0, coreChosen := true } }
    else if i = 1 && !s.clk.xtalChosen then { s with clk := { s.clk with xtalSrc := 0, xtalChosen := true } }
    else s

def execClockSrcReady (src : Nat) (s : State) : Host.Outcome State Fault Refusal := .next (srcReady src s)

/-- CRYSTAL_AMPLITUDE_OK (R370). -/
def execCrystalAmplitudeOk (s : State) : Host.Outcome State Fault Refusal :=
  if s.clk.xtalFailed then .next s else .next { s with clk := { s.clk with xtalOk := true } }

/-- CRYSTAL_START_FAIL (R370): not OK within 5 ms of power-up. -/
def execCrystalStartFail (s : State) : Host.Outcome State Fault Refusal :=
  if s.clk.xtalOk || s.clk.xtalFailed then .next s else .next (failSource 1 { s with clk := { s.clk with xtalFailed := true } })

/-- Why a switch of a domain to a source is refused (R378): `other` is the accurate source that corrects the FBO. -/
def selRefused (s : State) (hold : Bool) (src other : Nat) : Bool := !(srcOf s src).ready || hold || (src = 2 && !(srcOf s other).ready)

/-- A CLK_SEL write with CORE_GO (R378). -/
def clkSelCoreAns (target : Nat) (s : State) : Ans :=
  let src := if target = 0 then 0 else if target = 1 then 2 else 1
  if target ≥ 3 then badArg 8 s
  else if target = s.clk.coreSrc then okAns s
  else if selRefused s s.clk.holdCore src 1 then refuse .notReady s
  else okAns (report 0x0301 0 [] { s with clk := { s.clk with coreSrc := target } })

def execClkSelCore (c : Ctx) (target : Nat) (s : State) : Host.Outcome State Fault Refusal := .next (gmiRun c 0x801 (clkSelCoreAns target) s)

/-- A CLK_SEL write with XTAL_DOM_GO (R378). -/
def clkSelXtalAns (target : Nat) (s : State) : Ans :=
  let src := if target = 0 then 1 else if target = 1 then 2 else 0
  if target ≥ 3 then badArg 8 s
  else if target = s.clk.xtalSrc then okAns s
  else if selRefused s s.clk.holdXtal src 0 then refuse .notReady s
  else okAns (report 0x0301 1 [] { s with clk := { s.clk with xtalSrc := target } })

def execClkSelXtalDomain (c : Ctx) (target : Nat) (s : State) : Host.Outcome State Fault Refusal := .next (gmiRun c 0x801 (clkSelXtalAns target) s)

/-- REFCLK_START_TIMEOUT (R379): the module stays in start-up with FAULT_N asserted. -/
def execRefclkStartTimeout (s : State) : Host.Outcome State Fault Refusal :=
  if (srcOf s 0).ready || s.clk.coreChosen || s.ident.boot ≥ 2 then .next s
  else .next (assertFault { s with clk := { s.clk with refTimeout := true }, ident := { s.ident with dark := true } })

/-! ### Resets (R380–R382) -/

/-- The module enters reset (R380): transmitters dark, FAULT_N asserted, roll call stops, GDDR7 in self-refresh. -/
def enterReset (s : State) : State :=
  let s := assertFault { s with ident := { s.ident with dark := true, boot := 0 } }
  [0, 1].foldl (fun s h => modMem s h fun m => { m with state := 2, waiting := [] }) s

/-- PWR_OK_DEASSERT (R380): the internal reset is held. -/
def execPwrOkDeassert (s : State) : Host.Outcome State Fault Refusal :=
  if s.clk.pwrReset then .next s
  else .next (enterReset { s with clk := { s.clk with pwrReset := true }, tray := { s.tray with pwrOk := false } })

/-- A strap that keeps the module in start-up (R24): POS_ID[6:4] not zero, or even parity. -/
def strapBad (p : BitVec 8) : Bool :=
  p.toNat / 16 % 8 ≠ 0 || (sumNat ((List.range 8).map fun i => bit (p.getLsbD i))) % 2 = 0

/-- What no reset touches: the persistent store, the fuses and the pins, and the model's own draw counters and queue (R382). -/
def keptAlways (s : State) : State :=
  let r := State.reset
  { r with
    trust := { r.trust with
      slot0 := s.trust.slot0, slot1 := s.trust.slot1, bootSlot := s.trust.bootSlot, fuses := s.trust.fuses, cells := s.trust.cells, burnDue := s.trust.burnDue,
      copies := s.trust.copies, floorLog := s.trust.floorLog,
      authority := s.trust.authority, anchors := s.trust.anchors, revoked := s.trust.revoked, floorEntries := s.trust.floorEntries, draws := s.trust.draws },
    gmi := { r.gmi with seqFloor := s.gmi.seqFloor, lastSeq := s.gmi.seqFloor },
    tray := { r.tray with
      start := s.tray.start, pwrEn := s.tray.pwrEn, pwrOk := s.tray.pwrOk, switchOpen := s.tray.switchOpen, holdup := s.tray.holdup,
      permitId := s.tray.permitId, permitWait := s.tray.permitWait, jseq := s.tray.jseq, journal := s.tray.journal, bbSeq := s.tray.bbSeq,
      blackbox := s.tray.blackbox, pullWarn := s.tray.pullWarn, deferredEvents := s.tray.deferredEvents },
    cxl := { r.cxl with perst := s.cxl.perst, training := !s.cxl.perst },
    sens := { r.sens with vinMv := s.sens.vinMv, iin := s.sens.iin, dieWest := s.sens.dieWest, dieEast := s.sens.dieEast, coolT := s.sens.coolT,
                          leakMv := s.sens.leakMv, flowOk := s.sens.flowOk },
    draw := s.draw, pending := s.pending }

/-- The lead by default (R24, R309). -/
def defaultRole (p : BitVec 8) : Role := if p.getLsbD 0 then .standby else .lead

/-- A cold reset (R380, R382): everything else at its reset value, POS_ID read again. `cause` is RESET_CAUSE.LAST. After step 3 of R439 it
leads to KEEP (R440, R452). -/
def coldReset (cause : Nat) (pos : BitVec 8) (s : State) : State :=
  let r := keptAlways s
  let gone := decide (s.tray.pull = 3)
  { r with clk := { r.clk with cause := cause, posId := pos, posBad := strapBad pos, pwrReset := gone },
           pm := { r.pm with role := defaultRole pos },
           tray := { r.tray with start := if gone then .keep else r.tray.start, pwrOk := r.tray.pwrOk && !gone } }

/-- The channels through a warm reset: those retired for good stay out, the others boot (R294, R382). -/
def warmChannels (s : State) : Tbl Chan :=
  [0, 1, 2].foldl (fun t c => tset {} t c { inService := !(chanOf s c).forGood, forGood := (chanOf s c).forGood, retires := (chanOf s c).retires }) []

/-- The Dispatcher channels' retirements through a warm reset (R154, R382). -/
def warmDisp (s : State) : Tbl DispCh :=
  [0, 1, 2].foldl (fun t c => tset {} t c { mode := (dispOf s c).mode, retires := (dispOf s c).retires }) []

/-- The GDDR7 of a half through a warm reset: the spill areas below the capture ring are discarded, the ring and the scratch keep their bytes. -/
def warmHalf (s : State) (h : Nat) : MemHalf := { state := 2, mem := (memOf s h).mem.filter fun c => c.1 ≥ ringBase }

/-- Tiles through a warm reset: SWAPS, an ROS field, is kept (R84). -/
def warmTiles (s : State) : Tbl Tile := s.tiles.foldl (fun t x => tset {} t x.1 { swaps := x.2.swaps }) []

/-- A warm reset (R380, R382). CLK_MON.FAILS, a W1C field, takes its reset value by R10, where the table of R382 keeps the monitor state: the
model's choice (notes/assumptions/146.md). The Meridian counter stays with the keeper until REFCLK is ready (R35); the primary sources are selected
again, at once where they are ready (R378). Named counters and the snapshot (R412, R416), the partner's report, the notes and the self-test
counts (R300, R301), and a thermal trip (R405) last until cold reset. -/
def warmReset (s : State) : State :=
  let r := keptAlways s
  let i := s.ident
  let ready0 := (srcOf s 0).ready
  let ready1 := (srcOf s 1).ready
  { r with
    mer := { r.mer with ns := s.mer.ns, frac := s.mer.frac, cycle := s.mer.cycle, state := .keeper, keeperRuns := true,
                        keeperScale := crystalRatio s },
    ident := { r.ident with learned := i.learned, x := i.x, y := i.y, z := i.z, lenX := i.lenX, lenY := i.lenY, lenZ := i.lenZ,
                            dlX := i.dlX, dlY := i.dlY, dlZ := i.dlZ, warmBoot := true },
    tiles := warmTiles s,
    sw := { r.sw with disp := warmDisp s },
    mem := tset {} (tset {} [] 0 (warmHalf s 0)) 1 (warmHalf s 1),
    pm := { r.pm with chans := warmChannels s, restarts := s.pm.restarts, epoch := s.pm.epoch, role := defaultRole s.clk.posId, tests := s.pm.tests,
                      partnerHealth := s.pm.partnerHealth, accNotes := s.pm.accNotes },
    tele := { r.tele with cnt := s.tele.cnt, snap := s.tele.snap, snapPcnt := s.tele.snapPcnt, snapValid := s.tele.snapValid, snapRound := s.tele.snapRound },
    pow := { r.pow with tripped := s.pow.tripped, ladder := if s.pow.tripped then 4 else r.pow.ladder },
    gmi := { r.gmi with managers := s.gmi.managers, log := s.gmi.log, eventSeq := s.gmi.eventSeq },
    trust := { r.trust with halt := s.trust.halt, ledger := s.trust.ledger, log := s.trust.log, logCount := s.trust.logCount, romMismatch := s.trust.romMismatch },
    sens := { r.sens with stuck := s.sens.stuck },
    tray := { r.tray with pull := if s.tray.pull = 3 then 3 else 0 },
    clk := { r.clk with
      srcs := s.clk.srcs, mons := s.clk.mons.map fun x => (x.1, { x.2 with fails := 0 }), xtalOk := s.clk.xtalOk, xtalFailed := s.clk.xtalFailed, ambiguous := s.clk.ambiguous, suspects := s.clk.suspects,
      posId := s.clk.posId, posBad := s.clk.posBad, halt := s.clk.halt, cause := 2, warmCount := min 255 (s.clk.warmCount + 1),
      coreSrc := if ready0 then 0 else 1, coreChosen := ready0, xtalSrc := if ready1 then 0 else 1, xtalChosen := ready1 } }

/-- Still in reset by RST_N, which has made the reset cold (R380): dark, FAULT_N asserted, GDDR7 in self-refresh. -/
def heldCold (s : State) : State := enterReset { s with clk := { s.clk with rstLow := true, rstCold := true } }

/-- RESET_RELEASE (R380): 1 ms after PWR_OK asserts, the power-up cold reset ends, unless RST_N still holds the module. -/
def execResetRelease (posId : BitVec 8) (s : State) : Host.Outcome State Fault Refusal :=
  if s.clk.pwrReset && s.tray.pwrOk && s.tray.start = .running then
    .next (if s.clk.rstLow then heldCold (coldReset 0 posId s) else coldReset 0 posId s)
  else .next s

/-- RST_N_LOW (R380): low for 1 µs. -/
def execRstNLow (s : State) : Host.Outcome State Fault Refusal :=
  if s.clk.rstLow then .next s else .next (enterReset { s with clk := { s.clk with rstLow := true, rstCold := false } })

/-- RST_N_COLD (R380): still low 1 ms after the low began, the reset becomes cold at that moment. Power-up is a cold reset already. -/
def execRstNCold (s : State) : Host.Outcome State Fault Refusal :=
  if !s.clk.rstLow || s.clk.rstCold then .next s
  else if s.clk.pwrReset then .next { s with clk := { s.clk with rstCold := true } }
  else .next (heldCold (coldReset 1 s.clk.posId s))

/-- POS_ID as the straps show it when a cold reset ends (R24, R380). -/
def readStraps (pos : BitVec 8) (s : State) : State :=
  { s with clk := { s.clk with posId := pos, posBad := strapBad pos }, pm := { s.pm with role := defaultRole pos } }

/-- RST_N_RISE (R380): the reset ends, warm or cold; the boot chain follows. -/
def execRstNRise (posId : BitVec 8) (s : State) : Host.Outcome State Fault Refusal :=
  if !s.clk.rstLow then .next s
  else if s.clk.pwrReset then .next { s with clk := { s.clk with rstLow := false, rstCold := false } }
  else if s.clk.rstCold then .next (readStraps posId { s with clk := { s.clk with rstLow := false, rstCold := false } })
  else .next (warmReset s)

/-- TRST_N_ASSERT (R381): the test access port in Test-Logic-Reset, and nothing else. -/
def execTrstNAssert (s : State) : Host.Outcome State Fault Refusal := .next { s with clk := { s.clk with tapReset := true } }

/-! ### Unit resets (R383) -/

/-- The ports of a tile. -/
def tilePorts (t : Nat) : List Nat := (List.range 16).map fun k => if k < 8 then 8 * t + k else 128 + 16 * (k - 8) + t

/-- The first lane of a tile that a claim of R72 holds. -/
def heldLane (s : State) (t : Nat) : Option Nat := ((List.range 64).map (64 * t + ·)).find? fun g => (laneOf s g).claim ≠ .none

/-- RESET_CTL of a tile (R383): lanes, rings and correlators as at ST4 exit, ports in DARK. -/
def resetTileAns (t : Nat) (s : State) : Ans :=
  if t > 15 then badArg 8 s
  else if s.clk.unitReset.isSome then refuse .notReady s
  else match heldLane s t with
    | some g => adcBusy g s
    | none =>
      let s := (tilePorts t).foldl (fun s p => linkToDark p s) s
      let s := ((List.range 64).map (64 * t + ·)).foldl (fun s g => modLane s g fun x => { los := x.los, rxPwr := x.rxPwr, freeze := x.freeze, trainings := x.trainings }) s
      okAns { modTile s t (fun x => { x with corr := [] }) with clk := { s.clk with unitReset := some (1, t) } }

def execResetTile (c : Ctx) (t : Nat) (s : State) : Host.Outcome State Fault Refusal := .next (gmiRun c 0x801 (resetTileAns t) s)

/-- RESET_CTL of a GDDR7 half (R383): trained again with parity written; refused as a whole-half claim (R285). -/
def resetHalfAns (h : Nat) (s : State) : Ans :=
  if h > 1 then badArg 8 s
  else if s.clk.unitReset.isSome then refuse .notReady s
  else match wholeHalf h s with
    | some a => a
    | none =>
      let s := modMem s h fun m => { m with state := 0, mem := [], diagParity := false, waiting := [] }
      let s := if ringTier s = none && s.bank.regs.captureHalf = h then restartRing s else s
      okAns { s with clk := { s.clk with unitReset := some (2, h) } }

def execResetGddr7Half (c : Ctx) (h : Nat) (s : State) : Host.Outcome State Fault Refusal := .next (gmiRun c 0x801 (resetHalfAns h) s)

/-- RESET_CTL of the CXL port (R383): refused to an HB box, which the port serves. -/
def resetCxlAns (c : Ctx) (s : State) : Ans :=
  if isHb c.box then busy 13 (boxNo c.box) s
  else if s.clk.unitReset.isSome then refuse .notReady s
  else
    let s := cxlReset s
    okAns { s with cxl := { s.cxl with unitHeld := true }, clk := { s.clk with unitReset := some (3, 0) } }

def execResetCxlPort (c : Ctx) (s : State) : Host.Outcome State Fault Refusal := .next (gmiRun c 0x801 (resetCxlAns c) s)

/-- RESET_UNIT_DONE (R383): within 2 ms. The CXL port then trains, unless its pin holds it in reset (R381). -/
def execResetUnitDone (s : State) : Host.Outcome State Fault Refusal :=
  let s' := { s with clk := { s.clk with unitReset := none } }
  match s.clk.unitReset with
  | some (2, h) => .next (modMem s' h fun m => { m with state := 1 })
  | some (3, _) => .next { s' with cxl := { s'.cxl with unitHeld := false, training := !s.cxl.perst } }
  | _ => .next s'

/-! ### The clock registers (R384) -/

/-- CLK_STATUS. -/
def clkStatus (s : State) : Nat :=
  bit (srcOf s 0).ready + 2 * bit (srcOf s 1).ready + 4 * bit (srcOf s 2).ready + 8 * bit (srcOf s 3).ready + 16 * s.clk.coreSrc + 64 * s.clk.xtalSrc +
  256 * bit s.clk.holdCore + 512 * bit s.clk.holdXtal + 1024 * bit s.clk.ambiguous + 2048 * bit s.clk.halt

/-- CLK_MON[k]. -/
def clkMon (s : State) (k : Nat) : Nat := (monOf s k).count + 65536 * (monOf s k).fails + 2 ^ 24 * bit (monOf s k).pass

/-- RESET_CAUSE. -/
def resetCause (s : State) : Nat := s.clk.cause + 65536 * s.clk.warmCount

end Sys2Proof.Machine
end

