-- ==== Sys2Proof/Machine/Drain.lean ====
section
/-! DEFINITION. Removals that the staging bank makes and when they are drained (R160, R201, R202, R247). -/

namespace Sys2Proof.Machine

/-! ### Removals (R160, R201, R247) -/

/-- A removal that the staged bank makes (R160, R201, R247). -/
inductive Removal where
  | rack (i : Nat)
  | link (dir link : Nat)
  | plot (n : Nat)
  | slot (out : Nat) (e : SlotEntry)
  | close (group : Nat)
  deriving DecidableEq, Repr

/-- A bit of `new` that `old` lacks. -/
def gains {w : Nat} (old new : BitVec w) : Bool := decide (new &&& ~~~old ≠ 0)

/-- The removals of the staged bank against the committed one. -/
def removals (s : State) : List Removal :=
  let o := s.bank
  let n := s.staging.bank
  let racks := o.rack.filterMap fun x => if x.2.valid && !(rackEntry n x.1).valid then some (Removal.rack x.1) else none
  let links := (n.spray.filter fun x => x.2 = 0 && decide (tget 1 o.spray x.1 > 0)).map fun x => Removal.link (x.1 / 16) (x.1 % 16)
  let plots := o.plot.filterMap fun x =>
    let e := plotEntry n x.1
    if x.2.valid && (!e.valid || gains e.rackMask x.2.rackMask || gains e.slotMask x.2.slotMask) then some (Removal.plot x.1) else none
  let slots := o.slot.filterMap fun x =>
    let e := slotEntry n (x.1 / 200) (x.1 % 200)
    if x.2.valid && !(e.valid && e.source = x.2.source && e.route = x.2.route) then some (Removal.slot (x.1 / 200) x.2) else none
  let tables := if s.staging.holder.isSome then racks ++ links ++ plots ++ slots else []
  tables ++ s.staging.closes.map fun x => Removal.close x.1

/-- A send that is still queued at an output or in progress there. -/
def sendLive (x : Send) : Bool := !sendOver x

/-- Some letter with a live send, or a letter of the module's own that has not left, its offices' route letters among them, satisfies `f`. -/
def anyLetter (s : State) (f : Header → Bool) : Bool :=
  (s.sw.letters.any fun x => f x.2.hdr && x.2.sends.any sendLive) ||
  (s.sw.egress.any fun x => x.2.own.any fun l => f (ownHeader l)) ||
  (s.sw.officeRoutes.any fun x => x.2.2.any fun l => f (ownHeader l))

/-- Nothing has been looked up there for DRAIN_QUIET Rounds (R201). -/
def quiet (s : State) (t : Tbl Nat) (k : Nat) : Bool :=
  match tfind t k with | some r => decide (roundNo s ≥ r + s.bank.regs.drainQuiet) | none => true

/-- A destination that a changed Plot entry removes: its rack, or its slot of this rack. -/
def plotRemoves (s : State) (n dest : Nat) : Bool :=
  let o := plotEntry s.bank n
  let e := plotEntry s.staging.bank n
  let r := rackIndex s (rackOf dest)
  let inOld := o.valid && o.rackMask.getLsbD r && (rackOf dest ≠ ownRack s || o.slotMask.getLsbD (slotOf dest))
  let inNew := e.valid && e.rackMask.getLsbD r && (rackOf dest ≠ ownRack s || e.slotMask.getLsbD (slotOf dest))
  inOld && !inNew

/-- No letter of a Plot to a destination that the change removes has been looked up for DRAIN_QUIET Rounds (R201). -/
def plotQuiet (s : State) (n : Nat) : Bool :=
  s.route.lookedPlot.all fun x => x.1 / 2 ^ 24 ≠ n || !plotRemoves s n (x.1 % 2 ^ 24) || decide (roundNo s ≥ x.2 + s.bank.regs.drainQuiet)

/-- A group that a changed Plot closes: the Plot loses this rack or a slot of MEMBER_MASK (R247). -/
def plotCloses (s : State) (b : Bank) (e : Nat) : Bool :=
  match (groupOf s e).record with
  | none => false
  | some r =>
    let p := plotEntry b r.plot
    !p.valid || !p.rackMask.getLsbD (rackIndex s (ownRack s)) || decide (r.memberMask &&& ~~~p.slotMask ≠ 0)

/-- A removal's drained condition (R160, R201, R247). -/
def drained (s : State) : Removal → Bool
  | .rack i => quiet s s.route.lookedRack i && !anyLetter s fun h => rackOf h.dest = i
  | .link dir link =>
    let p := portOfDir dir link
    !(s.sw.letters.any fun x => x.2.sends.any fun y => y.port = p && sendLive y) && (egressOf s p).staged.isEmpty && (egressOf s p).own.isEmpty &&
    !s.sw.officeRoutes.any fun x => x.1 = p && !x.2.2.isEmpty
  | .plot n =>
    let hosted := (openEntries s).filter fun e => match (groupOf s e).record with | some r => decide (r.plot = n) | none => false
    plotQuiet s n && !(anyLetter s fun h => h.plot = n && plotRemoves s n h.dest) &&
    hosted.all fun e => !((groupOf s e).launched && (groupOf s e).progress) && (!plotCloses s s.staging.bank e || groupDrained s e)
  | .slot out e =>
    !routeQueued s out e.route && (officeQueue s out e.route).isEmpty && !((egressOf s out).staged.any fun x => x.letter.isNone && x.send = e.route) &&
    !(s.sw.letters.any fun x => x.2.sends.any fun y => y.port = out && y.route = some e.route && sendLive y)
  | .close g => match entryOf s g with | some e => groupDrained s e | none => true

/-- PENDING of RTE_DRAIN: removals not yet drained. -/
def pendingRemovals (s : State) : Nat := ((removals s).filter fun r => !drained s r).length

/-- The spray links that the staged bank removes (R201). -/
def removedLinks (s : State) : List (Nat × Nat) :=
  (removals s).filterMap fun r => match r with | .link d k => some (d, k) | _ => none

/-- A boundary (R202): after a COMMIT that found a removal not drained, each removal then staged is DRAINING; one taken out of the staged bank
no longer is. -/
def drainBoundary (s : State) : State :=
  let links := if s.route.drainArmed then removedLinks s else s.route.drainLinks.filter (removedLinks s).contains
  { s with route := { s.route with drainLinks := links, drainArmed := false } }

end Sys2Proof.Machine
end

