-- ==== Sys2Proof/Machine/Registers.lean ====
section
/-! DEFINITION. The register blocks that DIAG_READ, DIAG_WRITE, STAGE_READ and STAGE_REG address (R338, R339), word by word, with the
kind of every bit: read-only, staged, or written by DIAG_WRITE. -/

namespace Sys2Proof.Machine

/-! ### Reading (R55, R84, R117, R171, R204, R239, R266, R287, R319, R384, R411, R431) -/

/-- Bits 31:16 of a lane's or tile's signed power beside another. -/
def signed16 (i : Int) : Nat := toSigned 16 i

/-- A word of a lane's registers (R84). -/
def laneWord (b : Bank) (s : State) (g r : Nat) : Nat :=
  let x := laneOf s g
  let c : LaneCfg := tget {} b.lane g
  let ladder := x.fzLadder || decide (s.pow.ladder ≥ 2)
  let fz := [x.fzGap, x.fzSnr, x.fzFec, x.freeze, ladder]
  if r = 0x00 then pack [(c.precodePol, 2), (bit c.ctleMode, 1), (c.ctleCode, 5), (c.muFfe, 4), (c.muDfe, 4)]
  else if r = 0x04 then
    pack [(x.claim.ctorIdx, 3), (bit x.los, 1), (bit x.cdrLock, 1), (if !x.adaptOn then 0 else if fz.any id then 2 else 1, 2), (bit x.fzGap, 1), (bit x.fzSnr, 1),
          (bit x.fzFec, 1), (bit x.freeze, 1), (bit ladder, 1), (bit x.precodeTx, 1), (bit x.precodeRx, 1), (bit x.ringLock, 1), (0, 1), (x.snr, 8)]
  else if r = 0x08 then pack [(signed16 x.rxPwr, 16), (signed16 x.txPwr, 16)]
  else if r = 0x0C then pack [(x.heater, 16)]
  else if r = 0x10 then bit x.freeze
  else if 0x20 ≤ r && r < 0x30 then toSigned 8 (tget 0 x.dfe ((r - 0x20) / 4 + 1))
  else if 0x40 ≤ r && r < 0xC0 then
    let k := (r - 0x40) / 4
    let t := tget 0 x.ffe k
    if k = 7 then 0x100 else pack [(toSigned 10 t, 10), (bit (decide (t = -512) || decide (t = 511)), 1)]
  else if r = 0xC0 then
    pack [(bit x.genEn, 1), (bit x.chkEn, 1), (x.pattern, 3), (bit x.chkLock, 1), (bit x.swapSeen, 1), (0, 1), (x.duration, 24)]
  else if r = 0xC4 then x.seed % 2 ^ 31
  else if r = 0xC8 then x.errs % 2 ^ 32
  else if r = 0xCC then x.symErrs % 2 ^ 32
  else if r = 0xD0 then x.bits % 2 ^ 32
  else if r = 0xD4 then x.bitsHi
  else 0

/-- The 144 bytes of a correlator's result record (R82). -/
def echoRecord (x : Corr) : List Byte :=
  leBytes 1 (x.result + 4 * bit x.more) ++ leBytes 1 x.events.length ++ leBytes 2 x.portLane ++ leBytes 2 x.groupIndex ++ zeros 2 ++ leBytes 8 x.doneTime ++
  fit 128 (x.events.flatMap fun e => leBytes 2 e.distCm ++ leBytes 2 (signed16 e.refl) ++ leBytes 2 e.loss ++ leBytes 1 (e.type + 16 * bit e.inspect) ++ zeros 1)

/-- A word of a tile's registers (R84). -/
def tileWord (b : Bank) (s : State) (t r : Nat) : Nat :=
  let x := tileOf s t
  if r = 0x000 then pack [(x.active, 1), (x.workOk.toNat, 4), (x.spareOk.toNat, 4), (0, 7), (x.swaps, 8)]
  else if r = 0x004 then x.select
  else if 0x010 ≤ r && r < 0x030 then signed16 (tget (-32768) x.pwr ((r - 0x010) / 4))
  else if r = 0x0F0 then tget 0x5BC b.groupIndex t
  else if 0x100 ≤ r && r < 0x140 && r % 0x10 = 0 then
    let c : Corr := tget {} x.corr ((r - 0x100) / 0x10)
    pack [(c.portK, 4), (c.laneJ, 2), (0, 1), (bit c.busy, 1), (bit c.done, 1), (0, 7), (c.startCm, 16)]
  else if 0x200 ≤ r && r < 0x600 && r % 0x100 < 0x90 then fieldAt (echoRecord (tget {} x.corr ((r - 0x200) / 0x100))) (r % 0x100) 4
  else 0

/-- A word of the LINK block (R117). -/
def linkWord (b : Bank) (s : State) (off : Nat) : Nat :=
  let l := linkOf s (off / 0x40)
  if off = 0x4000 then b.regs.rekeyLog2
  else if off % 0x40 = 0x00 then
    pack [(l.disc.ctorIdx, 4), (l.width.toNat, 4), (l.released.toNat, 4), (bit l.keyPhaseTx, 1), (bit l.lastPhase, 1), (bit l.noCard, 1), (0, 1), (l.rx.eseq, 12)]
  else if off % 0x40 = 0x04 then (if l.delayKnown || decide ((chronOf s (off / 0x40)).delays ≠ []) then rtt256 s (off / 0x40) % 2 ^ 24 else 0)
  else if off % 0x40 = 0x08 then pack [(l.grantTx, 12), (l.grantRx, 12)]
  else 0

/-- A word of the MER block (R55). -/
def merWord (b : Bank) (s : State) (off : Nat) : Nat :=
  let m := s.mer
  if off = 0x000 then m.ns % 2 ^ 32
  else if off = 0x004 then m.timeHi.getD (m.ns / 2 ^ 32 % 2 ^ 32)
  else if off = 0x008 then
    pack [(m.state.ctorIdx, 3), (bit m.timed, 1), (bit m.rackTime, 1), (m.parent.getD 0, 8), (m.steps, 8), (if m.gmKnown then plane s else 0, 4)]
  else if off = 0x00C then toSigned 32 (divNear m.theta 2000)
  else if off = 0x010 then toSigned 32 (divNear m.rate 512000)
  else if off = 0x014 then m.deferred % 2 ^ 32
  else if off = 0x018 then pack [(b.regs.chronInterval, 3), (b.regs.merPrio.getD (if modIndex s ≤ 1 then 0x80 else 0xFF), 8)]
  else if off = 0x01C then toSigned 32 b.regs.gmTrim
  else if off = 0x020 then pack [(m.gmRef, 24), (m.gmPrio, 8)]
  else if 0x400 ≤ off && off < 0xC00 then
    let p := (off - 0x400) / 8
    if off % 8 = 0 then toSigned 32 (meanDelay (chronOf s p)) else signed16 (tget 0 b.asym p)
  else 0

/-- A word of the SWC block (R171). -/
def swcWord (b : Bank) (s : State) (off : Nat) : Nat :=
  let h := off / 0x10
  if off < 0x20 then
    if off % 0x10 = 0 then bufUsed s h else if off % 0x10 = 4 then grantedCells s h else if off % 0x10 = 8 then copyHeld s h else 0
  else if 0x100 ≤ off && off < 0x10C then
    let d := dispOf s ((off - 0x100) / 4)
    pack [(d.mode, 2), (min 3 (d.retires.filter fun r => roundNo s < r + 1024).length, 2), (0, 12), (min 65535 d.mismatch, 16)]
  else if off = 0x200 then b.regs.copyCells
  else 0

/-- A word of the RTE block (R204). -/
def rteWord (b : Bank) (s : State) (off : Nat) : Nat :=
  let i := s.ident
  let r := b.regs
  let h := (off - 0x20) / 8
  if off = 0x00 then pack [(i.lenX, 4), (i.lenY, 4), (i.lenZ, 4), (i.dlX, 4), (i.dlY, 4), (i.dlZ, 4)]
  else if off = 0x04 then pack [(r.gapTimeout, 12), (r.transitShare, 4), (r.drainQuiet, 8), (r.slowHoldoff, 8)]
  else if off = 0x08 then pack [(r.slowHi, 16), (r.slowStop, 16)]
  else if off = 0x0C then r.slowDuration
  else if off = 0x10 then pack [(pendingRemovals s, 16), (bit s.route.draining, 1)]
  else if 0x20 ≤ off && off < 0x30 then
    if off % 8 = 0 then contextsUsed s h else pack [(heldCells s h false, 17), (bit (decide (heldCells s h true > 0)), 1)]
  else 0

/-- The program that holds a slot, with its first slot (R233). -/
def programAt (b : Bank) (s : State) (k : Nat) : Option (Nat × Program) :=
  if k < 32 then (if s.ident.boot = 0 || decide (s.pow.ladder ≥ 3) then none else (Config.libraryProgram (libraryOf s) k).map fun p => (k, p))
  else b.prog.findSome? fun x => match x.2 with
    | some p => if x.1 ≤ k && k < x.1 + p.span then some (x.1, p) else none
    | none => none

/-- Open groups that bind a loaded program (R236, R239). -/
def boundGroups (s : State) (p : Program) : Nat :=
  (s.groups.filter fun x => x.2.state ≠ .free && (match x.2.record with | some r => decide (r.operator = 0xFF) && decide (r.progId = p.progId) | none => false)).length

/-- Open groups whose operator runs a library routine (R249). -/
def boundLibrary (s : State) (p : Program) : Nat :=
  (s.groups.filter fun x => x.2.state ≠ .free && (match x.2.record with | some r => decide (r.operator ≠ 0xFF) && decide (opCode r = p.progId) | none => false)).length

/-- PROG_SLOT[k], 64 bits (R239). -/
def progSlot (b : Bank) (s : State) (o k : Nat) : Nat :=
  match (if k < 32 && (officeOf s o).reloading then none else programAt b s k) with
  | none => 0
  | some (_, p) =>
    pack [(1, 1), (bit (decide (k < 32)), 1), (p.span - 1, 3), (0, 11), (p.progId, 16), (p.code.length, 16), (if k < 32 then boundLibrary s p else boundGroups s p, 16)]

/-- The press runs DUMMY work (R229, R239). -/
def pressFills (s : State) (x : Office) : Bool :=
  match x.running with | some j => decide (j.mode = 5) | none => decide (s.mer.ns < x.dummyUntil) && decide (s.pow.fillW > 0)

/-- A word of an office's registers (R239). -/
def officeWord (b : Bank) (s : State) (o r : Nat) : Nat :=
  let x := officeOf s o
  let c : OffCfg := tget {} b.off o
  if r = 0x000 then
    pack [((offState s o).ctorIdx, 2), (0, 6), ((s.groups.filter fun y => decide (y.2.office = o) && y.2.launched).length, 8), (officeQueued s o, 12), (foreignIn s o, 4)]
  else if r = 0x004 then pack [(c.stealScope, 2), (c.bundleLimit, 8)]
  else if r = 0x008 then pack [(match x.running with | some j => j.mode | none => if pressFills s x then 5 else 7, 3), (bit (pressFills s x), 1), (x.jobs.length, 6)]
  else if 0x100 ≤ r && r < 0x180 then
    let k := clerkOf s (32 * o + (r - 0x100) / 4)
    pack [(if s.mer.ns < k.stealUntil then ClerkState.stealing.ctorIdx else k.state.ctorIdx, 2), (k.queue.length, 7), (0, 3), (match k.bundle with | some d => d.group | none => 0, 16)]
  else if 0x200 ≤ r && r < 0x400 then
    let v := progSlot b s o ((r - 0x200) / 8)
    if r % 8 = 0 then v % 2 ^ 32 else v / 2 ^ 32
  else 0

/-- GRP_STATUS[e], 64 bits (R266). -/
def grpStatus (s : State) (e : Nat) : Nat :=
  let g := groupOf s e
  if g.state = .free then 0
  else pack [(groupNumber g, 16), (g.office, 3), (g.state.ctorIdx, 3), (if g.launched && !g.progress then 0 else g.level, 3), (bit (!g.spillBytes.isEmpty), 1), (0, 6), (g.step, 16), (g.pages, 13)]

/-- A word of the MEM block (R287). -/
def memWord (b : Bank) (s : State) (off : Nat) : Nat :=
  let h := off / 0x100
  let m := memOf s h
  if off % 0x100 = 0 then
    pack [(m.state, 2), (bit (m.claims.any (·.whole)), 1), (0, 5), ((heldCells s h true * 256 + 1048575) / 1048576, 13), (sumNat (m.mspill.map (·.2)) / 1048576, 11)]
  else if off = 0x008 then pack [(b.regs.captureGib, 5), (b.regs.captureHalf, 1), (b.regs.captureTier, 3)]
  else 0

/-- A word of the PM block (R319). -/
def pmWord (s : State) (off : Nat) : Nat :=
  let p := s.pm
  if off = 0x00 then
    pack [((triadMode s).ctorIdx, 2), (sumNat ([0, 1, 2].map fun c => 2 ^ c * bit (chanOf s c).inService), 3), (sumNat ([0, 1, 2].map fun c => 2 ^ c * bit (chanOf s c).forGood), 3),
          (bit p.holding, 1), (bit ([0, 1, 2].any fun c => decide ((chanOf s c).stage > 0)), 1), (bit p.absent, 1), (bit p.standing, 1), (p.role.ctorIdx, 2), (0, 2), (p.restarts, 8)]
  else if off = 0x04 then p.mismatch
  else if off = 0x08 then p.epoch
  else if off = 0x0C then pack [(p.accLost.toNat, 16), (bit p.path1, 1), (bit p.path2, 1), (bit p.partnerLost, 1), (bit p.diverged, 1)]
  else if 0x40 ≤ off && off < 0x60 then
    sumNat ((List.range 32).map fun i => 2 ^ i * bit (let l := linkOf s (8 * (off - 0x40) + i); l.silent || l.parked))
  else 0

/-- A word of the CLK block (R384). R384 gives offset 0x20 both to CLK_MON[4] and to RESET_CAUSE; it reads RESET_CAUSE. -/
def clkWord (s : State) (off : Nat) : Nat :=
  if off = 0x00 then clkStatus s
  else if 0x10 ≤ off && off < 0x20 then clkMon s ((off - 0x10) / 4)
  else if off = 0x20 then resetCause s
  else 0

/-- PCNT_CTL as it reads, with OVF (R431). -/
def pcntCtlWord (x : Pcnt) : Nat := (x.ctl &&& 0xFFFFFFFFFFFFFFFB).toNat + 4 * bit x.ovf

/-- A word of a 64-bit value. -/
def half64 (v off : Nat) : Nat := if off % 8 = 0 then v % 2 ^ 32 else v / 2 ^ 32 % 2 ^ 32

/-- The registers of R431 at their offsets from 0x40_0000, PCNT and PCNT_CTL from the bank given. -/
def cntReg (s : State) (pc : Nat → Pcnt) (off : Nat) : Nat :=
  let t := s.tele
  let c := s.capture
  if off < 0x100 then (pc (off / 4)).value
  else if 0x1000 ≤ off && off < 0x1200 then half64 (pcntCtlWord (pc ((off - 0x1000) / 8))) off
  else if 0x2000 ≤ off && off < 0x2008 then half64 t.snapRound off
  else if off = 0x2008 then pack [(bit t.snapArmed.isSome, 1), (bit t.snapValid, 1)]
  else if off = 0x2010 then pack [(c.adcLane, 10), (c.adcBursts, 8), (0, 1), (bit c.adcBusy, 1), (c.adcDone, 8)]
  else if 0x2100 ≤ off && off < 0x2140 then
    let d := detailOf s ((off - 0x2100) / 4)
    pack [(d.port, 8), (bit d.running, 1), (d.phase, 2)]
  else 0

/-- A word of the CNT block (R413, R431). -/
def cntWord (s : State) (off : Nat) : Nat :=
  if off < 0x400000 then half64 (tget 0 s.tele.cnt (off / 8)) off
  else if off < 0x800000 then cntReg s (pcntOf s) (off - 0x400000)
  else if off < 0xC00000 then half64 (tget 0 s.tele.snap ((off - 0x800000) / 8)) off
  else cntReg s (fun k => tget {} s.tele.snapPcnt k) (off - 0xC00000)

/-- The size of a block in bytes, up to the end of its last register (R338); none for a BLOCK that is not assigned. -/
def blockSize (block : Nat) : Option Nat :=
  match block with
  | 0x01 => some 0x40000
  | 0x02 => some 0x10000
  | 0x03 => some 0x4004
  | 0x04 => some 0xC00
  | 0x05 => some 0x204
  | 0x06 => some 0x30
  | 0x07 => some 0x8000
  | 0x08 => some 0x400
  | 0x09 => some 0x200
  | 0x0A => some 0x60
  | 0x0B => some 0x28
  | 0x0C => some 0xC0
  | 0x0D => some 0xC02140
  | _ => none

/-- A 32-bit word of a block; staged fields from bank `b`. -/
def readWord (b : Bank) (s : State) (block off : Nat) : Nat :=
  match block with
  | 0x01 => laneWord b s (off / 0x100) (off % 0x100)
  | 0x02 => tileWord b s (off / 0x1000) (off % 0x1000)
  | 0x03 => linkWord b s off
  | 0x04 => merWord b s off
  | 0x05 => swcWord b s off
  | 0x06 => rteWord b s off
  | 0x07 => officeWord b s (off / 0x1000) (off % 0x1000)
  | 0x08 => half64 (grpStatus s (off / 0x10)) (if off % 0x10 < 8 then off else 8) * bit (decide (off % 0x10 < 8))
  | 0x09 => memWord b s off
  | 0x0A => pmWord s off
  | 0x0B => clkWord s off
  | 0x0C => ladderWord b s off
  | 0x0D => cntWord s off
  | _ => 0

/-- What a read latches (R55, R84): MER_TIME_HI with MER_TIME_LO until MER_TIME_HI is read, BITS_HI with BITS_LO. -/
def latchWord (block off : Nat) (s : State) : State :=
  if block = 0x04 && off = 0 then { s with mer := { s.mer with timeHi := some (s.mer.ns / 2 ^ 32 % 2 ^ 32) } }
  else if block = 0x04 && off = 4 then { s with mer := { s.mer with timeHi := none } }
  else if block = 0x01 && off % 0x100 = 0xD0 then modLane s (off / 0x100) fun x => { x with bitsHi := x.bits / 2 ^ 32 % 2 ^ 32 }
  else s

/-- COUNT words from an offset on, in ascending order. -/
def readWords (staged : Bool) (block : Nat) : Nat → Nat → State → List Byte × State
  | _, 0, s => ([], s)
  | off, n + 1, s =>
    let v := readWord (if staged && s.staging.holder.isSome then s.staging.bank else s.bank) s block off
    let (r, s) := readWords staged block (off + 4) n (latchWord block off s)
    (leBytes 4 v ++ r, s)

/-- The words read hold the results of a claim that ended without them: an Echo record with RESULT not DONE (R83 step 3), the counters of a
PRBS test whose claim ended with NOT_READY, or ADC_CAP after such an end of its claim (R74, R431). -/
def claimCancelled (s : State) (block off count : Nat) : Bool :=
  (List.range count).any fun i =>
    let a := off + 4 * i
    if block = 0x02 then
      let r := a % 0x1000
      let k : Corr := tget {} (tileOf s (a / 0x1000)).corr ((r - 0x200) / 0x100)
      decide (0x200 ≤ r) && decide (r < 0x600) && decide (r % 0x100 < 0x90) && k.done && decide (k.result ≠ 0)
    else if block = 0x01 then
      let x := laneOf s (a / 0x100)
      decide (0xC8 ≤ a % 0x100) && decide (a % 0x100 < 0xD8) && decide (x.claimLast = .prbs) && decide (x.claimResult = some .notReady)
    else if block = 0x0D then
      let x := laneOf s s.capture.adcLane
      decide (a % 0x800000 = 0x402010) && decide (x.claimLast = .capture) && decide (x.claimResult = some .notReady)
    else false

/-- The checks and response of DIAG_READ and STAGE_READ (R338); the results of a claim that has ended report what the claim reports (R74). -/
def regReadAns (staged : Bool) (block off count : Nat) (s : State) : Ans :=
  match blockSize block with
  | none => badArg 0 s
  | some size =>
    if off % 4 ≠ 0 || off + 4 * count > size then badArg 4 s
    else
      let ended := claimCancelled s block off count
      let (r, s) := readWords staged block off count s
      if ended then { okWith r 8 s with status := .notReady } else okWith r 8 s

/-! ### The kinds of bits (R10, R339) -/

/-- Read-only, staged and diagnostics bits of a word: what STAGE_REG and DIAG_WRITE may touch (R339). -/
def laneKinds (r : Nat) : Nat × Nat × Nat :=
  if r = 0x00 then (0, 0xFFFF, 0)
  else if r = 0x04 then (0x00FF7FFF, 0, 0)
  else if r = 0x08 then (0xFFFFFFFF, 0, 0)
  else if r = 0x0C then (0xFFFF, 0, 0)
  else if r = 0x10 then (0, 0, 1)
  else if 0x20 ≤ r && r < 0x30 then (0xFF, 0, 0)
  else if 0x40 ≤ r && r < 0xC0 then (0x7FF, 0, 0)
  else if r = 0xC0 then (0x20, 0, 0xFFFFFFDF)
  else if r = 0xC4 then (0, 0, 0x7FFFFFFF)
  else if 0xC8 ≤ r && r < 0xD8 then (0xFFFFFFFF, 0, 0)
  else (0, 0, 0)

def tileKinds (r : Nat) : Nat × Nat × Nat :=
  if r = 0x000 then (0x00FF01FF, 0, 0)
  else if r = 0x004 then (0, 0, 1)
  else if 0x010 ≤ r && r < 0x030 then (0xFFFF, 0, 0)
  else if r = 0x0F0 then (0, 0xFFFF, 0)
  else if 0x100 ≤ r && r < 0x140 && r % 0x10 = 0 then (0x80, 0, 0xFFFF017F)
  else if 0x200 ≤ r && r < 0x600 && r % 0x100 < 0x90 then
    (if r % 0x100 = 0 then 0xFFFFFF07 else if r % 0x100 = 4 then 0xFFFF else if r % 0x100 < 16 || r % 8 = 0 then 0xFFFFFFFF else 0x003FFFFF, 0, 0)
  else (0, 0, 0)

def merKinds (off : Nat) : Nat × Nat × Nat :=
  if off < 0x008 || off = 0x00C || off = 0x010 || off = 0x020 then (0xFFFFFFFF, 0, 0)
  else if off = 0x008 then (0x01FFFFFF, 0, 0)
  else if off = 0x014 then (0, 0, 0xFFFFFFFF)
  else if off = 0x018 then (0, 0x7FF, 0)
  else if off = 0x01C then (0, 0xFFFFFFFF, 0)
  else if 0x400 ≤ off then (if off % 8 = 0 then (0xFFFFFFFF, 0, 0) else (0, 0xFFFF, 0))
  else (0, 0, 0)

def swcKinds (off : Nat) : Nat × Nat × Nat :=
  if off < 0x20 then (if off % 0x10 < 0xC then 0x7FFFF else 0, 0, 0)
  else if 0x100 ≤ off && off < 0x10C then (0xF, 0, 0xFFFF0000)
  else if off = 0x200 then (0, 0x7FFFF, 0)
  else (0, 0, 0)

def rteKinds (off : Nat) : Nat × Nat × Nat :=
  if off = 0x00 then (0x00FFFFFF, 0, 0)
  else if off = 0x04 || off = 0x08 then (0, 0xFFFFFFFF, 0)
  else if off = 0x0C then (0, 0xFFFF, 0)
  else if off = 0x10 then (0x1FFFF, 0, 0)
  else if 0x20 ≤ off then (if off % 8 = 0 then 0x7FFF else 0x3FFFF, 0, 0)
  else (0, 0, 0)

def officeKinds (r : Nat) : Nat × Nat × Nat :=
  if r = 0x000 then (0xFFFFFF03, 0, 0)
  else if r = 0x004 then (0, 0x3FF, 0)
  else if r = 0x008 then (0x3FF, 0, 0)
  else if 0x100 ≤ r && r < 0x180 then (0x0FFFF1FF, 0, 0)
  else if 0x200 ≤ r && r < 0x400 then (if r % 8 = 0 then 0xFFFF001F else 0xFFFFFFFF, 0, 0)
  else (0, 0, 0)

def clkKinds (off : Nat) : Nat × Nat × Nat :=
  if off = 0x00 then (0xFFF, 0, 0)
  else if off = 0x04 then (0, 0, 0x3F)
  else if 0x10 ≤ off && off < 0x20 then (0x0100FFFF, 0, 0x00FF0000)
  else if off = 0x20 then (0x00FF0003, 0, 0)
  else if off = 0x24 then (0, 0, 0x7F)
  else (0, 0, 0)

def ladderKinds (off : Nat) : Nat × Nat × Nat :=
  if off = 0x00 then (0xFFF, 0, 0)
  else if off = 0x10 then (0xFFFF, 0, 0)
  else if off < 0x1C then (0xFFFFFFFF, 0, 0)
  else if off = 0x1C then (0xFFFFFF, 0, 0)
  else if off = 0x20 then (0, 0xFFFFFFFF, 0)
  else if off = 0x24 then (0, 0x00FFFF01, 0)
  else if off = 0x28 then (0xFF, 0, 0)
  else if 0x40 ≤ off then (if off % 8 = 0 then 0xFFFFFFFF else 0x0003FFFF, 0, 0)
  else (0, 0, 0)

def cntKinds (off : Nat) : Nat × Nat × Nat :=
  if off < 0x400000 || off ≥ 0x800000 then (0xFFFFFFFF, 0, 0)
  else
    let r := off - 0x400000
    if r < 0x100 then (0, 0, 0xFFFFFFFF)
    else if 0x1000 ≤ r && r < 0x1200 then (0, 0, if r % 8 = 0 then 0x7FFFF else 0xFFFFF)
    else if 0x2000 ≤ r && r < 0x2008 then (0xFFFFFFFF, 0, 0)
    else if r = 0x2008 then (3, 0, 0)
    else if r = 0x2010 then (0x0FF80000, 0, 0x7FFFF)
    else if 0x2100 ≤ r && r < 0x2140 then (0x7FF, 0, 0)
    else (0, 0, 0)

/-- Read-only, staged and diagnostics bits of a word of a block. -/
def wordKinds (block off : Nat) : Nat × Nat × Nat :=
  match block with
  | 0x01 => laneKinds (off % 0x100)
  | 0x02 => tileKinds (off % 0x1000)
  | 0x03 => if off = 0x4000 then (0, 0x1F, 0) else if off % 0x40 = 0 then (0x0FFF7FFF, 0, 0) else if off % 0x40 < 0xC then (0x00FFFFFF, 0, 0) else (0, 0, 0)
  | 0x04 => merKinds off
  | 0x05 => swcKinds off
  | 0x06 => rteKinds off
  | 0x07 => officeKinds (off % 0x1000)
  | 0x08 => if off % 0x10 = 0 then (0x03FFFFFF, 0, 0) else if off % 0x10 = 4 then (0x1FFFFFFF, 0, 0) else (0, 0, 0)
  | 0x09 => if off % 0x100 = 0 then (0xFFFFFF07, 0, 0) else if off = 0x008 then (0, 0x1FF, 0) else (0, 0, 0)
  | 0x0A => if off = 0x00 then (0x00FF3FFF, 0, 0) else if off = 0x04 then (0, 0, 0xFFFFFFFF) else if off = 0x08 || off ≥ 0x40 then (0xFFFFFFFF, 0, 0)
            else if off = 0x0C then (0xFFFFF, 0, 0) else (0, 0, 0)
  | 0x0B => clkKinds off
  | 0x0C => ladderKinds off
  | 0x0D => cntKinds off
  | _ => (0, 0, 0)

/-- The common checks of a register write (R339): the block, the offset, and that MASK touches only bits of the writer's kind. -/
def regWriteCheck (staged : Bool) (block off mask : Nat) (s : State) : Option Ans :=
  match blockSize block with
  | none => some (badArg 0 s)
  | some size =>
    if off % 4 ≠ 0 || off + 4 > size then some (badArg 4 s)
    else
      let (ro, st, dg) := wordKinds block off
      if mask &&& (ro ||| (if staged then dg else st)) ≠ 0 then some (refuse .notPermitted s) else none

/-- The word that a write leaves: only bits set in MASK are written (R339). -/
def merged (old value mask : Nat) : Nat := (old &&& (0xFFFFFFFF ^^^ mask)) ||| (value &&& mask)

/-- A W1C field written: each 1 clears its bit (R10). -/
def cleared (old v : Nat) : Nat := old ^^^ (old &&& v)

/-! ### Staged fields (R12) -/

/-- The staged bank with a word of staged fields written; none for a value outside a field's range. -/
def stageWord (b : Bank) (block off v : Nat) : Option Bank :=
  let r := b.regs
  let f := fun hi lo => bitsOf v hi lo
  let ok := fun (c : Bool) (r' : Regs) => if c then some { b with regs := r' } else none
  if block = 0x01 && off % 0x100 = 0 then
    let c : LaneCfg := { precodePol := f 1 0, ctleMode := bitOf v 2, ctleCode := f 7 3, muFfe := f 11 8, muDfe := f 15 12 }
    if c.precodePol = 3 || c.ctleCode > 24 then none else some { b with lane := tset {} b.lane (off / 0x100) c }
  else if block = 0x02 && off % 0x1000 = 0x0F0 then
    if 1400 ≤ f 15 0 && f 15 0 ≤ 1550 then some { b with groupIndex := tset 0x5BC b.groupIndex (off / 0x1000) (f 15 0) } else none
  else if block = 0x03 && off = 0x4000 then ok (16 ≤ f 4 0 && f 4 0 ≤ 26) { r with rekeyLog2 := f 4 0 }
  else if block = 0x04 && off = 0x018 then ok true { r with chronInterval := f 2 0, merPrio := some (f 10 3) }
  else if block = 0x04 && off = 0x01C then
    let t := ofSigned 32 v
    ok (-10000 ≤ t && t ≤ 10000) { r with gmTrim := t }
  else if block = 0x04 && 0x400 ≤ off && off % 8 = 4 then some { b with asym := tset 0 b.asym ((off - 0x400) / 8) (ofSigned 16 v) }
  else if block = 0x05 && off = 0x200 then ok (1024 ≤ f 18 0 && f 18 0 ≤ 65536) { r with copyCells := f 18 0 }
  else if block = 0x06 && off = 0x04 then
    ok (f 11 0 ≥ 4 && 1 ≤ f 15 12 && f 15 12 ≤ 8 && f 23 16 ≠ 0 && f 31 24 ≠ 0)
      { r with gapTimeout := f 11 0, transitShare := f 15 12, drainQuiet := f 23 16, slowHoldoff := f 31 24 }
  else if block = 0x06 && off = 0x08 then ok (f 15 0 ≠ 0 && f 31 16 > f 15 0) { r with slowHi := f 15 0, slowStop := f 31 16 }
  else if block = 0x06 && off = 0x0C then ok (f 15 0 ≠ 0) { r with slowDuration := f 15 0 }
  else if block = 0x07 && off % 0x1000 = 0x004 then
    if f 1 0 = 3 || f 9 2 = 0 then none else some { b with off := tset {} b.off (off / 0x1000) { stealScope := f 1 0, bundleLimit := f 9 2 } }
  else if block = 0x09 && off = 0x008 then ok (f 4 0 ≤ 16 && f 8 6 ≤ 4) { r with captureGib := f 4 0, captureHalf := f 5 5, captureTier := f 8 6 }
  else if block = 0x0C && off = 0x20 then
    ok (1 ≤ f 11 0 && f 11 0 ≤ 2600 && 1 ≤ f 23 12 && f 23 12 ≤ 2600 && f 31 24 ≠ 0) { r with rampUp := f 11 0, rampDown := f 23 12, accRamp := f 31 24 }
  else if block = 0x0C && off = 0x24 then
    ok (f 15 8 ≠ 0 && 30 ≤ f 23 16 && f 23 16 ≤ 60) { r with smoothEn := bitOf v 0, capAckTimeout := f 15 8, coolTMax := f 23 16 }
  else some b

end Sys2Proof.Machine
end

