-- ==== Sys2Proof/Machine/Tables.lean ====
section
/-! DEFINITION. The byte layouts of the committed tables, the reads that return them (R336), and the measurement ledger (R357, R358). -/

namespace Sys2Proof.Machine

/-! ### Layouts (R140, R159, R163, R175, R179, R187, R234, R242, R276) -/

def rackBytes (e : RackEntry) : List Byte := leBytes 2 (bit e.valid + 2 * e.dir)

def plotBytes (e : PlotEntry) : List Byte := leBytes 8 (bit e.valid) ++ leBytes 16 e.rackMask.toNat ++ leBytes 16 e.slotMask.toNat

def slotBytes (e : SlotEntry) : List Byte := leBytes 4 (pack [(bit e.valid, 1), (e.source, 9), (e.route, 16)])

def copyOf (b : Bank) (n : Nat) : CopySession :=
  tget ⟨false, 0, false, false, 0, 0, 0, 0, 0, 0, 0, 0, 0, false, false, true⟩ b.copy n

def copyBytes (c : CopySession) : List Byte :=
  leBytes 1 (pack [(bit c.enable, 1), (c.kind, 2), (bit c.destRing, 1), (bit c.trunc, 1)]) ++ leBytes 1 c.port ++ leBytes 1 c.sampleK ++ leBytes 1 c.mport ++
  leBytes 3 c.flowSrc.toNat ++ leBytes 3 c.flowSrcMask.toNat ++ leBytes 3 c.flowDest.toNat ++ leBytes 3 c.flowDestMask.toNat ++
  leBytes 2 (pack [(c.flowPlot, 12), (c.flowClass, 4)]) ++ leBytes 1 (bit c.matchPlot + 2 * bit c.matchClass) ++ zeros 13

def windowBytes (w : WindowRec) : List Byte := leBytes 8 w.base ++ leBytes 4 w.sizeGib ++ leBytes 1 (bit w.enable) ++ zeros 3

/-- A group's record as it was opened (R242). -/
def openedRecord (g : Group) : Option GroupRec := g.record.map fun r => { r with stepBytes := g.stepBytesGiven }

def groupRecBytes (r : GroupRec) : List Byte :=
  leBytes 2 r.group ++ leBytes 1 r.operator ++ leBytes 1 (pack [(r.redop, 2), (bit r.partialPolicy, 1), (bit r.resid, 1)]) ++
  leBytes 1 (pack [(r.fmtIn, 4), (r.fmtOut, 4)]) ++ leBytes 1 (pack [(r.rnd, 2), (r.rank, 3)]) ++ leBytes 2 (pack [(r.plot, 12), (r.share, 4)]) ++
  leBytes 2 r.hostMask.toNat ++ leBytes 1 (pack [(r.x0, 4), (r.nxM1, 4)]) ++ leBytes 1 (pack [(r.y0, 4), (r.nyM1, 4)]) ++ leBytes 1 (pack [(r.z0, 4), (r.nzM1, 4)]) ++
  leBytes 1 r.lateThreshold ++ leBytes 2 r.stepTimeout ++ leBytes 4 r.stepBytes ++ leBytes 2 r.routeLinks.toNat ++ leBytes 1 r.routeSlots ++ zeros 1 ++
  leBytes 2 r.progId ++ leBytes 2 r.paramA ++ leBytes 2 r.paramB ++ leBytes 2 r.root ++ leBytes 8 r.groupSeed.toNat ++ leBytes 16 r.memberMask.toNat ++ zeros 8

def phaseBytes (p : Phase) : List Byte :=
  leBytes 2 p.entry ++ leBytes 2 p.bundles ++ leBytes 4 p.inOff ++ leBytes 4 p.inStride ++ leBytes 4 p.inSize ++ leBytes 4 p.outOff ++ leBytes 2 p.outStride ++
  leBytes 2 p.outSize ++ zeros 8 ++ leBytes 4 p.s0.toNat ++ leBytes 4 p.s1.toNat ++ leBytes 4 p.s2.toNat ++ leBytes 4 p.s3.toNat

def programBytes (p : Program) : List Byte :=
  leBytes 2 p.progId ++ leBytes 1 p.slot ++ leBytes 1 (pack [(p.span, 4), (p.phases.length, 4)]) ++ leBytes 2 p.code.length ++ zeros 2 ++ leBytes 8 p.version ++
  zeros 16 ++ p.phases.flatMap phaseBytes ++ p.code.flatMap fun w => leBytes 8 w.toNat

/-- Entries `first` to `first + n − 1` of a table as its read returns them. -/
def entriesOf (n first : Nat) (f : Nat → List Byte) : List Byte := (List.range n).flatMap fun i => f (first + i)

def rackRange (b : Bank) (first n : Nat) : List Byte := entriesOf n first fun i => rackBytes (rackEntry b i)
def sprayRange (b : Bank) (dir first n : Nat) : List Byte := entriesOf n first fun i => leBytes 1 (sprayWeight b dir i)
def maskRange (b : Bank) (first n : Nat) : List Byte := entriesOf n first fun i => leBytes 16 (maskEntry b i).toNat
def plotRange (b : Bank) (first n : Nat) : List Byte := entriesOf n first fun i => plotBytes (plotEntry b i)
def slotRange (b : Bank) (out first n : Nat) : List Byte := entriesOf n first fun i => slotBytes (slotEntry b out i)
def copyRange (b : Bank) (first n : Nat) : List Byte := entriesOf n first fun i => copyBytes (copyOf b i)
def windowRange (b : Bank) (first n : Nat) : List Byte := entriesOf n first fun i => windowBytes (windowRec b i)

/-! ### Table headers and reads (R336) -/

/-- A header field that fails: its byte offset with bit 31 set. -/
def headerFail (off : Nat) (s : State) : Ans := badArg (off + 2 ^ 31) s

/-- The header checks, in the order of the bytes. -/
def headerCheck (h : TableHdr) (read : Bool) (limit : Nat) (selOk tableOk : Bool) (s : State) : Option Ans :=
  if h.first ≥ limit then some (headerFail 0 s)
  else if h.count = 0 || h.first + h.count > limit then some (headerFail 2 s)
  else if !selOk then some (headerFail 4 s)
  else if (!read && h.bank ≠ 0) || h.bank > 1 || !tableOk then some (headerFail 6 s)
  else none

/-- The bank a read names: 0 committed, 1 staged, which is the committed one while nothing is staged (R336). -/
def readBank (h : TableHdr) (s : State) : Bank := if h.bank = 1 && s.staging.holder.isSome then s.staging.bank else s.bank

/-- A table read's answer. -/
def tableReadAns (h : TableHdr) (limit : Nat) (selOk tableOk : Bool) (f : Bank → List Byte) (s : State) : Ans :=
  match headerCheck h true limit selOk tableOk s with
  | some a => a
  | none => okWith (f (readBank h s)) (2 + 2 ^ 31) s

/-- ATLAS_READ (R336): rack table, a spray set or the mask table. -/
def atlasReadAns (h : TableHdr) (s : State) : Ans :=
  let limit := if h.table = 1 then 16 else if h.table = 2 then 1024 else 4096
  tableReadAns h limit (if h.table = 1 then 1 ≤ h.select && h.select ≤ 7 else h.select = 0) (h.table ≤ 2)
    (fun b => if h.table = 0 then rackRange b h.first h.count else if h.table = 1 then sprayRange b h.select h.first h.count else maskRange b h.first h.count) s

def execAtlasRead (c : Ctx) (h : TableHdr) (s : State) : Host.Outcome State Fault Refusal := .next (gmiRun c 0x204 (atlasReadAns h) s)

/-- PLOT_READ (R336). -/
def execPlotRead (c : Ctx) (h : TableHdr) (s : State) : Host.Outcome State Fault Refusal :=
  .next (gmiRun c 0x301 (tableReadAns h 4096 (h.select = 0) (h.table = 0) fun b => plotRange b h.first h.count) s)

/-- SLOTMAP_READ (R336). -/
def execSlotmapRead (c : Ctx) (h : TableHdr) (s : State) : Host.Outcome State Fault Refusal :=
  .next (gmiRun c 0x401 (tableReadAns h 200 (h.select ≤ 255) (h.table = 0) fun b => slotRange b h.select h.first h.count) s)

/-- COPY_READ (R336). -/
def execCopyRead (c : Ctx) (h : TableHdr) (s : State) : Host.Outcome State Fault Refusal :=
  .next (gmiRun c 0x403 (tableReadAns h 8 (h.select = 0) (h.table = 0) fun b => copyRange b h.first h.count) s)

/-! ### The ledger (R357, R358) -/

/-- A ledger slot. -/
def ledgerSlot (s : State) (k : Nat) : BitVec 512 := tget 0 s.trust.ledger k

def setLedger (k : Nat) (v : BitVec 512) (s : State) : State := { s with trust := { s.trust with ledger := tset 0 s.trust.ledger k v } }

/-- Extend: slot := SHA-512(slot ‖ m), appended to the measurement log while it has room (R357, R358). -/
def extend (k info : Nat) (m : List Byte) (s : State) : State :=
  let m := fit 64 m
  let s := setLedger k (Config.sha512 (digestBytes (ledgerSlot s k) ++ m)) s
  let e : LogEntry := { seq := s.trust.logCount, slot := k, round := roundNo s, info := info, m := BitVec.ofNat 512 (beNat m) }
  { s with trust := { s.trust with logCount := s.trust.logCount + 1, log := if s.trust.log.length < 4096 then s.trust.log ++ [e] else s.trust.log } }

/-- A state slot takes SHA-512 of an item's committed contents. -/
def stateSlot (k : Nat) (contents : List Byte) (s : State) : State := setLedger k (Config.sha512 contents) s

/-- The state slots recomputed from the committed bank (R357). -/
def recomputeLedger (s : State) : State :=
  let b := s.bank
  let s := stateSlot 8 (rackRange b 0 4096 ++ [1, 2, 3, 4, 5, 6, 7].flatMap (fun d => sprayRange b d 0 16) ++ maskRange b 0 1024) s
  let s := stateSlot 9 (plotRange b 0 4096) s
  let s := stateSlot 10 ((List.range 256).flatMap fun o => slotRange b o 0 200) s
  let s := stateSlot 11 (copyRange b 0 8 ++ windowRange b 0 4) s
  let s := stateSlot 12 ((List.range 64).flatMap fun e => match openedRecord (groupOf s e) with
    | some r => if (groupOf s e).state = .staged then zeros 64 else groupRecBytes r
    | none => zeros 64) s
  stateSlot 13 ((List.range 64).flatMap fun k => leBytes 8 (progSlot b s 0 k)) s

end Sys2Proof.Machine
end

