-- ==== Sys2Proof/Machine/Staging.lean ====
section
/-! DEFINITION. The staging bank and what is staged into it: table writes, staged registers, group opens and closes, program loads (R159, R160,
R163, R175, R179, R187, R235, R236, R242–R247, R276, R279, R333–R339, R476). -/

namespace Sys2Proof.Machine

/-! ### The bank (R333, R335) -/

/-- The bank that a staging command works on: the staged one, or a copy of the committed one while nothing is staged. -/
def stagedBank (s : State) : Bank := if s.staging.holder.isSome then s.staging.bank else s.bank

/-- Every staging command of the holder restarts the expiry (R333). -/
def holderTouch (c : Ctx) (s : State) : State :=
  if s.staging.holder = some c.box then { s with staging := { s.staging with lastRound := roundNo s } } else s

/-- Why staging is refused: another box holds the bank (R333), or it is sealed (R335). -/
def stageGate (c : Ctx) (s : State) : Option Ans :=
  match s.staging.holder with
  | some b => if b ≠ c.box then some (busy 13 (boxNo b) s) else if s.staging.sealed.isSome then some (refuse .notReady s) else none
  | none => if s.staging.sealed.isSome then some (refuse .notReady s) else none

/-- Items enter the bank, which the box holds from then on. -/
def stage (c : Ctx) (items : Nat) (b : Bank) (s : State) : State :=
  { s with staging := { s.staging with holder := some c.box, bank := b, items := s.staging.items + items, lastRound := roundNo s } }

/-- A staging command: the bank's own refusals first, then its checks. -/
def staging (c : Ctx) (body : State → Ans) (s : State) : Ans :=
  let s := holderTouch c s
  match stageGate c s with
  | some a => a
  | none => body s

/-! ### Table writes (R336) -/

/-- Why an entry is refused: status and owner. -/
abbrev EntryFail := Status × Nat × Nat

def badEntry : EntryFail := (.badArgument, 0, 0)

/-- The entries in index order, each against the bank that the ones before it leave; the first failure ends it with its index. -/
def applyEntries {α : Type} (f : Bank → Nat → α → Except EntryFail Bank) : Nat → List α → Bank → Except (EntryFail × Nat) Bank
  | _, [], b => .ok b
  | i, x :: r, b => match f b i x with
    | .ok b' => applyEntries f (i + 1) r b'
    | .error e => .error (e, i)

/-- A table write (R336): header, then entries, all or none. -/
def tableWriteAns {α : Type} (c : Ctx) (h : TableHdr) (limit : Nat) (selOk : Bool) (entries : List α) (f : Bank → Nat → α → Except EntryFail Bank) (s : State) : Ans :=
  staging c (fun s =>
    match headerCheck h false limit selOk (h.table = 0) s with
    | some a => a
    | none =>
      if entries.length ≠ h.count then headerFail 2 s
      else match applyEntries f h.first entries (stagedBank s) with
        | .ok b => okAns (stage c h.count b s)
        | .error ((st, k, n), i) => { status := st, ownerKind := k, ownerId := n, detail := i, post := s }) s

/-- The first axis, in the order x, y, z, on which two racks differ. -/
def firstAxis (a b : Nat) : Option Nat := [0, 1, 2].find? fun i => coord a i ≠ coord b i

/-- R175. -/
def rackEntryCheck (s : State) (b : Bank) (i : Nat) (v : BitVec 16) : Except EntryFail Bank :=
  let valid := v.getLsbD 0
  let dir := bitsOf v.toNat 3 1
  let own := ownRack s
  let bad := dir = 7 || (valid && ((i = own && dir ≠ 0) || (i ≠ own && dir = 0) || !rackFits s i ||
    (match firstAxis i own with | some a => axisOfDir dir ≠ a | none => false)))
  if bad then .error badEntry else .ok { b with rack := tset {} b.rack i { valid := valid, dir := dir } }

/-- RACK_WRITE (R175). -/
def execRackWrite (c : Ctx) (h : TableHdr) (entries : List (BitVec 16)) (s : State) : Host.Outcome State Fault Refusal :=
  .next (gmiRun c 0x201 (fun s => tableWriteAns c h 4096 (h.select = 0) entries (rackEntryCheck s) s) s)

/-- SPRAY_WRITE (R179). -/
def execSprayWrite (c : Ctx) (h : TableHdr) (weights : List (BitVec 8)) (s : State) : Host.Outcome State Fault Refusal :=
  .next (gmiRun c 0x202 (tableWriteAns c h 16 (1 ≤ h.select && h.select ≤ 7) weights fun b i w =>
    .ok { b with spray := tset 1 b.spray (16 * h.select + i) (w.toNat % 16) }) s)

/-- Step 7 of R330 for MASK_WRITE: standing orders bar any bit that goes to 1 (R315). -/
def masksBarred (h : TableHdr) (masks : List (BitVec 128)) (s : State) : Bool :=
  s.pm.standing && ((List.range masks.length).zip masks).any fun (k, m) => gains (maskEntry s.bank (h.first + k)) m

/-- Step 7 of R330 for PLOT_WRITE: standing orders bar an entry that goes to VALID and any mask bit that goes to 1 (R315). -/
def plotsBarred (h : TableHdr) (entries : List (PlotEntry × Bool)) (s : State) : Bool :=
  s.pm.standing && ((List.range entries.length).zip entries).any fun (k, x) =>
    let old := plotEntry s.bank (h.first + k)
    (x.1.valid && !old.valid) || gains old.rackMask x.1.rackMask || gains old.slotMask x.1.slotMask

/-- MASK_WRITE (R140, R315). -/
def execMaskWrite (c : Ctx) (h : TableHdr) (masks : List (BitVec 128)) (s : State) : Host.Outcome State Fault Refusal :=
  .next (gmiRun c 0x203 (fun s => if masksBarred h masks s then refuse .notReady s else tableWriteAns c h 1024 (h.select = 0) masks (fun b i m =>
    if i = 0 then .error badEntry else .ok { b with mask := tset 0 b.mask i m }) s) s)

/-- PLOT_WRITE (R187, R315); the flag beside an entry, that its reserved fields are 0, is ignored (R11). -/
def execPlotWrite (c : Ctx) (h : TableHdr) (entries : List (PlotEntry × Bool)) (s : State) : Host.Outcome State Fault Refusal :=
  .next (gmiRun c 0x300 (fun s => if plotsBarred h entries s then refuse .notReady s else tableWriteAns c h 4096 (h.select = 0) entries (fun b i x =>
    if i = 0 then .error badEntry else .ok { b with plot := tset ⟨false, 0, 0⟩ b.plot i x.1 }) s) s)

/-- Valid entries of an output's slot map. -/
def validSlots (b : Bank) (out : Nat) : Nat := (b.slot.filter fun x => x.1 / 200 = out && x.2.valid).length

/-- The entry of another output that names the same input in the same slot (R160). -/
def sameInput (b : Bank) (out i source : Nat) : Option SlotEntry :=
  (b.slot.find? fun x => x.1 % 200 = i && x.1 / 200 ≠ out && x.2.valid && x.2.source = source).map (·.2)

/-- R159, R160. -/
def slotEntryCheck (out : Nat) (b : Bank) (i : Nat) (e : SlotEntry) : Except EntryFail Bank :=
  let old := slotEntry b out i
  let b' : Bank := { b with slot := tset ⟨false, 0, 0⟩ b.slot (200 * out + i) e }
  if e.source ≥ 264 || (e.valid && (i = 199 || validSlots b' out > 160)) then .error badEntry
  else if !e.valid then .ok b'
  else if old.valid && old.route ≠ e.route then .error (.busyClaimed, 12, old.route)
  else match (if e.source < 256 then sameInput b out i e.source else none) with
    | some x => .error (.busyClaimed, 12, x.route)
    | none => .ok b'

/-- SLOTMAP_WRITE (R160). -/
def execSlotmapWrite (c : Ctx) (h : TableHdr) (entries : List SlotEntry) (s : State) : Host.Outcome State Fault Refusal :=
  .next (gmiRun c 0x400 (tableWriteAns c h 200 (h.select ≤ 255) entries (slotEntryCheck h.select)) s)

/-- COPY_WRITE (R163, R168). -/
def execCopyWrite (c : Ctx) (h : TableHdr) (sessions : List CopySession) (s : State) : Host.Outcome State Fault Refusal :=
  .next (gmiRun c 0x402 (fun s => tableWriteAns c h 8 (h.select = 0) sessions (fun b i x =>
    if x.kind ≥ 3 || (x.kind ≤ 1 && isMaint x.port) || x.sampleK > 16 then .error badEntry
    else if x.enable && !x.destRing && s.sw.testPorts.contains (240 + x.mport) then .error (.busyClaimed, 6, 240 + x.mport)
    else .ok { b with copy := tset ⟨false, 0, false, false, 0, 0, 0, 0, 0, 0, 0, 0, 0, false, false, true⟩ b.copy i { x with reservedZero := true } }) s) s)

/-- The enabled windows of a bank. -/
def enabledWindows (b : Bank) : List (Nat × WindowRec) := b.window.filter fun x => x.2.enable

/-- R276: the windows together within 4 TiB, no two enabled ones overlapping. -/
def windowsOk (b : Bank) : Bool :=
  let ws := enabledWindows b
  decide (sumNat (b.window.map fun x => x.2.sizeGib) ≤ 4096) &&
  ws.all fun x => ws.all fun y => x.1 = y.1 || decide (x.2.base + x.2.sizeGib * gib ≤ y.2.base) || decide (y.2.base + y.2.sizeGib * gib ≤ x.2.base)

/-- R276. -/
def windowEntryCheck (b : Bank) (i : Nat) (w : WindowRec) : Except EntryFail Bank :=
  let b' : Bank := { b with window := tset ⟨0, 0, false, true⟩ b.window i { w with reservedZero := true } }
  if (w.enable && (w.base % gib ≠ 0 || w.sizeGib = 0 || w.sizeGib > 4096)) || !windowsOk b' then .error badEntry else .ok b'

/-- WINDOW_WRITE (R276). -/
def execWindowWrite (c : Ctx) (h : TableHdr) (windows : List WindowRec) (s : State) : Host.Outcome State Fault Refusal :=
  .next (gmiRun c 0x404 (tableWriteAns c h 4 (h.select = 0) windows windowEntryCheck) s)

/-! ### Staged registers (R279, R339) -/

/-- R279: a move of the capture ring is refused to a window that is not enabled, and while a session or a CAPTURE claim targets the ring. -/
def ringMove (old new : Bank) (s : State) : Option Ans :=
  let o := old.regs
  let n := new.regs
  if o.captureGib = n.captureGib && o.captureHalf = n.captureHalf && o.captureTier = n.captureTier then none
  else if n.captureTier ≠ 0 && !(windowRec new (n.captureTier - 1)).enable then some (badArg 8 s)
  else (ringUser s s.bank).map fun u => busy u.1 u.2 s

/-- STAGE_REG (R339). -/
def stageRegAns (c : Ctx) (block off : Nat) (value mask : Word) (s : State) : Ans :=
  staging c (fun s =>
    match regWriteCheck true block off mask.toNat s with
    | some a => a
    | none =>
      let b := stagedBank s
      match stageWord b block off (merged (readWord b s block off) value.toNat mask.toNat) with
      | none => badArg 8 s
      | some b' => match ringMove b b' s with
        | some a => a
        | none => okAns (stage c 1 b' s)) s

def execStageReg (c : Ctx) (block offset : Nat) (value mask : Word) (s : State) : Host.Outcome State Fault Refusal :=
  .next (gmiRun c 0x100 (stageRegAns c block offset value mask) s)

/-- STAGE_READ (R338). -/
def execStageRead (c : Ctx) (block offset count : Nat) (s : State) : Host.Outcome State Fault Refusal :=
  .next (gmiRun c 0x101 (regReadAns true block offset count) s)

/-! ### Opening a group (R242–R245, R249, R476) -/

/-- Input and result regions of one step, in bytes, for a group of `p` members; COMBINE aside (R476). -/
def stepRegions (r : GroupRec) (p : Nat) : Nat × Nat :=
  let m := membersHere r
  let n := r.stepBytes
  let sh := shardBytes r
  match r.operator with
  | 0x00 => (0, 0)
  | 0x01 | 0x02 | 0x05 | 0x0C => (m * sh, sh)
  | 0x03 => (m * sh, p * sh)
  | 0x04 => (sh, sh)
  | 0x06 => (m * n, m * n)
  | 0x07 => (m * n, m * (8 * r.paramB + r.paramB * r.paramA))
  | 0x09 => (m * sh, if r.resid then 2 * sh else sh)
  | 0x0A => (m * sh, m * arrayBytes r.fmtOut (sh / 4))
  | _ => (m * sh, m * sh)

/-- Whole pages (R206, R476). -/
def pagesOf (bytes : Nat) : Nat := (bytes + 4095) / 4096

/-- The DISPATCH group that a COMBINE names, if it is open here. -/
def dispatchGroup (s : State) (r : GroupRec) : Option (Nat × GroupRec) :=
  (entryOf s r.paramA).bind fun e => ((groupOf s e).record).bind fun d => if d.operator = 7 then some (e, d) else none

/-- The regions of a group to be opened, COMBINE by its DISPATCH group's CAP, TOK_BYTES and T (R260, R476). -/
def regionsFor (s : State) (r : GroupRec) : Nat × Nat :=
  if r.operator = 8 then
    match dispatchGroup s r with
    | some (_, d) => (membersHere r * (d.paramB * d.paramA), membersHere r * (tokensOf d * d.paramA))
    | none => (0, 0)
  else stepRegions r (membersAll r)

/-- The record as it acts: a COMBINE member's contribution is CAP × TOK_BYTES of its DISPATCH group (R260). -/
def inForce (s : State) (r : GroupRec) : GroupRec :=
  if r.operator = 8 then (match dispatchGroup s r with | some (_, d) => { r with stepBytes := d.paramB * d.paramA } | none => r) else r

/-- Pages of both regions. -/
def groupPages (s : State) (r : GroupRec) : Nat := pagesOf (regionsFor s r).1 + pagesOf (regionsFor s r).2

/-- A box of more than one rack. -/
def manyRacks (r : GroupRec) : Bool := !(axesOf r).isEmpty

/-- Operators of one rack and of one shard (R249). -/
def oneRack (op : Nat) : Bool := op = 6 || op = 7 || op = 8 || op = 10
def oneShard (op : Nat) : Bool := op = 0 || op = 6 || op = 7 || op = 8

/-- The program a group binds, in the bank it is opened with, and whether every window of its phases lies in the step regions (R235, R244). -/
def boundProgram (s : State) (r : GroupRec) : Option Program :=
  ((stagedBank s).prog.find? fun x => match x.2 with | some p => decide (p.progId = r.progId) | none => false).bind (·.2)

def windowsFit (p : Program) (inBytes outBytes : Nat) : Bool :=
  p.phases.all fun h => decide (h.inOff + (h.bundles - 1) * h.inStride + h.inSize ≤ inBytes) && decide (h.outOff + (h.bundles - 1) * h.outStride + h.outSize ≤ outBytes)

/-- The checks of step 2 by byte offset, in ascending order: the fields whose rules are those of R242 and R249. -/
def groupFields (s : State) (r : GroupRec) : List (Nat × Bool) :=
  let op := r.operator
  let lib := op ≤ 0x0C
  let shards := shardsOf r
  let n := r.stepBytes
  let p := membersAll r
  let own := rackOf (srcRef s)
  let zero := fun (k : Nat) => !r.reservedAt.contains k
  let inBox := fun a => decide (extent r a ≤ axisLen s a) && decide (firstCoord r a < axisLen s a) && decide (posOf s r own a < extent r a) &&
    (!oneRack op || decide (extent r a = 1))
  let elems := arrayElems r.fmtIn (shardBytes r)
  [ (0, decide (1 ≤ r.group) && decide (r.group ≤ 65535)),
    (2, lib || op = 0xFF),
    (3, r.redop ≤ 1 || r.fmtIn ≠ 10),
    (3, op ≠ 0x0B || r.redop ≠ 1),
    (3, zero 3),
    (4, fmtOk r.fmtIn && fmtOk r.fmtOut && (op ≠ 9 || r.fmtIn ≤ 2) && (op ≠ 10 || (r.fmtIn = 0 && isMx r.fmtOut))),
    (5, r.rnd ≤ 2 && r.rank ≤ 4 && zero 5),
    (6, decide (1 ≤ r.plot) && decide (r.plot ≤ 4095)),
    (8, r.hostMask.getLsbD (modIndex s) && [1, 2, 4, 8, 16].contains shards && (!oneShard op || shards = 1)),
    (10, inBox 0), (11, inBox 1), (12, inBox 2),
    (14, r.stepTimeout = 0 || decide (r.stepTimeout ≥ 4)),
    (16, n % (256 * shards) = 0 && (op ≠ 0 || n = 0) && ((op ≠ 2 && op ≠ 6) || n % (256 * p) = 0) &&
         (op ≠ 7 || (n % (8 + tokBytes r) = 0 && decide (1 ≤ tokensOf r) && decide (tokensOf r ≤ 4096))) && decide (groupPages s r ≤ 5888)),
    (20, !manyRacks r || r.routeLinks ≠ 0),
    (22, r.routeSlots ≤ 160 && (!manyRacks r || r.routeSlots ≠ 0)),
    (23, zero 23),
    (24, if op = 0xFF then (match boundProgram s r with
      | some q => windowsFit q (pagesOf (regionsFor s r).1 * 4096) (pagesOf (regionsFor s r).2 * 4096)
      | none => false) else r.progId = 0),
    (26, if op = 7 then r.paramA % 32 = 0 && decide (32 ≤ r.paramA) && decide (r.paramA ≤ 4096)
         else if op = 8 then (dispatchGroup s r).isSome
         else if op = 9 then r.paramA % 256 = 0 && decide (256 ≤ r.paramA) && decide (r.paramA ≤ 4096) && elems % r.paramA = 0 && decide (r.paramA ≥ foldRank r)
         else if op = 0x0C then r.paramA % 64 = 0 && decide (64 ≤ r.paramA) && decide (r.paramA ≤ 4096)
         else r.paramA = 0),
    (28, if op = 7 then decide (1 ≤ r.paramB) && decide (r.paramB ≤ 4096) else r.paramB = 0),
    (30, if op = 4 || op = 5 then decide (r.root < p) else r.root = 0),
    (40, r.memberMask ≠ 0),
    (56, zero 56) ]

/-- The first field of the member table that fails. -/
def memberFields (l : List MemberEntry) : Option Nat :=
  ((List.range l.length).zip l).findSome? fun (i, m) =>
    if m.resultBase % 4096 ≠ 0 then some (64 + 16 * i) else if m.reservedAt.contains 7 then some (71 + 16 * i)
    else if m.noticeBase % 4096 ≠ 0 then some (72 + 16 * i) else if m.reservedAt.contains 15 then some (79 + 16 * i) else none

/-- The racks of a group's box. -/
def boxRacks (s : State) (r : GroupRec) : List Nat :=
  (List.range (extent r 0)).flatMap fun i => (List.range (extent r 1)).flatMap fun j => (List.range (extent r 2)).map fun k =>
    (r.x0 + i) % axisLen s 0 * 256 + (r.y0 + j) % axisLen s 1 * 16 + (r.z0 + k) % axisLen s 2

/-- Step 3 of R244. -/
def plotAllows (s : State) (r : GroupRec) : Bool :=
  let e := plotEntry (stagedBank s) r.plot
  e.valid && (boxRacks s r).all (fun k => e.rackMask.getLsbD (rackIndex s k)) && decide (r.memberMask &&& ~~~e.slotMask = 0)

/-- The lowest number of an open group. -/
def lowestGroup (s : State) : Nat := (minNat? ((openEntries s).map fun e => groupNumber (groupOf s e))).getD 0

/-- The open group with the most pages (R245); ties go to the lowest number. -/
def biggestGroup (s : State) : Nat :=
  let l := (openEntries s).map fun e => ((groupOf s e).pages, groupNumber (groupOf s e))
  (l.foldl (fun (b : Nat × Nat) x => if x.1 > b.1 || (x.1 = b.1 && (b.2 = 0 || x.2 < b.2)) then x else b) (0, 0)).2

/-- The office of R245: of those that can hold the pages, the one with the most free; ties go to the lowest. -/
def placeOffice (s : State) (inP outP : Nat) : Option Nat :=
  let l := (List.range 8).filter fun o => (fitRegions (officeOf s o).regions inP outP).isSome
  l.foldl (fun b o => match b with | none => some o | some x => if pagesFree s o > pagesFree s x then some o else b) none

/-- The spill area of R245 can be reserved. -/
def spillRoom (s : State) (h bytes : Nat) : Bool := halfServes s h && decide (sumNat ((memOf s h).mspill.map (·.2)) + bytes ≤ gib)

/-- The route outputs of R245. -/
def routeOutputs (s : State) (r : GroupRec) : List Nat :=
  let own := rackOf (srcRef s)
  (axesOf r).flatMap fun a => (bitsSet 16 r.routeLinks).flatMap fun k =>
    (if posOf s r own a + 1 = extent r a then [] else [portOfDir (2 * a + 1) k]) ++ (if posOf s r own a = 0 then [] else [portOfDir (2 * a + 2) k])

/-- The slots of an offset (R245). -/
def routeSlotsAt (r : GroupRec) (o : Nat) : List Nat := (List.range r.routeSlots).map fun j => j * (199 / r.routeSlots) + o

/-- An entry that blocks an offset on some route output. -/
def blocker (b : Bank) (outs : List Nat) (slots : List Nat) : Option SlotEntry :=
  outs.findSome? fun out => slots.findSome? fun k => let e := slotEntry b out k; if e.valid then some e else none

/-- The slot-map entries of a group (R245): none where no offset works or an output would pass 160 entries. -/
def placeSlots (b : Bank) (office : Nat) (r : GroupRec) (outs : List Nat) : Except EntryFail Bank :=
  if outs.isEmpty then .ok b
  else match (List.range (199 / r.routeSlots)).find? fun o => (blocker b outs (routeSlotsAt r o)).isNone with
    | none => .error (.busyClaimed, 12, ((blocker b outs (routeSlotsAt r 0)).map (·.route)).getD 0)
    | some o =>
      if outs.any fun out => decide (validSlots b out + r.routeSlots > 160) then .error badEntry
      else
        let put := fun (b : Bank) (k : Nat) => { b with slot := tset ⟨false, 0, 0⟩ b.slot k { valid := true, source := 256 + office, route := r.group } }
        .ok ((outs.flatMap fun out => (routeSlotsAt r o).map fun k => 200 * out + k).foldl put b)

/-- The lowest FREE entry of the group table. -/
def freeEntry (s : State) : Nat := ((List.range 64).find? fun e => decide ((groupOf s e).state = .free)).getD 0

/-- Step 7 of R244: the group is STAGED with its pages, its spill area and its slots. -/
def stageGroup (c : Ctx) (r : GroupRec) (members : List MemberEntry) (office : Nat) (b : Bank) (s : State) : State :=
  let e := freeEntry s
  let (inB, outB) := regionsFor s r
  let (inP, outP) := (pagesOf inB, pagesOf outB)
  let first := (fitRegions (officeOf s office).regions inP outP).getD (256, 256)
  let table := (memberSlots r).zip members
  let g : Group := { state := .staged, record := some (inForce s r), members := table, office := office, pages := inP + outP, stepBytesGiven := r.stepBytes,
                     inBase := 4096 * first.1, outBase := 4096 * first.2 }
  let s := setGroup s e g
  let s := modOffice s office fun x => { x with regions := x.regions ++ [(e, first.1, inP), (e, first.2, outP)].filter fun y => y.2.2 ≠ 0 }
  let s := modMem s (hemOfOffice office) fun m => { m with mspill := tset 0 m.mspill e inB }
  let s := stage c 1 b s
  { s with staging := { s.staging with opens := s.staging.opens ++ [{ record := r, members := members, office := office, pages := inP + outP, entry := e }] } }

/-- GROUP_OPEN (R244). -/
def groupOpenAns (c : Ctx) (r : GroupRec) (members : List MemberEntry) (s : State) : Ans :=
  if s.pm.standing then refuse .notReady s
  else staging c (fun s =>
    match (groupFields s r).find? fun x => !x.2 with
      | some x => badArg x.1 s
      | none =>
        if members.length ≠ membersHere r then badArg 64 s
        else match memberFields members with
          | some d => badArg d s
          | none =>
            if !plotAllows s r then refuse .notPermitted s
            else if (entryOf s r.group).isSome then busy 11 r.group s
            else if (openEntries s).length ≥ 64 then busy 11 (lowestGroup s) s
            else match placeOffice s (pagesOf (regionsFor s r).1) (pagesOf (regionsFor s r).2) with
              | none => busy 11 (biggestGroup s) s
              | some office =>
                if !spillRoom s (hemOfOffice office) (regionsFor s r).1 then busy 11 (biggestGroup s) s
                else if r.operator = 8 && (match dispatchGroup s r with | some (e, d) => (groupOf s e).office ≠ office || d.hostMask ≠ r.hostMask | none => true) then badArg 26 s
                else match placeSlots (stagedBank s) office r (routeOutputs s r) with
                  | .error (.busyClaimed, k, n) => busy k n s
                  | .error _ => badArg 22 s
                  | .ok b => okAns (stageGroup c r members office b s)) s

def execGroupOpen (c : Ctx) (g : GroupRec) (members : List MemberEntry) (s : State) : Host.Outcome State Fault Refusal :=
  .next (gmiRun c 0x500 (groupOpenAns c g members) s)

/-! ### Closing, member entries and reading (R243, R247, R334) -/

/-- The sender of a letter is a member of the group: its slot of this rack is in MEMBER_MASK (R330 step 6). A host or a rack manager has no slot. -/
def senderMember (s : State) (c : Ctx) (e : Nat) : Bool :=
  match (groupOf s e).record with
  | some r => isLetterBox c.box && rackOf c.src = rackOf (srcRef s) && r.memberMask.getLsbD (slotOf c.src)
  | none => false

/-- A STAGED group is taken out of the bank at once (R247). -/
def unstageGroup (e : Nat) (s : State) : State :=
  let n := groupNumber (groupOf s e)
  let s := { s with staging := { s.staging with
    opens := s.staging.opens.filter fun x => x.entry ≠ e, items := s.staging.items - 1, bank := removeSlots n s.staging.bank } }
  freeGroup e s

/-- GROUP_CLOSE (R247, R334). -/
def groupCloseAns (c : Ctx) (group : Nat) (s : State) : Ans :=
  let s := holderTouch c s
  let member := decide (authCode (granted s c) < 2)
  match entryOf s group with
  | none => if member then refuse .notPermitted s else badArg 0 s
  | some e =>
    if member && !senderMember s c e then refuse .notPermitted s
    else match (groupOf s e).state with
      | .staged => if s.staging.sealed.isSome then refuse .notReady s else okAns (unstageGroup e s)
      | .running =>
        if s.staging.sealed.isSome then refuse .notReady s
        else
          let s := modGroup s e fun g => { g with state := .closing }
          okAns { s with staging := { s.staging with closes := s.staging.closes ++ [(group, member)], items := s.staging.items + 1 } }
      | _ => okAns s

def execGroupClose (c : Ctx) (group : Nat) (s : State) : Host.Outcome State Fault Refusal := .next (gmiRun c 0x501 (groupCloseAns c group) s)

/-- GROUP_MEMBER (R243): only from AP-s, on slot s; the entry acts when the next step launches. -/
def groupMemberAns (c : Ctx) (group : Nat) (m : MemberEntry) (s : State) : Ans :=
  match c.box, entryOf s group with
  | .ap slot, some e =>
    if !(match (groupOf s e).record with | some r => r.memberMask.getLsbD slot | none => false) then refuse .notPermitted s
    else if m.resultBase % 4096 ≠ 0 then badArg 4 s
    else if m.noticeBase % 4096 ≠ 0 then badArg 12 s
    else okAns (modGroup s e fun g => { g with pendingMembers := tput g.pendingMembers slot m })
  | _, _ => refuse .notPermitted s

def execGroupMember (c : Ctx) (group : Nat) (e : MemberEntry) (s : State) : Host.Outcome State Fault Refusal :=
  .next (gmiRun c 0x502 (groupMemberAns c group e) s)

/-- GROUP_READ: the group record and GRP_STATUS. -/
def groupReadAns (group : Nat) (s : State) : Ans :=
  match (entryOf s group).bind fun e => (openedRecord (groupOf s e)).map fun r => (e, r) with
  | none => badArg 0 s
  | some (e, r) => okWith (groupRecBytes r ++ leBytes 8 (grpStatus s e)) 0 s

def execGroupRead (c : Ctx) (group : Nat) (s : State) : Host.Outcome State Fault Refusal := .next (gmiRun c 0x503 (groupReadAns group) s)

/-! ### Programs (R233–R236) -/

/-- Step 2 of R235: the first header or phase field that fails. -/
def programFields (p : Program) : Option Nat :=
  if p.slot + p.span > 64 || p.slot > 63 then some 2
  else if p.span < 1 || p.span > 8 || p.phases.length < 1 || p.phases.length > 8 then some 3
  else if p.code.length < 1 || p.code.length > 1024 * p.span then some 4
  else ((List.range p.phases.length).zip p.phases).findSome? fun (i, h) =>
    let k := 32 + 48 * i
    if h.entry ≥ 2 ^ 13 then some k
    else if h.bundles = 0 || h.bundles > 65535 then some (k + 2)
    else if h.inOff ≥ 2 ^ 25 || h.inOff % 256 ≠ 0 then some (k + 4)
    else if h.inStride ≥ 2 ^ 25 || (h.bundles > 1 && h.inStride % 256 ≠ 0) then some (k + 8)
    else if h.inSize ≥ 2 ^ 25 then some (k + 12)
    else if h.outOff ≥ 2 ^ 25 || h.outOff % 256 ≠ 0 then some (k + 16)
    else if h.outStride ≥ 2 ^ 16 || (h.bundles > 1 && h.outStride % 256 ≠ 0) then some (k + 20)
    else if h.outSize < 256 || h.outSize > 4096 || h.outSize % 256 ≠ 0 then some (k + 22) else none

/-- An instruction that a load refuses (R209, R210, R235). -/
def instrBad (w : Word64) : Bool :=
  let v := w.toNat
  let op := v % 256
  let fmt := bitsOf v 31 28
  op > 0x1A || fmt > 11 || bitsOf v 47 41 ≠ 0 || bitsOf v 33 32 = 3 || ((op = 0x02 || op = 0x12) && isMx fmt)

/-- LOOP and ENDL pair up, nested at most 4 deep: the index at which they fail to, from depth `d` on. -/
def loopsFail : List Word64 → Nat → Nat → Option Nat
  | [], i, d => if d = 0 then none else some (i - 1)
  | w :: r, i, d =>
    if w.toNat % 256 = 0x16 then (if d ≥ 4 then some i else loopsFail r (i + 1) (d + 1))
    else if w.toNat % 256 = 0x17 then (if d = 0 then some i else loopsFail r (i + 1) (d - 1))
    else loopsFail r (i + 1) d

/-- An instruction after a routine's last DONE that belongs to no other routine (R235). -/
def afterDone (p : Program) (i : Nat) : Bool :=
  let rs := p.phases.map fun h => (h.entry, h.entry + (routineAt p h.entry).length)
  !(rs.any fun r => decide (r.1 ≤ i) && decide (i < r.2)) && rs.any fun r => decide (r.2 ≤ i)

/-- Step 3 of R235: the byte offset of what fails. -/
def programCode (p : Program) : Option Nat :=
  let base := 32 + 48 * p.phases.length
  match ((List.range p.code.length).zip p.code).find? fun x => instrBad x.2 with
  | some x => some (base + 8 * x.1)
  | none => match loopsFail p.code 0 0 with
    | some i => some (base + 8 * i)
    | none => match ((List.range p.phases.length).zip p.phases).find? fun x => (routineLen (p.code.drop x.2.entry) 0).isNone with
      | some x => some (32 + 48 * x.1)
      | none => ((List.range p.code.length).find? (afterDone p)).map fun i => base + 8 * i

/-- Loaded programs of a bank that hold one of the slots `first` to `first + n − 1`. -/
def programsIn (b : Bank) (first n : Nat) : List (Nat × Program) :=
  b.prog.filterMap fun x => match x.2 with
    | some p => if x.1 < first + n && first < x.1 + p.span then some (x.1, p) else none
    | none => none

/-- The lowest open group that binds one of some programs (R236). -/
def binder (s : State) (ps : List (Nat × Program)) : Option Nat :=
  minNat? ((openEntries s).filterMap fun e => match (groupOf s e).record with
    | some r => if r.operator = 0xFF && ps.any fun x => x.2.progId = r.progId then some r.group else none
    | none => none)

/-- INFO of slot 3's log entry (R358). -/
def programInfo (p : Program) : Nat := p.progId % 65536 + p.version % 2 ^ 48 * 65536

/-- PROG_LOAD (R235, R236). -/
def progLoadAns (c : Ctx) (p : Program) (s : State) : Ans :=
  staging c (fun s =>
    if p.slot < 32 then refuse .notPermitted s
    else match programFields p with
      | some d => badArg d s
      | none => match programCode p with
        | some d => badArg d s
        | none =>
          let b := stagedBank s
          let old := programsIn b p.slot p.span
          match binder s (old ++ programsIn s.bank p.slot p.span) with
          | some n => busy 11 n s
          | none =>
            let prog := tput (old.foldl (fun t x => tdel t x.1) b.prog) p.slot (some p)
            let s := stage c 1 { b with prog := prog } s
            okAns { s with staging := { s.staging with progDigests := s.staging.progDigests ++ [(programInfo p, sha (programBytes p))] } }) s

def execProgLoad (c : Ctx) (p : Program) (s : State) : Host.Outcome State Fault Refusal := .next (gmiRun c 0x504 (progLoadAns c p) s)

/-- PROG_UNLOAD (R236). -/
def progUnloadAns (c : Ctx) (slot : Nat) (s : State) : Ans :=
  staging c (fun s =>
    if slot < 32 then refuse .notPermitted s
    else
      let b := stagedBank s
      match tget none b.prog slot with
      | none => badArg 0 s
      | some p => match binder s [(slot, p)] with
        | some n => busy 11 n s
        | none =>
          let s := stage c 1 { b with prog := tdel b.prog slot } s
          okAns { s with staging := { s.staging with progDigests := s.staging.progDigests ++ [(programInfo p, sha (leBytes 1 slot))] } }) s

def execProgUnload (c : Ctx) (slot : Nat) (s : State) : Host.Outcome State Fault Refusal := .next (gmiRun c 0x505 (progUnloadAns c slot) s)

end Sys2Proof.Machine
end

