-- ==== Sys2Proof/Machine/Commit.lean ====
section
/-! DEFINITION. COMMIT, draining and the switch of the staging bank, DISCARD, and the assignment of the grid (R200–R203, R247, R333–R335, R475). -/

namespace Sys2Proof.Machine

/-! ### COMMIT (R203, R335) -/

/-- Nothing is staged. -/
def bankEmpty (s : State) : Bool := s.staging.holder.isNone && s.staging.closes.isEmpty

/-- Windows that the staged bank newly enables (R276). -/
def newWindows (s : State) : List Nat :=
  if s.staging.holder.isNone then [] else [0, 1, 2, 3].filter fun w => (windowRec s.staging.bank w).enable && !(windowRec s.bank w).enable

/-- The 16-byte response: EFFECT_ROUND and PENDING. -/
def commitResponse (effect pending : Nat) : List Byte := leBytes 8 effect ++ leBytes 2 pending ++ zeros 6

/-- COMMIT (R335); the manual gives no EFFECT_ROUND where nothing takes effect: it is a free value. -/
def commitAns (c : Ctx) (atRound : Nat) (probeOk force : Bool) (s : State) : Ans :=
  let s := holderTouch c s
  if force && authCode (granted s c) < 3 then refuse .notPermitted s
  else if s.staging.sealed.isSome then refuse .notReady s
  else match (if atRound = 0 then none else timedRefusal atRound s) with
    | some .badArgument => badArg 0 s
    | some st => refuse st s
    | none =>
      if bankEmpty s then let (f, s) := drawFree s; okWith (commitResponse f 0) 0 s
      else if !(newWindows s).isEmpty && !cxlUp s then refuse .notReady s
      else if !(newWindows s).isEmpty && !probeOk then
        -- a probe without completion within 1 ms or with an error, one of the two (R277)
        let (f, s) := drawFree s; refuse .notReady (cnt1 (if f % 2 = 0 then 6 else 7) s)
      else
        let n := pendingRemovals s
        if n > 0 && !force then
          let (f, s) := drawFree s
          { status := .drainRequired, response := commitResponse f n, post := { s with route := { s.route with draining := true, drainArmed := true } } }
        else
          let (r, s) := if atRound = 0 then takeBoundary s else (atRound, s)
          okWith (commitResponse r n) 0 { s with staging := { s.staging with sealed := some r, sealedTimed := decide (atRound ≠ 0), forced := force } }

def execCommit (c : Ctx) (atRound : Nat) (probeOk : Bool) (s : State) : Host.Outcome State Fault Refusal :=
  .next (gmiRun c 0x102 (commitAns c atRound probeOk false) s)

/-- COMMIT with FORCE (R203): operator authority, drained or not. -/
def execCommitForce (c : Ctx) (atRound : Nat) (probeOk : Bool) (s : State) : Host.Outcome State Fault Refusal :=
  .next (gmiRun c 0x102 (commitAns c atRound probeOk true) s)

/-! ### The switch (R200) -/

/-- A letter that a forced switch discards at an output, not started there (R203). -/
def forceDrops (s : State) (rs : List Removal) (h : Header) (port : Nat) : Bool :=
  rs.any fun r => match r with
    | .rack i => rackOf h.dest = i
    | .link dir link => port = portOfDir dir link
    | .plot n => h.plot = n && plotRemoves s n h.dest
    | _ => false

/-- Letters queued and not started that a forced switch names are discarded and counted as DRAIN_FORCED (R203). -/
def forceDrain (s : State) : State :=
  let rs := (removals s).filter fun r => !drained s r
  let one := fun (t : State) (x : Nat × Letter) =>
    let hit := fun (y : Send) => !y.done && y.sent = 0 && y.sess.isNone && forceDrops s rs x.2.hdr y.port
    if x.2.sends.any hit then
      let t := (x.2.sends.filter hit).foldl (fun (t : State) y => cnt1 (idPort 29 y.port) t) t
      settle x.1 { x.2 with sends := x.2.sends.map fun y => if hit y then { y with done := true } else y } t
    else t
  let s' := s.sw.letters.foldl one s
  let hits := fun (p : Nat) (l : OwnLetter) => l.sent = 0 && forceDrops s rs (ownHeader l) p
  let own := fun (t : State) (x : Nat × Egress) =>
    if x.2.own.any (hits x.1) then
      cntAdd (idPort 29 x.1) (x.2.own.filter (hits x.1)).length (modEgress t x.1 fun e => { e with own := e.own.filter fun l => !hits x.1 l })
    else t
  let s' := s.sw.egress.foldl own s'
  let s' := s.sw.officeRoutes.foldl (fun t x => cntAdd (idPort 29 x.1) (x.2.2.filter (hits x.1)).length t) s'
  { s' with sw := { s'.sw with officeRoutes := s'.sw.officeRoutes.map fun x => (x.1, x.2.1, x.2.2.filter fun l => !hits x.1 l) } }

/-- The windows as the new bank has them (R276, R277): enabling clears DISABLED_TIMEOUT; a change raises vector 6. -/
def switchWindows (old : Bank) (s : State) : State :=
  [0, 1, 2, 3].foldl (fun s w =>
    let a := windowRec old w
    let b := windowRec s.bank w
    if a = b then s
    else windowChanged (modWindow s w fun x => if b.enable && !a.enable then { disabledLink := !cxlUp s } else x)) s

/-- The capture ring restarts in its new place (R279, R287), where IN_USE of a window changes with vector 6 (R275, R276), and a changed session samples anew (R164). -/
def switchCapture (old : Bank) (s : State) : State :=
  let o := old.regs
  let n := s.bank.regs
  let s := if o.captureGib = n.captureGib && o.captureHalf = n.captureHalf && o.captureTier = n.captureTier then s else restartRing s
  let s := if o.captureTier = n.captureTier then s else windowChanged s
  (List.range 8).foldl (fun s k => if copyOf old k = copyOf s.bank k then s else { s with sw := { s.sw with copySeen := tdel s.sw.copySeen k } }) s

/-- Staged groups run from the switch on (R246); their streams start at SSEQ 0 (R193). -/
def openStaged (l : List StagedOpen) (s : State) : State :=
  l.foldl (fun s x => if (groupOf s x.entry).state = .staged then openStreams x.record.group (modGroup s x.entry fun g => { g with state := .running }) else s) s

/-- The whole bank switches at its boundary (R200, R247, R335, R357). -/
def switchBank (r : Nat) (s : State) : State :=
  let st := s.staging
  let s := if st.sealedTimed then logTimed 0x0102 s else s
  let s := if st.forced then forceDrain s else s
  let old := s.bank
  let s := if st.holder.isSome then { s with bank := st.bank } else s
  let s := (openEntries s).foldl (fun s e => if (groupOf s e).state ≠ .staged && plotCloses s s.bank e then closeGroup e .notPermitted s else s) s
  let s := st.closes.foldl (fun s x => match entryOf s x.1 with | some e => if (groupOf s e).state = .closing then closeGroup e .ok s else s | none => s) s
  let s := openStaged st.opens (switchCapture old (switchWindows old s))
  let s := fixCtle (latchFallback s)
  -- a grandmaster's RATE_ADJ is the GM_TRIM committed (R40)
  let s := if s.mer.state = .master then { s with mer := { s.mer with rate := s.bank.regs.gmTrim * thetaUnit, rateNext := s.bank.regs.gmTrim * thetaUnit } } else s
  let s := st.progDigests.foldl (fun s x => extend 3 x.1 x.2 s) s
  let s := recomputeLedger s
  let (f, s) := drawFree s
  report 0x020F (match st.holder with | some b => boxNo b | none => f) (leBytes 8 r ++ leBytes 4 st.items)
    { s with staging := {}, route := { s.route with draining := false, drainArmed := false } }

/-- BANK_SWITCH (R200): a sealed bank whose boundary has come. -/
def execBankSwitch (s : State) : Host.Outcome State Fault Refusal :=
  match s.staging.sealed with
  | some r => if roundNo s ≥ r && !s.ident.skeleton then .next (switchBank r s) else .next s
  | none => .next s

/-- MEMBER_CLOSE_COMMIT (R334): a close under member authority commits alone, at a boundary, once its drain condition holds; it leaves the bank's
items, and the ledger's state slots follow the committed contents (R357). -/
def execMemberCloseCommit (group : Nat) (s : State) : Host.Outcome State Fault Refusal :=
  match entryOf s group with
  | none => .next s
  | some e =>
    if (groupOf s e).state = .closing && s.staging.closes.contains (group, true) && groupDrained s e && s.mer.cycle = 0 then
      .next (recomputeLedger (closeGroup e .ok { s with staging := { s.staging with
        closes := s.staging.closes.filter fun x => x.1 ≠ group, items := s.staging.items - 1 } }))
    else .next s

/-! ### DISCARD, expiry and status (R333–R335) -/

/-- DISCARD (R335). -/
def discardAns (c : Ctx) (s : State) : Ans :=
  let s := holderTouch c s
  if bankEmpty s then okAns s
  else if s.staging.holder ≠ some c.box && authCode (granted s c) < 3 then refuse .notPermitted s
  else match s.staging.sealed with
    | some r => if r ≤ roundNo s || (r = roundNo s + 1 && cyclesLeft s < 128) then refuse .notReady s else okAns (discardStaging s)
    | none => okAns (discardStaging s)

def execDiscard (c : Ctx) (s : State) : Host.Outcome State Fault Refusal := .next (gmiRun c 0x103 (discardAns c) s)

/-- STAGING_BANK_EXPIRY (R333): 2²⁰ Rounds without a staging command, COMMIT or DISCARD from the holder; a sealed
bank never expires (R473). -/
def execStagingBankExpiry (s : State) : Host.Outcome State Fault Refusal :=
  match s.staging.holder with
  | some b => if s.staging.sealed.isNone && roundNo s ≥ s.staging.lastRound + 2 ^ 20 then .next (report 0x020E (boxNo b) [] (discardStaging s)) else .next s
  | none => .next s

/-- STAGE_STATUS: holder box, items staged, DRAINING, sealed Round. What stands for no holder and for no sealed Round is a free value. -/
def stageStatusAns (s : State) : Ans :=
  let (f, s) := drawFree s
  let (g, s) := drawFree s
  okWith (leBytes 8 (match s.staging.holder with | some b => boxNo b | none => f) ++ leBytes 8 s.staging.items ++ leBytes 8 (bit s.route.draining) ++
    leBytes 8 (s.staging.sealed.getD g)) 0 s

def execStageStatus (c : Ctx) (s : State) : Host.Outcome State Fault Refusal := .next (gmiRun c 0x104 stageStatusAns s)

/-! ### The grid (R28, R121, R183, R475) -/

/-- The checks of R475 in order: the offset of the first failure. -/
def gridFail (l : List Nat) : Option Nat :=
  let v := fun i => l.getD i 0
  if l.length ≠ 9 then some 9
  else match [3, 4, 5].find? fun i => decide (v i < 1) || decide (v i > 16) with
    | some i => some i
    | none =>
      if v 3 * v 4 * v 5 > 128 then some 5
      else match [0, 1, 2].find? fun i => decide (v i ≥ v (i + 3)) with
        | some i => some i
        | none => ([0, 1, 2].find? fun i => decide (v (i + 6) ≥ v (i + 3))).map (· + 6)

/-- GRID_ASSIGN (R475). -/
def gridAssignAns (body : List Nat) (s : State) : Ans :=
  if s.ident.learned || s.gmi.gridPending.isSome then refuse .notPermitted s
  else match gridFail body with
    | some d => badArg d s
    | none => okAns { s with gmi := { s.gmi with gridPending := some body, gridRound := roundNo s } }

def execGridAssign (c : Ctx) (body : List Nat) (s : State) : Host.Outcome State Fault Refusal := .next (gmiRun c 0x200 (gridAssignAns body) s)

/-- GRID_ASSIGN_EFFECT (R357, R475): the values take effect together at the next boundary; ledger slot 6 is extended. -/
def execGridAssignEffect (s : State) : Host.Outcome State Fault Refusal :=
  match s.gmi.gridPending with
  | none => .next s
  | some l =>
    if roundNo s ≤ s.gmi.gridRound then .next s
    else
      let v := fun i => l.getD i 0
      let s := { s with
        ident := { s.ident with learned := true, x := v 0, y := v 1, z := v 2, lenX := v 3 - 1, lenY := v 4 - 1, lenZ := v 5 - 1,
                                dlX := v 6, dlY := v 7, dlZ := v 8 },
        gmi := { s.gmi with gridPending := none } }
      .next (recomputeLedger (extend 6 0 (l.map fun n => BitVec.ofNat 8 n) s))

end Sys2Proof.Machine
end

