-- ==== Sys2Proof/Machine/Trust.lean ====
section
/-! DEFINITION. The Seal (spec/13): firmware slots and images, the boot chain, anti-rollback, attestation, the fabric authority, the runtime
checks and the test access port. -/

namespace Sys2Proof.Machine

/-- SEAL_HALT (R343): dark, FAULT_N asserted, no key in the clear. -/
def sealHalt (s : State) : State :=
  assertFault { s with trust := { s.trust with halt := true, keysPresent := false, wrapKey := none, storeKey := none }, ident := { s.ident with dark := true } }

/-! ### Firmware slots and images (R350–R355) -/

/-- A firmware slot. -/
def fwSlot (s : State) (k : Nat) : FwSlot := if k = 0 then s.trust.slot0 else s.trust.slot1

/-- A Seal area record is written (R345): its older copy first, then the other, each with the next generation number. -/
def sealWrite (k : Nat) (s : State) : State :=
  let (a, b) := tget (0, 0) s.trust.copies k
  let n := max a b
  { s with trust := { s.trust with copies := tput s.trust.copies k (if a ≤ b then (n + 1, n + 2) else (n + 2, n + 1)) } }

/-- A firmware slot changed; its state and TRIES stand in the boot control record (R345, R352). -/
def setFw (k : Nat) (f : FwSlot) (s : State) : State :=
  let old := fwSlot s k
  let s := { s with trust := if k = 0 then { s.trust with slot0 := f } else { s.trust with slot1 := f } }
  if old.state = f.state && old.tries = f.tries then s else sealWrite 0 s

/-- Bytes of a slot's record in the boot control record, as a Seal area write counts them (R345, R467). -/
def fwRecordBytes : Nat := 4

/-- The slot that is not ACTIVE (R351). -/
def inactiveSlot (s : State) : Nat := if s.trust.slot0.state = .active then 1 else 0

/-- The image of manufacture with nothing written over it. -/
def pristine (f : FwSlot) : Bool := f.factory && f.patched.isEmpty

/-- A byte of a slot's image: as written, else as manufactured, else erased. -/
def fwByte (f : FwSlot) (a : Nat) : Byte :=
  if f.factory && !(f.patched.any fun r => decide (r.1 ≤ a) && decide (a < r.1 + r.2)) then
    (if a < 4096 then (fit 4096 Config.factoryHeader).getD a 0 else Config.factoryBody (a - 4096))
  else mget f.bytes a

/-- `n` bytes of a slot's image from an offset. -/
def fwRead (f : FwSlot) (o n : Nat) : List Byte := (List.range n).map fun i => fwByte f (o + i)

/-- An image's header (R350). -/
def fwHeader (f : FwSlot) : List Byte := if pristine f then fit 4096 Config.factoryHeader else fwRead f 0 4096

/-- A section of a header (R350). -/
def fwSection (h : List Byte) (e : Nat) : FwSection :=
  let o := 128 + 16 * e
  { type := fieldAt h o 1, offset := fieldAt h (o + 4) 4, length := fieldAt h (o + 8) 4,
    reservedZero := fieldAt h (o + 1) 3 = 0 && fieldAt h (o + 12) 4 = 0 }

def fwSections (h : List Byte) : List FwSection := (List.range (fieldAt h 20 1)).map (fwSection h)

def fwStep (f : FwSlot) : Nat := fieldAt (fwHeader f) 6 1
def fwVersionOf (f : FwSlot) : Nat := fieldAt (fwHeader f) 8 8
def fwLength (f : FwSlot) : Nat := fieldAt (fwHeader f) 16 4

/-- The bytes of an image's section of a TYPE. -/
def fwSectionBytes (t : Nat) (f : FwSlot) : List Byte :=
  if pristine f then Config.factorySection t
  else match (fwSections (fwHeader f)).find? (·.type = t) with
    | some x => fwRead f x.offset x.length
    | none => []

/-- The TYPE 1 section's bytes. -/
def fwLibrary (f : FwSlot) : List Byte := fwSectionBytes 1 f

/-- Two sections do not overlap. -/
def apart (a b : FwSection) : Bool := a.offset + a.length ≤ b.offset || b.offset + b.length ≤ a.offset

def allApart : List FwSection → Bool
  | [] => true
  | x :: r => r.all (apart x) && allApart r

/-- The section rules of R350. -/
def sectionsOk (l : List FwSection) (len : Nat) : Bool :=
  l.all (fun x => x.reservedZero && decide (x.type ≤ 3) && decide (4096 ≤ x.offset) && decide (x.offset % 64 = 0) && decide (x.offset + x.length ≤ len)) &&
  allApart l && (l.filter (·.type = 0)).length = 1 && (l.filter (·.type = 1)).length = 1 &&
  l.all (fun x => decide (x.type ≠ 0) || decide (x.length ≤ 6291456))

/-- The chain of a header: the signer, and its issuer where those bytes are not all 0. -/
def fwChain (h : List Byte) : List Cert :=
  let second := sliceAt h 2136 1112
  certOf (sliceAt h 1024 1112) :: (if second = zeros 1112 then [] else [certOf second])

/-- Check 1 of R355. -/
def fwHeaderOk (f : FwSlot) : Bool :=
  let h := fwHeader f
  fieldAt h 0 4 = 0x4C4B5A46 && fieldAt h 4 2 = 1 && decide (fieldAt h 6 1 ≤ 63) && fieldAt h 7 1 = 0 && fieldAt h 21 43 = 0 &&
  decide (1 ≤ fieldAt h 20 1) && decide (fieldAt h 20 1 ≤ 16) && fieldAt h (128 + 16 * fieldAt h 20 1) (256 - 16 * fieldAt h 20 1) = 0 &&
  fieldAt h 384 640 = 0 && fieldAt h 3248 336 = 0 && decide (8192 ≤ fwLength f) && decide (fwLength f ≤ 33554432) && (f.factory || decide (fwLength f ≤ f.written)) &&
  sectionsOk (fwSections h) (fwLength f)

/-- Check 2 of R355, revocation apart: the signer, the chain that ends at the Lerlek root, and the signature over the header. -/
def fwSigned (f : FwSlot) : Bool :=
  let h := fwHeader f
  let chain := fwChain h
  match chain.head?, chain.getLast? with
  | some signer, some last =>
    chain.all certFormed && signer.kind = 2 && signer.signFw && chainLinked chain &&
    last.issuerDigest = keyDigest Config.rootExp Config.rootModulus && signedBy Config.rootExp Config.rootModulus last &&
    Config.rsaVerify signer.pubExp signer.modulus (h.take 3584) (sliceAt h 3584 512)
  | _, _ => false

/-- A digest of the signer chain of an image is on the revocation list (R355 check 2, R363). -/
def signerRevoked (s : State) (f : FwSlot) : Bool :=
  s.trust.revoked.any fun d => (fwChain (fwHeader f)).any fun c => c.subjectDigest = d || c.issuerDigest = d

/-- The first check of R355 that an image fails, as the status it returns; the image of manufacture, with nothing written over it, passes check 1, the
signatures of check 2 and check 3. -/
def imageFails (s : State) (f : FwSlot) : Option Status :=
  if !pristine f && !fwHeaderOk f then some .badArgument
  else if signerRevoked s f || (!pristine f && !fwSigned f) then some .refusedSignature
  else if !pristine f && sliceAt (fwHeader f) 64 64 ≠ sha (fwRead f 4096 (fwLength f - 4096)) then some .refusedSignature
  else if fwStep f < s.trust.fuses then some .staleSequence
  else none

/-- FIRMWARE_EVENT (12, event codes): the opcode and the status. -/
def firmwareEvent (op : Nat) (st : Status) (s : State) : State := reportSt 0x0210 op st (leBytes 1 (statusCode st)) s

/-- FW_WRITE (R337, R351): the inactive slot; a write at OFFSET 0 erases it first. -/
def fwWriteAns (offset : Nat) (data : List Byte) (s : State) : Ans :=
  let k := inactiveSlot s
  let f := fwSlot s k
  if offset % 64 ≠ 0 || offset + data.length > 33554432 || offset ≥ 33554432 then badArg 0 s
  else if s.trust.slot0.state = .trial || s.trust.slot1.state = .trial then refuse .notReady s
  else if (offset = 0 || f.state = .verified) && !holdupOk s fwRecordBytes then refuse .noHoldup s
  else
    let f : FwSlot := if offset = 0 then { state := .written } else { f with state := if f.state = .verified then .written else f.state }
    okAns (setFw k { f with
      written := max f.written (offset + data.length), bytes := mwrite f.bytes offset data,
      patched := if f.factory then f.patched ++ [(offset, data.length)] else [] } s)

def execFwWrite (c : Ctx) (offset : Nat) (data : List Byte) (s : State) : Host.Outcome State Fault Refusal :=
  .next (gmiRun c 0x900 (fwWriteAns offset data) s)

/-- FW_VERIFY (R355): a slot that passes becomes VERIFIED; TRIAL and FAILED leave only as R352 says. -/
def fwVerifyAns (s : State) : Ans :=
  let k := inactiveSlot s
  let f := fwSlot s k
  match imageFails s f with
  | some st => refuse st (firmwareEvent 0x901 st s)
  | none =>
    if f.state = .trial || f.state = .failed || f.state = .verified then okAns (firmwareEvent 0x901 .ok s)
    else if !holdupOk s fwRecordBytes then refuse .noHoldup (firmwareEvent 0x901 .noHoldup s)
    else okAns (firmwareEvent 0x901 .ok (setFw k { f with state := .verified } s))

def execFwVerify (c : Ctx) (s : State) : Host.Outcome State Fault Refusal := .next (gmiRun c 0x901 fwVerifyAns s)

/-- FW_ACTIVATE (R354): the slot is TRIAL with TRIES 0, and the postmaster restarts at the next boundary. -/
def fwActivateAns (s : State) : Ans :=
  let k := inactiveSlot s
  let f := fwSlot s k
  if f.state ≠ .verified then refuse .notReady (firmwareEvent 0x902 .notReady s)
  else if !holdupOk s fwRecordBytes then refuse .noHoldup (firmwareEvent 0x902 .noHoldup s)
  else
    let s := firmwareEvent 0x902 .ok (setFw k { f with state := .trial, tries := 0 } s)
    okAns (restartNext s)

def execFwActivate (c : Ctx) (s : State) : Host.Outcome State Fault Refusal := .next (gmiRun c 0x902 fwActivateAns s)

/-! ### Anti-rollback (R356) -/

/-- The fuses that read as blown: two cells of three, or all, of their group (R356). -/
def fusedCount (cells : Tbl Nat) : Nat := ((List.range 63).filter fun k => decide (tget 0 cells k ≥ 2)).length

/-- A burn goes on by one fuse, in order, while VIN_60 is at or above 54 V; else what is left of it is deferred (R356). -/
def burnWork (s : State) : State :=
  match s.trust.burning with
  | none => s
  | some t =>
    if t ≤ s.trust.fuses then { s with trust := { s.trust with burning := none, burnDue := false } }
    else if s.sens.vinMv ≥ 54000 then
      let done := decide (t ≤ s.trust.fuses + 1)
      { s with trust := { s.trust with
          cells := tset 0 s.trust.cells s.trust.fuses 3, fuses := s.trust.fuses + 1, burning := if done then none else some t, burnDue := !done } }
    else { s with trust := { s.trust with burning := none, burnDue := true, burnRound := roundNo s } }

/-- A burn up to a STEP begins (R356), its fuses blown one at a boundary, well within 100 ms. -/
def burn (step : Nat) (s : State) : State :=
  if step ≤ s.trust.fuses then { s with trust := { s.trust with burning := none, burnDue := false } }
  else burnWork { s with trust := { s.trust with burning := some (min 63 step), burnDue := true } }

/-- The ACTIVE slot. -/
def activeSlot (s : State) : Option Nat := [0, 1].find? fun k => (fwSlot s k).state = .active

/-- A deferred burn is tried again. -/
def retryBurn (s : State) : State :=
  match activeSlot s with
  | some k => if s.trust.burnDue then burn (fwStep (fwSlot s k)) s else s
  | none => s

/-- TRIAL_CONFIRM (R352, R354, R356): 2²² Rounds of service without a restart. -/
def trialConfirm (s : State) : State :=
  let k := s.trust.bootSlot
  let f := fwSlot s k
  let g := fwSlot s (1 - k)
  if f.state ≠ .trial || s.pm.absent || s.ident.boot < 2 || roundNo s < s.trust.serviceSince + 2 ^ 22 then s
  else if !holdupOk s (2 * fwRecordBytes) then s
  else
    let s := setFw k { f with state := .active } s
    let s := if g.state = .active then setFw (1 - k) { g with state := .verified } s else s
    burn (fwStep f) s

def execTrialConfirm (s : State) : Host.Outcome State Fault Refusal := .next (trialConfirm s)

/-- FUSE_BURN_RETRY (R356): every 2²² Rounds. -/
def execFuseBurnRetry (s : State) : Host.Outcome State Fault Refusal :=
  if s.trust.burnDue && s.trust.burning.isNone && roundNo s ≥ s.trust.burnRound + 2 ^ 22 then .next (retryBurn s) else .next s

/-! ### The boot chain (R348, R349, R353, R357) -/

/-- A change of the boot control record outside a command: the hold-up check first, NO_HOLDUP reported where it fails (R467). -/
def bootRecord (k : Nat) (f : FwSlot) (s : State) : State :=
  if holdupOk s fwRecordBytes then setFw k f s else firmwareEvent 0x902 .noHoldup s

/-- A slot refused for boot (R353). -/
def markFailed (k : Nat) (st : Status) (s : State) : State :=
  firmwareEvent 0x902 st (bootRecord k { fwSlot s k with state := .failed } s)

/-- The slots that may boot, in order: a TRIAL slot with TRIES below 2, then ACTIVE, then VERIFIED (R353). -/
def bootOrder (s : State) : List Nat :=
  let pick := fun (p : FwSlot → Bool) => [0, 1].filter fun k => p (fwSlot s k)
  pick (fun f => f.state = .trial && decide (f.tries < 2)) ++ pick (·.state = .active) ++ pick (·.state = .verified)

/-- The slots of the boot record after step 1 or 2 of R353. -/
def countTrial (s : State) : State :=
  [0, 1].foldl (fun s k =>
    let f := fwSlot s k
    if f.state ≠ .trial then s
    else if f.tries < 2 then bootRecord k { f with tries := f.tries + 1 } s
    else markFailed k .refusedSignature s) s

/-- Stage 3 and 4: the first slot of an order whose image passes; each that fails is marked FAILED. -/
def chooseSlot : List Nat → State → Option Nat × State
  | [], s => (none, s)
  | k :: r, s =>
    match imageFails s (fwSlot s k) with
    | none => (some k, s)
    | some .staleSequence => chooseSlot r (markFailed k .staleSequence s)
    | some _ => chooseSlot r (markFailed k .refusedSignature s)

/-- The contents of the Seal's lists as CERT_READ returns them. -/
def authorityBytes (s : State) : List Byte :=
  match s.trust.authority with
  | some (x, m) => leBytes 4 x ++ zeros 4 ++ fit 512 m
  | none => []

def anchorBytes (s : State) : List Byte := s.trust.anchors.flatMap fun a => leBytes 1 a.kind ++ zeros 3 ++ leBytes 4 a.pubExp ++ fit 512 a.modulus

def revokedBytes (s : State) : List Byte := s.trust.revoked.flatMap (fit 32)

/-- Ledger slots 4 and 5 are extended (R357). -/
def extendAuthority (s : State) : State :=
  extend 4 0 (match s.trust.authority with | some (x, m) => fit 64 (keyDigest x m) | none => zeros 64) s

def extendLists (s : State) : State := extend 5 0 (sha (anchorBytes s ++ revokedBytes s)) s

/-- Stage 4: sections are streamed into their targets (R349): the firmware into the RAM of each channel, from its base; library, microcode and
defaults only after a reset, as a restart finds offices and tiles in service. -/
def loadSections (f : FwSlot) (s : State) : State :=
  let code := fwSectionBytes 0 f
  let s := { s with pm := { s.pm with rams := [0, 1, 2].map fun c => (c, mwrite [] 0 code) }, trust := { s.trust with codeDigest := sha code } }
  if s.ident.boot ≠ 0 then s
  else { s with trust := { s.trust with sections := [1, 2, 3].map fun t => (t, fwSectionBytes t f) } }

/-- Stage 5: the image in a slot is measured and runs (R349, R357); LAST_SEQ starts at SEQ_FLOOR (R364). -/
def runImage (k : Nat) (s : State) : State :=
  let f := fwSlot s k
  let s := { s with trust := { s.trust with bootSlot := k, fwVersion := fwVersionOf f, step := fwStep f, keysPresent := true, serviceSince := roundNo s },
                    pm := { s.pm with chainDone := true }, gmi := { s.gmi with lastSeq := s.gmi.seqFloor } }
  let s := loadSections f s
  let s := extend 2 0 (sha (fwLibrary f)) (extend 1 (fwVersionOf f) (sha (fwHeader f)) (extend 0 0 (fit 64 Config.bootRom) s))
  retryBurn (recomputeLedger (extendLists (extendAuthority s)))

/-- What stage 5 releases after a reset (R349, R463): offices, tiles, laser units; a restart finds them in service. -/
def releaseUnits (s : State) : State :=
  if s.ident.boot ≠ 0 then s
  else
    let s := laserUnits true { s with ident := { s.ident with boot := 1 } }
    lightUp ((List.range 8).foldl (fun s o => modOffice s o fun x => { x with state := .ready }) s)

/-- The boot chain may run: after a reset, or once in a postmaster restart, with the module started. -/
def bootDue (s : State) : Bool :=
  (s.ident.boot = 0 || (s.pm.absent && !s.pm.chainDone)) && s.tray.start = .running && !s.clk.pwrReset && !s.clk.rstLow && !s.clk.posBad && !s.clk.refTimeout &&
  !s.clk.halt && !s.trust.halt

/-- BOOT_CHAIN (R348, R349): stages 1–5. -/
def bootChain (katOk pufOk romAgree romMasked : Bool) (s : State) : State :=
  if !bootDue s then s
  else
    let s := if romMasked then cnt1 14 { s with trust := { s.trust with romMismatch := true } } else s
    if !katOk || !pufOk || !romAgree then sealHalt s
    else
      -- stage 2: the PUF keys (R343), and F as the fuses read (R356)
      let s := { s with trust := { s.trust with wrapKey := some (Config.pufKey 0), storeKey := some (Config.pufKey 1),
                                                fuses := fusedCount s.trust.cells } }
      let order := bootOrder s
      match chooseSlot order (countTrial s) with
      | (none, s) => sealHalt s
      | (some k, s) => releaseUnits (runImage k s)

def execBootChain (katOk pufOk romAgree : Bool) (romMasked : Bool) (s : State) : Host.Outcome State Fault Refusal :=
  .next (bootChain katOk pufOk romAgree romMasked s)

/-- BOOT_COMPLETE (R349 stage 6, R380, R382, R471): the post boxes open, FAULT_N deasserts, deferred events are posted. A module whose REFCLK
was late stays in start-up (R379). -/
def bootComplete (lead : Bool) (s : State) : State :=
  if s.ident.boot ≠ 1 || s.trust.halt || s.clk.halt || s.clk.refTimeout then s
  else
    let s := { s with
      ident := { s.ident with boot := 2, fault := s.ident.skeleton || s.pow.stopping || decide (s.tray.pull ≥ 3) },
      pm := { s.pm with role := if lead then .standby else s.pm.role, aliveRound := roundNo s, hb1Round := roundNo s, hb2Round := roundNo s,
                         rackHeard := s.mer.ns, fabHeard := s.mer.ns },
      trust := { s.trust with serviceSince := roundNo s } }
    let s := [0, 1].foldl (fun s h => modMem s h fun m => { m with state := 1 }) s
    let s := if s.ident.warmBoot then report 0x0302 0 (leBytes 4 (resetCause s)) s else s
    let late := s.tray.deferredEvents
    let s := { s with tray := { s.tray with deferredEvents := [] } }
    late.foldl (fun s e =>
      let (lost, s) := putEvent e s
      if lost then cnt1 20 s else s) s

def execBootComplete (partnerShowsLead : Bool) (s : State) : Host.Outcome State Fault Refusal := .next (bootComplete partnerShowsLead s)

/-! ### Attestation and reads (R359, R360) -/

/-- The slots that a SLOT_MASK names; 0 means all 16. -/
def maskSlots (mask : BitVec 16) : List Nat := (List.range 16).filter fun k => mask = 0 || mask.getLsbD k

/-- The 128 bytes of the report's header. -/
def reportHeader (nonce : List Byte) (mask : BitVec 16) (s : State) : List Byte :=
  let t := s.trust
  let flags := bit ((fwSlot s t.bootSlot).state = .trial) + 2 * bit t.authority.isNone + 4 * bit t.romMismatch + 8 * bit (t.logCount ≥ 4096)
  leBytes 1 1 ++ leBytes 1 flags ++ leBytes 2 (sumNat ((maskSlots mask).map (2 ^ ·))) ++ leBytes 4 t.logCount ++ leBytes 8 (roundNo s) ++ fit 32 nonce ++
  fit 32 Config.idDigest ++ leBytes 8 t.fwVersion ++ leBytes 1 t.fuses ++ leBytes 1 t.step ++ leBytes 1 t.bootSlot ++ zeros 5 ++
  leBytes 8 s.gmi.lastSeq ++ zeros 24

/-- ATTEST. -/
def attestAns (nonce : List Byte) (mask : BitVec 16) (s : State) : Ans :=
  if fit 32 nonce = zeros 32 then badArg 0 s
  else
    let body := reportHeader nonce mask s ++ (maskSlots mask).flatMap fun k => digestBytes (ledgerSlot s k)
    okWith (body ++ fit 512 (Config.rsaSign body)) 32 s

def execAttest (c : Ctx) (nonce : List Byte) (mask : BitVec 16) (s : State) : Host.Outcome State Fault Refusal :=
  .next (gmiRun c 0x903 (attestAns nonce mask) s)

/-- A range of an item. -/
def rangeAns (item : List Byte) (offset length offAt : Nat) (s : State) : Ans :=
  if offset + length > item.length then badArg offAt s else okWith (sliceAt item offset length) (offAt + 4) s

/-- CERT_READ (R359). -/
def certReadAns (which offset length : Nat) (s : State) : Ans :=
  match which with
  | 0 => rangeAns (fit 2224 ownChain) offset length 4 s
  | 1 => rangeAns (authorityBytes s) offset length 4 s
  | 2 => rangeAns (anchorBytes s) offset length 4 s
  | 3 => rangeAns (revokedBytes s) offset length 4 s
  | _ => badArg 0 s

def execCertRead (c : Ctx) (which offset length : Nat) (s : State) : Host.Outcome State Fault Refusal :=
  .next (gmiRun c 0x904 (certReadAns which offset length) s)

/-- A measurement log entry (R358). -/
def logBytes (e : LogEntry) : List Byte :=
  leBytes 4 e.seq ++ leBytes 1 e.slot ++ zeros 3 ++ leBytes 8 e.round ++ leBytes 8 e.info ++ zeros 8 ++ digestBytes e.m

/-- LEDGER_READ (R359). -/
def ledgerReadAns (what first count : Nat) (s : State) : Ans :=
  match what with
  | 0 => if first + count > 16 then badArg 4 s
         else okWith ((List.range count).flatMap fun i => digestBytes (ledgerSlot s (first + i))) 8 s
  | 1 => if first + count > s.trust.log.length then badArg 4 s
         else okWith (((s.trust.log.drop first).take count).flatMap logBytes) 8 s
  | _ => badArg 0 s

def execLedgerRead (c : Ctx) (what first count : Nat) (s : State) : Host.Outcome State Fault Refusal :=
  .next (gmiRun c 0x905 (ledgerReadAns what first count) s)

/-! ### The fabric authority (R361–R364) -/

/-- R361: once a key is enrolled, an enrolment must be signed and granted operator authority. -/
def enrolOk (c : Ctx) (s : State) : Bool := c.signed && authCode (granted s c) ≥ 3

/-- AUTHORITY_ENROL, KIND 0. -/
def enrolKeyAns (c : Ctx) (pubExp : Nat) (modulus : List Byte) (seqStart : Nat) (s : State) : Ans :=
  let allowed := if s.trust.authority.isNone then isHb c.box || isSb c.box else enrolOk c s
  if !allowed then refuse .notPermitted s
  else if pubExp % 2 = 0 || pubExp < 65537 || pubExp ≥ 2 ^ 32 then badArg 4 s
  else if modulus.length ≠ 512 || beNat (modulus.take 1) < 128 then badArg 12 s
  else if !holdupOk s (528 + 32) then refuse .noHoldup s
  else okAns (sealWrite 1 (extendAuthority (appendFloor (seqStart + 2 ^ 24) { s with
    trust := { s.trust with authority := some (pubExp, modulus) }, gmi := { s.gmi with lastSeq := seqStart } })))

/-- An AUTHORITY_ENROL of a KIND that is none of 0 to 2 (R362): R361 lets it through to this check as it lets KIND 0 through. -/
def enrolKindAns (c : Ctx) (s : State) : Ans :=
  if if s.trust.authority.isNone then isHb c.box || isSb c.box else enrolOk c s then badArg 0 s else refuse .notPermitted s

/-- The KIND byte of an AUTHORITY_ENROL: the body's own meaning, or that of a KIND out of range (R362). -/
def enrolAns (c : Ctx) (badKind : Bool) (body : State → Ans) (s : State) : Ans := if badKind then enrolKindAns c s else body s

def execAuthorityEnrolKey (c : Ctx) (pubExp : Nat) (modulus : List Byte) (seqStart : Nat) (s : State) (badKind : Bool := false) :
    Host.Outcome State Fault Refusal :=
  .next (gmiRun c 0x906 (enrolAns c badKind (enrolKeyAns c pubExp modulus seqStart)) s)

/-- The first anchor of a list with a field out of range: the offset of its body bytes. -/
def anchorFail : List Anchor → Nat → Option Nat
  | [], _ => none
  | a :: r, o => if (a.kind = 1 || a.kind = 2) && a.modulus.length = 512 then anchorFail r (o + 520) else some o

/-- AUTHORITY_ENROL, KIND 1. -/
def enrolAnchorsAns (c : Ctx) (anchors : List Anchor) (s : State) : Ans :=
  if s.trust.authority.isNone || !enrolOk c s then refuse .notPermitted s
  else if anchors.length > 8 then badArg 4 s
  else match anchorFail anchors 8 with
    | some o => badArg o s
    | none =>
      if !holdupOk s (520 * anchors.length) then refuse .noHoldup s
      else okAns (sealWrite 2 (extendLists { s with trust := { s.trust with anchors := anchors } }))

def execAuthorityEnrolAnchors (c : Ctx) (anchors : List Anchor) (s : State) (badKind : Bool := false) : Host.Outcome State Fault Refusal :=
  .next (gmiRun c 0x906 (enrolAns c badKind (enrolAnchorsAns c anchors)) s)

/-- ADMITTED links whose peer's chain holds a listed digest are withdrawn (R116, R363). -/
def withdrawRevoked (s : State) : State :=
  ((s.links.filter fun x => x.2.disc = .admitted && peerRevoked s x.2).map (·.1)).foldl (fun s p => withdraw p s) s

/-- The revocation list replaced (R362, R363). -/
def setRevoked (digests : List (List Byte)) (s : State) : State :=
  withdrawRevoked (sealWrite 2 (extendLists { s with trust := { s.trust with revoked := digests } }))

/-- AUTHORITY_ENROL, KIND 2. -/
def enrolRevocationAns (c : Ctx) (digests : List (List Byte)) (s : State) : Ans :=
  if s.trust.authority.isNone || !enrolOk c s then refuse .notPermitted s
  else if digests.length > 256 then badArg 4 s
  else if !holdupOk s (32 * digests.length) then refuse .noHoldup s
  else okAns (setRevoked (digests.map (fit 32)) s)

def execAuthorityEnrolRevocation (c : Ctx) (digests : List (List Byte)) (s : State) (badKind : Bool := false) : Host.Outcome State Fault Refusal :=
  .next (gmiRun c 0x906 (enrolAns c badKind (enrolRevocationAns c digests)) s)

/-- LINK_REVOKE (R363): its checks in their order. -/
def linkRevokeAns (digest : List Byte) (s : State) : Ans :=
  let d := fit 32 digest
  if d = fit 32 Config.idDigest then badArg 0 s
  else if s.trust.revoked.contains d then okAns s
  else if s.trust.revoked.length ≥ 256 then refuse .notPermitted s
  else if !holdupOk s (32 * (s.trust.revoked.length + 1)) then refuse .noHoldup s
  else okAns (setRevoked (s.trust.revoked ++ [d]) s)

def execLinkRevoke (c : Ctx) (digest : List Byte) (s : State) : Host.Outcome State Fault Refusal := .next (gmiRun c 0x908 (linkRevokeAns digest) s)

/-! ### Runtime checks and the test access port (R366, R367) -/

/-- Skeleton service follows at the next boundary; the first cause stands (R444). -/
def skeletonCauseDue (cause : Nat) (s : State) : State :=
  if s.ident.skeleton then s
  else { s with ident := { s.ident with skeletonDue := match s.ident.skeletonDue with | some c => some c | none => some cause } }

/-- A runtime check of the Seal is due (R366): the module runs, and the check has not run yet or not for 2²² Rounds. -/
def sealRuns (k : Nat) (s : State) : Bool :=
  s.ident.boot ≥ 1 && !s.trust.halt && (match tfind s.trust.checks k with | some r => decide (roundNo s ≥ r + 2 ^ 22) | none => true)

/-- A runtime check has run. -/
def sealRan (k : Nat) (s : State) : State := { s with trust := { s.trust with checks := tput s.trust.checks k (roundNo s) } }

/-- SEAL_KAT_CHECK. -/
def execSealKatCheck (pass : Bool) (s : State) : Host.Outcome State Fault Refusal := 
  .next (if !sealRuns 0 s then s else if pass then sealRan 0 s else skeletonCauseDue 2 (sealRan 0 s))

/-- SEAL_CODE_CHECK: the channels whose TYPE 0 code differs retire as under R291; none in service that matches is a cause of its own. -/
def sealCodeCheck (differs : List Nat) (s : State) : State :=
  if !sealRuns 1 s then s
  else
    let s := sealRan 1 s
    let live := channels s
    let bad := live.filter differs.contains
    let s := if bad.length = live.length then skeletonCauseDue 3 s else s
    bad.foldl (fun s c => faultLocated c s) s

def execSealCodeCheck (differs : List Nat) (s : State) : Host.Outcome State Fault Refusal := .next (sealCodeCheck differs s)

/-- The hash that a majority of the eight offices holds. -/
def majority (hashes : List (List Byte)) : Option (List Byte) := hashes.find? fun h => (hashes.filter (· = h)).length ≥ 5

/-- SEAL_PROGRAM_CHECK: an office that differs from the majority is reloaded and takes no bundle until then. -/
def sealProgramCheck (hashes : List (List Byte)) (s : State) : State :=
  if !sealRuns 2 s then s
  else match majority (hashes.take 8) with
    | none => skeletonCauseDue 4 (sealRan 2 s)
    | some h => ((List.range 8).filter fun o => hashes[o]? ≠ some h).foldl (fun s o => modOffice s o fun x => { x with reloading := true }) (sealRan 2 s)

def execSealProgramCheck (hashes : List (List Byte)) (s : State) : Host.Outcome State Fault Refusal := .next (sealProgramCheck hashes s)

/-- JTAG_INSTRUCTION_LOAD (R367): BYPASS, IDCODE and SAMPLE/PRELOAD are harmless; any other erases the key store. -/
def execJtagInstructionLoad (harmless : Bool) (s : State) : Host.Outcome State Fault Refusal :=
  let s := { s with clk := { s.clk with tapReset := false } }
  .next (if harmless then s else sealHalt s)

end Sys2Proof.Machine
end

