-- ==== Sys2Proof/Machine/Diag.lean ====
section
/-! DEFINITION. The diagnostics commands of the register blocks (R338, R339) and the claim on a maintenance port (R168). -/

namespace Sys2Proof.Machine

/-! ### Register reads and writes (R338, R339) -/

/-- DIAG_READ. -/
def execDiagRead (c : Ctx) (block offset count : Nat) (s : State) : Host.Outcome State Fault Refusal :=
  .next (gmiRun c 0x800 (regReadAns false block offset count) s)

/-- Two actions of one write: both or neither. -/
def thenAns (a : Ans) (f : State → Ans) (s : State) : Ans :=
  if a.status = .ok then
    let b := f a.post
    if b.status = .ok then b else { b with post := s }
  else a

/-- PRBS_CTL (R75–R78, R84, R108): `w` is the word as written, `v` its written bits. -/
def prbsCtlAns (g w v : Nat) (s : State) : Ans :=
  let x := laneOf s g
  let gen := bitOf w 0
  let chk := bitOf w 1
  let pattern := bitsOf w 4 2
  let duration := bitsOf w 31 8
  if pattern > 3 then badArg 8 s
  else
    let a := okAns (modLane s g fun x => { x with pattern := pattern, duration := duration, swapSeen := x.swapSeen && !bitOf v 6 })
    let a := if bitOf v 7 then thenAns a (prbsClearAns g) s else a
    if !gen && !chk && (x.genEn || x.chkEn) then
      thenAns a (prbsStopAns g [] 0 []) s
    else
      let a := if gen && !x.genEn then thenAns a (prbsGenAns g pattern x.seed duration) s
        else { a with post := modLane a.post g fun x => { x with genEn := gen } }
      if a.status ≠ .ok then a
      else if chk && !x.chkEn then thenAns a (prbsCheckAns g pattern duration) s
      else if !chk && x.chkEn then
        { a with post := returnLane g (modLane a.post g fun x => { x with chkEn := false, chkLock := false, claim := if x.claim = .prbs then .none else x.claim,
                                                                              adaptOn := x.adaptOn && x.claim ≠ .prbs, claimResult := some .ok,
                                                                              claimLast := .prbs }) }
      else a

/-- A write of the LANE block. -/
def laneWriteAns (g r w v : Nat) (s : State) : Ans :=
  if r = 0x10 then laneFreezeAns g (bitOf w 0) s
  else if r = 0xC0 then prbsCtlAns g w v s
  else if r = 0xC4 then okAns (modLane s g fun x => { x with seed := w % 2 ^ 31 })
  else okAns s

/-- ECHO_CTL[c] (R79, R84). A write of PORT_K, LANE_J or START_CM without START sets the fields while a measurement runs too; R84 does not say that they
wait (DESIGN CHOICE: notes/assumptions/26.md). -/
def echoCtlAns (t c w v : Nat) (s : State) : Ans :=
  let portK := bitsOf w 3 0
  let laneJ := bitsOf w 5 4
  let startCm := bitsOf w 31 16
  if startCm > 15000 then badArg 8 s
  else if bitOf v 6 then echoStartAns t c portK laneJ startCm s
  else
    let x : Corr := tget {} (tileOf s t).corr c
    let x' : Corr := { x with portK := portK, laneJ := laneJ, startCm := startCm, done := x.done && !bitOf v 8 }
    okAns (modTile s t fun y => { y with corr := tset {} y.corr c x' })

/-- A write of the TILE block. -/
def tileWriteAns (t r w v : Nat) (s : State) : Ans :=
  if r = 0x004 then laserSelectAns t (w % 2) s
  else if 0x100 ≤ r && r < 0x140 then echoCtlAns t ((r - 0x100) / 0x10) w v s
  else okAns s

/-- A write of the CLK block (R378, R383, R384). -/
def clkWriteAns (c : Ctx) (off v : Nat) (s : State) : Ans :=
  if off = 0x04 then
    let a := if bitOf v 2 then clkSelCoreAns (bitsOf v 1 0) s else okAns s
    if bitOf v 5 then thenAns a (clkSelXtalAns (bitsOf v 4 3)) s else a
  else if 0x10 ≤ off && off < 0x20 then
    let k := (off - 0x10) / 4
    okAns { s with clk := { s.clk with mons := tset {} s.clk.mons k { monOf s k with fails := cleared (monOf s k).fails (bitsOf v 23 16) } } }
  else if off = 0x24 && bitOf v 6 then
    let i := bitsOf v 5 2
    match bitsOf v 1 0 with
    | 1 => resetTileAns i s
    | 2 => resetHalfAns i s
    | 3 => resetCxlAns c s
    | _ => okAns s
  else okAns s

/-- PCNT_CTL[k] with one of its two words replaced; OVF is a flag to clear. -/
def pcntCtlWrite (k : Nat) (high : Bool) (value mask : Nat) (s : State) : Ans :=
  let x := pcntOf s k
  let old := ((x.pendingCtl.getD x.ctl) &&& (if high then 0xFFFFFFFFFFFFFFFF else 0xFFFFFFFFFFFFFFFB)).toNat
  let lo := if high then old % 2 ^ 32 else merged (old % 2 ^ 32) value mask
  let hi := if high then merged (old / 2 ^ 32) value mask else old / 2 ^ 32
  pcntCtlAns k (BitVec.ofNat 64 (lo + 2 ^ 32 * hi)) s

/-- A write of the CNT block (R417, R430, R431). -/
def cntWriteAns (off value mask : Nat) (s : State) : Ans :=
  let r := off - 0x400000
  if r < 0x100 then
    let x := pcntOf s (r / 4)
    pcntWriteAns (r / 4) (merged (x.pendingValue.getD x.value) value mask) s
  else if 0x1000 ≤ r && r < 0x1200 then pcntCtlWrite ((r - 0x1000) / 8) (r % 8 = 4) value mask s
  else if r = 0x2010 then
    let w := merged (s.capture.adcLane + 1024 * s.capture.adcBursts) value mask
    let lane := bitsOf w 9 0
    let bursts := bitsOf w 17 10
    if bitOf (value &&& mask) 18 then adcCapAns lane bursts s
    else if s.capture.adcBusy then busy 4 s.capture.adcLane s
    else okAns { s with capture := { s.capture with adcLane := lane, adcBursts := bursts } }
  else okAns s

/-- DIAG_WRITE (R339): the common checks, then what the field written does. -/
def diagWriteAns (c : Ctx) (block off value mask : Nat) (s : State) : Ans :=
  match regWriteCheck false block off mask s with
  | some a => a
  | none =>
    let v := value &&& mask
    let w := merged (readWord s.bank s block off) value mask
    match block with
    | 0x01 => laneWriteAns (off / 0x100) (off % 0x100) w v s
    | 0x02 => tileWriteAns (off / 0x1000) (off % 0x1000) w v s
    | 0x04 => okAns (if off = 0x014 then { s with mer := { s.mer with deferred := cleared s.mer.deferred v } } else s)
    | 0x05 => okAns (if 0x100 ≤ off && off < 0x10C then modDisp s ((off - 0x100) / 4) (fun d => { d with mismatch := cleared d.mismatch (bitsOf v 31 16) }) else s)
    | 0x0A => okAns (if off = 0x04 then { s with pm := { s.pm with mismatch := cleared s.pm.mismatch v } } else s)
    | 0x0B => clkWriteAns c off v s
    | 0x0D => cntWriteAns off value mask s
    | _ => okAns s

def execDiagWrite (c : Ctx) (block offset : Nat) (value mask : Word) (s : State) : Host.Outcome State Fault Refusal :=
  .next (gmiRun c 0x801 (diagWriteAns c block offset value.toNat mask.toNat) s)

/-! ### Maintenance ports (R168) -/

/-- The session of a bank that names an M port. -/
def copyHolder (b : Bank) (k : Nat) : Option Nat := (b.copy.find? fun x => x.2.enable && !x.2.destRing && x.2.mport = k).map (·.1)

/-- PORT_TEST with 1: TEST claims a free M port. -/
def portTestClaimAns (k : Nat) (s : State) : Ans :=
  if k > 15 then badArg 0 s
  else match copyHolder s.bank k, copyHolder s.staging.bank k with
    | some n, _ => busy 5 n s
    | none, some n => busy 5 n s
    | none, none =>
      if s.sw.testPorts.contains (240 + k) then busy 6 (240 + k) s
      else okAns { s with sw := { s.sw with testPorts := s.sw.testPorts ++ [240 + k] } }

def execPortTestClaim (c : Ctx) (k : Nat) (s : State) : Host.Outcome State Fault Refusal := .next (gmiRun c 0x804 (portTestClaimAns k) s)

/-- PORT_TEST with 0: the claim ends; a port that TEST does not hold stays as it is. -/
def portTestReleaseAns (k : Nat) (s : State) : Ans :=
  if k > 15 then badArg 0 s else okAns { s with sw := { s.sw with testPorts := s.sw.testPorts.filter (· ≠ 240 + k) } }

def execPortTestRelease (c : Ctx) (k : Nat) (s : State) : Host.Outcome State Fault Refusal := .next (gmiRun c 0x804 (portTestReleaseAns k) s)

end Sys2Proof.Machine
end

