-- ==== Sys2Proof/Machine/Faults.lean ====
section
/-! DEFINITION. Entry to skeleton service (R444–R446), the tray pulled without drain (R439, R440), and what the persistent store's journal and
black box hold (R464–R466). -/

namespace Sys2Proof.Machine

/-! ### Skeleton service (R444–R446) -/

/-- Claims of diagnostics and capture class end (R438, R445): lane ADCs, memory tests, TEST on the M ports, timers. -/
def endClaims (st : Status) (s : State) : State :=
  let s := endLaneClaims st s
  let s := [0, 1].foldl (fun s h => modMem s h fun m => { m with claims := [] }) s
  { s with sw := { s.sw with testPorts := [] },
           pm := { s.pm with timers := s.pm.timers.filter fun x => x.2.cls = .protection || x.2.cls = .dataService } }

/-- A sealed COMMIT is cancelled and reported; the staged bank goes (R333, R445). -/
def dropStaging (st : Status) (s : State) : State :=
  let s := match s.staging.sealed with
    | some r => reportCancelled st 0x0102 r s
    | none => s
  discardStaging s

/-- Ramp entries not yet due are dropped, each reported (R403). -/
def dropSchedule (st : Status) (s : State) : State :=
  let es := s.pow.sched
  es.foldl (fun s e => reportCancelled st 0x0602 e.atRound s) { s with pow := { s.pow with sched := [] } }

/-- SKELETON_ENTER (R444–R446): at the first boundary after the cause. -/
def enterSkeleton (s : State) : State :=
  match s.ident.skeletonDue with
  | none => s
  | some cause =>
    if s.ident.skeleton then s
    else
      let s := { s with ident := { s.ident with skeleton := true, skeletonDue := none, skeletonCause := cause } }
      -- every link that is not admitted stays SURVEYED (R365)
      let s := ((s.links.filter fun x => x.2.disc = .admitting || x.2.disc = .refused).map (·.1)).foldl (fun s p =>
        modLink s p fun l => { l with disc := .surveyed, adm := {}, keys := {} }) s
      let s := endClaims .skeleton (skeletonGroups (clearQueues (dropSchedule .skeleton (dropStaging .skeleton s))))
      let s := latchFallback { s with pow := { s.pow with frozen := true, fillW := 0, smooth := false } }
      faultEvent 0x0130 cause [] (assertFault (protectCeil 4 s))

def execSkeletonEnter (s : State) : Host.Outcome State Fault Refusal := .next (enterSkeleton s)

/-! ### The tray pulled without drain (R439, R440) -/

/-- The pull warning acts: in every state above ST4, out of reset. -/
def pullActs (s : State) : Bool :=
  s.tray.pull = 0 && s.tray.start = .running && decide (s.pow.ladder < 4) && decide (s.ident.boot ≥ 1) && !s.clk.pwrReset && !s.clk.rstLow

/-- PULL_WARN (R439 step 1): no credits returned, LEAVING on every admitted link; the offices issue no bundle from now on (sequencerPlace). In
CHARGING the start is given up (R452). PULL_WARN asserts ALERT_N; its record stands in the journal summary only (R447). -/
def pullTaken (s : State) : State :=
  let s := { s with tray := { s.tray with pullWarn := true } }
  if s.tray.start = .charging then { s with tray := { s.tray with start := .keep } }
  else if !pullActs s then s
  else
    let s := { s with tray := { s.tray with pull := 1, pullRound := roundNo s } }
    let s := (List.range 256).foldl (fun s p => if (linkOf s p).disc = .dark then s else modLink s p fun l => { l with creditStop := true }) s
    let s := ((List.range 256).filter (admitted s)).foldl (fun s p => modTx s p fun t => { t with rollDue := true, leaving := true }) s
    raiseAlert 0x0131 s

def execPullWarn (s : State) : Host.Outcome State Fault Refusal := .next (pullTaken s)

/-- PULL_WARN_FIRST_BOUNDARY (R439 step 2). -/
def pullFirst (s : State) : State :=
  if s.tray.pull ≠ 1 || roundNo s ≤ s.tray.pullRound then s
  else
    let s := discardStaging (cancelTimed .notReady (closeOffices s))
    endClaims .notReady { s with tray := { s.tray with pull := 2 } }

def execPullWarnFirstBoundary (s : State) : Host.Outcome State Fault Refusal := .next (pullFirst s)

/-- Step 3 of R439: dark, no roll call and no sideband frames, FAULT_N asserted, C at the ST4 limit; what the buffers held is lost. -/
def goDark (s : State) : State :=
  let s := ((s.links.map (·.1))).foldl (fun s p => linkToDark p s) s
  let s := { s with ident := { s.ident with dark := true },
                    sw := { s.sw with letters := [], openAt := [], egress := [] },
                    tray := { s.tray with frames := [], rollDue := false } }
  assertFault (jumpCeil (ladderLimit 4) s)

/-- PULL_WARN_SECOND_BOUNDARY (R439 steps 3 and 4): the summary names the Round in which the warning was taken. -/
def pullSecond (s : State) : State :=
  if s.tray.pull ≠ 2 || roundNo s ≤ s.tray.pullRound + 1 then s
  else
    let s := goDark { s with tray := { s.tray with pull := 3 } }
    if holdupOk s 8192 then { s with tray := { s.tray with journalPending := s.tray.journalPending ++ [(0, s.tray.pullRound, s.pow.ladder)] } }
    else reportSt 0x0341 0 .noHoldup [] s

def execPullWarnSecondBoundary (s : State) : Host.Outcome State Fault Refusal := .next (pullSecond s)

/-! ### Journal and black box (R464–R466) -/

/-- A block with its CRC-64 of R90 in the last 8 bytes. -/
def checked (n : Nat) (body : List Byte) : List Byte :=
  let b := fit (n - 8) body
  b ++ leBytes 8 (crc64 b)

/-- The events of a summary: the newest 62 of the log; a pull warning's own record stands last (R447). -/
def journalEvents (cause round : Nat) (s : State) : List Event :=
  let own : List Event := if cause = 0 then
    [{ seq := s.gmi.eventSeq, code := 0x0131, severity := 2, status := .ok, round := round, subject := 0, id := 0, detail := zeros 40 }] else []
  let all := s.gmi.log ++ own
  all.drop (all.length - 62)

/-- A journal summary (R465). -/
def journalBytes (cause round ladder : Nat) (s : State) : List Byte :=
  let es := journalEvents cause round s
  let last := match es.getLast? with | some e => e.seq | none => 0
  checked 8192 (leBytes 4 0x4C4B4A53 ++ leBytes 4 s.tray.jseq ++ leBytes 8 round ++ leBytes 1 cause ++ leBytes 1 ladder ++ zeros 2 ++ leBytes 4 last ++
    zeros 40 ++ fit 128 (ownHealth s) ++ es.flatMap eventBytes)

/-- JOURNAL_SUMMARY_WRITE (R465): the write that the hold-up check allowed, reported as JOURNAL_WRITE (R471). -/
def journalWrite (s : State) : State :=
  match s.tray.journalPending with
  | [] => s
  | (cause, round, ladder) :: rest =>
    let n := s.tray.jseq
    let b := journalBytes cause round ladder s
    let s := { s with tray := { s.tray with journal := mwrite s.tray.journal (8192 * (n % 2048)) b, jseq := (n + 1) % 2 ^ 32, journalPending := rest } }
    report 0x0341 cause (leBytes 4 n) s

def execJournalSummaryWrite (s : State) : Host.Outcome State Fault Refusal := .next (journalWrite s)

/-- BLACKBOX_BLOCK_WRITE (R466): 63 records have gathered, or 2²⁰ Rounds have passed since the first. -/
def blackboxWrite (s : State) : State :=
  let g := s.tray.bbGathered
  if g.isEmpty || !(g.length ≥ 63 || roundNo s ≥ s.tray.bbSince + 2 ^ 20) then s
  else
    let b := checked 4096 (leBytes 4 0x4C4B4242 ++ leBytes 4 s.tray.bbSeq ++ leBytes 8 (roundNo s) ++ fit 4032 ((g.take 63).flatMap eventBytes) ++ zeros 40)
    { s with tray := { s.tray with blackbox := mwrite s.tray.blackbox (4096 * (s.tray.bbSeq % 8192)) b, bbSeq := (s.tray.bbSeq + 1) % 2 ^ 32,
                                   bbGathered := g.drop 63, bbSince := roundNo s } }

def execBlackboxBlockWrite (s : State) : Host.Outcome State Fault Refusal := .next (blackboxWrite s)

/-- A range of a region of the persistent store. -/
def storeAns (m : Memory) (size offset length : Nat) (s : State) : Ans :=
  if offset + length > size then badArg 0 s
  else if length > 4064 then badArg 4 s
  else okWith (mread m offset length) 4 s

/-- JOURNAL_READ and BLACKBOX_READ (R464): OFFSET from the start of the region. -/
def execJournalRead (c : Ctx) (offset length : Nat) (s : State) : Host.Outcome State Fault Refusal :=
  .next (gmiRun c 0xA00 (fun s => storeAns s.tray.journal 0x1000000 offset length s) s)

def execBlackboxRead (c : Ctx) (offset length : Nat) (s : State) : Host.Outcome State Fault Refusal :=
  .next (gmiRun c 0xA01 (fun s => storeAns s.tray.blackbox 0x2000000 offset length s) s)

end Sys2Proof.Machine
end

