-- ==== Sys2Proof/Machine/Tray.lean ====
section
/-! DEFINITION. Tray integration (spec/18): the 60 V input, start states and permits, the sideband and the laser units. -/

namespace Sys2Proof.Machine

/-! ### Permits and start states (R450–R454) -/

/-- STATE of PERMIT_STATE (R454). -/
def startCode : Start → Nat
  | .keep => 0
  | .charging => 1
  | .starting => 2
  | .running => 3
  | .absent => 0

/-- PERMIT_STATE is sent and PERMIT posted (R454, R471). -/
def permitAnswer (st : Status) (s : State) : State :=
  let body := leBytes 1 (statusCode st) ++ leBytes 1 (startCode s.tray.start) ++ zeros 2 ++ leBytes 4 s.tray.permitId ++ leBytes 2 s.tray.holdup ++ zeros 2
  reportSt 0x0340 (startCode s.tray.start) st (leBytes 4 s.tray.permitId ++ leBytes 1 (statusCode st)) (queueFrame 5 0 body s)

/-- The start state changes and is told. -/
def setStart (x : Start) (s : State) : State := permitAnswer .ok { s with tray := { s.tray with start := x } }

/-- The module falls back to KEEP: its rails go, and the internal reset holds (R380, R450, R452). -/
def toKeep (s : State) : State :=
  let s := enterReset { s with clk := { s.clk with pwrReset := true }, tray := { s.tray with pwrOk := false, permitWait := none } }
  setStart .keep s

/-- A permit in force begins the charge; the input switch closes. -/
def startCharge (permitId : Nat) (s : State) : State :=
  setStart .charging { s with tray := { s.tray with permitId := permitId, permitWait := none, switchOpen := false } }

/-- PERMIT_GRANT (R454), decided in the order of its list; an authenticated arrival (R314). -/
def permitGrant (tray permitId validMs : Nat) (s : State) : State :=
  if s.tray.start = .absent then s
  else
    let s := heard 0 s
    if tray ≠ s.clk.posId.toNat % 16 / 2 || validMs < 1 || validMs > 10000 then permitAnswer .badArgument s
    else if s.sens.vinMv < 54000 || s.tray.pullWarn then permitAnswer .notReady s
    else if s.tray.start ≠ .keep then permitAnswer .ok s
    else if !s.tray.pwrEn then { s with tray := { s.tray with permitWait := some (permitId, s.mer.ns + validMs * 1000000) } }
    else startCharge permitId s

def execPermitGrant (tray permitId validMs : Nat) (_reservedZero : Bool) (s : State) : Host.Outcome State Fault Refusal :=
  .next (permitGrant tray permitId validMs s)

/-- PERMIT_TIMEOUT (R454): PWR_EN has not risen within VALID_MS. -/
def execPermitTimeout (s : State) : Host.Outcome State Fault Refusal :=
  match s.tray.permitWait with
  | some (_, t) => if s.mer.ns ≥ t then .next (permitAnswer .notReady { s with tray := { s.tray with permitWait := none } }) else .next s
  | none => .next s

/-- PWR_EN_RISE (R454): a grant that waits takes effect. -/
def pwrEnRise (s : State) : State :=
  let s := { s with tray := { s.tray with pwrEn := true } }
  match s.tray.permitWait with
  | some (id, t) => if s.tray.start = .keep && s.mer.ns ≤ t && s.sens.vinMv ≥ 54000 && !s.tray.pullWarn then startCharge id s else s
  | none => s

def execPwrEnRise (s : State) : Host.Outcome State Fault Refusal := .next (pwrEnRise s)

/-- PWR_EN_FALL (R451, R452): the orderly stop while the stage converts; CHARGING falls back to KEEP. -/
def pwrEnFall (s : State) : State :=
  let s := { s with tray := { s.tray with pwrEn := false } }
  match s.tray.start with
  | .charging => setStart .keep s
  | .running =>
    if s.pow.stopping then s
    else
      let s := orderlyStop s
      { s with pow := { s.pow with stopByEn := true } }
  | _ => s

def execPwrEnFall (s : State) : Host.Outcome State Fault Refusal := .next (pwrEnFall s)

/-- VIN_BELOW_54V (R452): CHARGING falls back to KEEP. -/
def execVinBelow54V (mv : Nat) (s : State) : Host.Outcome State Fault Refusal :=
  if mv ≥ 54000 then .next s
  else
    let s := { s with sens := { s.sens with vinMv := mv } }
    .next (if s.tray.start = .charging then setStart .keep s else s)

/-- HOLDUP_MEASURE (R453): in the charge plateau; below 1.6 mF raises HOLDUP_LOW. -/
def execHoldupMeasure (cap10uF : Nat) (s : State) : Host.Outcome State Fault Refusal :=
  if s.tray.start = .charging then
    let s := { s with tray := { s.tray with holdup := cap10uF } }
    .next (if cap10uF < 160 then alert 0x0140 0 (leBytes 2 cap10uF) s else s)
  else .next s

/-- CHARGE_COMPLETE (R452): 58 V on the capacitors. -/
def execChargeComplete (s : State) : Host.Outcome State Fault Refusal := if s.tray.start = .charging then .next (setStart .starting s) else .next s

/-- PWR_OK_ASSERT (R452): STARTING becomes RUNNING; the internal reset ends 1 ms later (RESET_RELEASE). -/
def execPwrOkAssert (s : State) : Host.Outcome State Fault Refusal :=
  if s.tray.start = .starting then .next (setStart .running { s with tray := { s.tray with pwrOk := true } })
  else if s.tray.start = .running && s.clk.pwrReset then .next { s with tray := { s.tray with pwrOk := true } }
  else .next s

/-- KEEP_ALIVE_ON (R450): VIN_60 at 36 V or above; the tray that feeds the module drives PULL_WARN_N high. -/
def execKeepAliveOn (mv : Nat) (s : State) : Host.Outcome State Fault Refusal :=
  if s.tray.start = .absent && mv ≥ 36000 then
    .next { s with tray := { s.tray with start := .keep, pullWarn := false }, sens := { s.sens with vinMv := mv } }
  else .next s

/-- VIN_LOSS (R450): below 36 V the module is absent; only what no reset touches is kept, and the reading below 36 V is free. -/
def execVinLoss (s : State) : Host.Outcome State Fault Refusal :=
  let (v, s) := drawFree s
  let r := keptAlways s
  .next { r with
    tray := { r.tray with start := .absent, pwrOk := false, permitId := 0, permitWait := none, switchOpen := false, deferredEvents := [] },
    sens := { r.sens with vinMv := v % 36000 },
    clk := { r.clk with pwrReset := true, posId := s.clk.posId } }

/-- INPUT_OVER (R450): above 66 V for 1 ms. -/
def execInputOver (mv : Nat) (s : State) : Host.Outcome State Fault Refusal :=
  if mv ≤ 66000 || s.tray.start = .absent then .next s
  else .next (alert 0x0141 0 (leBytes 2 (mv / 10)) { s with sens := { s.sens with vinMv := mv } })

/-- INPUT_DISCONNECT (R450): above 68 V for 10 µs; a journal summary if the hold-up check allows, then dark and KEEP. -/
def inputDisconnect (mv : Nat) (s : State) : State :=
  if mv ≤ 68000 || s.tray.start = .absent then s
  else
    let s := { s with sens := { s.sens with vinMv := mv }, tray := { s.tray with switchOpen := true } }
    if s.tray.start = .keep then s
    else if s.tray.start = .charging then setStart .keep s
    else toKeep (goDark (journalDue 3 s))

def execInputDisconnect (mv : Nat) (s : State) : Host.Outcome State Fault Refusal := .next (inputDisconnect mv s)

/-! ### The sideband (R456–R458) -/

/-- The sideband runs: powered, not in CLOCK_HALT (R377), and not after step 3 of R439. -/
def sidebandRuns (s : State) : Bool := s.tray.start ≠ .absent && decide (s.tray.pull < 3) && !s.clk.halt

/-- A frame's payload (R457); the ROUND and SRC_REF of a module that has not started are unknown, 0. -/
def frameBytes (kind box : Nat) (body : List Byte) (s : State) : List Byte :=
  let up := s.tray.start = .running && decide (s.ident.boot ≥ 1)
  leBytes 1 kind ++ leBytes 1 box ++ leBytes 2 body.length ++ leBytes 4 s.tray.frameSeq ++ leBytes 8 (if up then roundNo s else 0) ++
  leBytes 3 (if up then srcRef s else 0) ++ leBytes 1 (1 + modIndex s % 2) ++ zeros 8 ++ body

/-- A frame goes onto the segment. -/
def putFrame (kind box : Nat) (body : List Byte) (s : State) : State :=
  let b := frameBytes kind box body s
  { s with tray := { s.tray with sentFrames := s.tray.sentFrames ++ [b], frameSeq := (s.tray.frameSeq + 1) % 2 ^ 32 } }

def putRoll (s : State) : State := putFrame 2 0 (rollBytes (rollNow s false)) s

/-- PLCA_TRANSMIT_OPPORTUNITY (R458): a due roll frame first, then at most one other, then a second roll frame behind a long one. A frame adds
18 bytes to its payload. -/
def transmitOpportunity (s : State) : State :=
  if !sidebandRuns s then s
  else
    let s := { s with tray := { s.tray with sentFrames := [] } }
    let s := if s.tray.rollDue && rollRuns s then putRoll { s with tray := { s.tray with rollDue := false } } else s
    match s.tray.frames with
    | [] => s
    | f :: rest =>
      let s := putFrame f.kind f.box f.body { s with tray := { s.tray with frames := rest } }
      if 28 + f.body.length + 18 > 128 && rollRuns s then putRoll s else s

def execPlcaTransmitOpportunity (s : State) : Host.Outcome State Fault Refusal := .next (transmitOpportunity s)

/-- SIDEBAND_ROLL_RECEIVE (R456, R457): a ROLL frame of the partner, used in R312. -/
def execSidebandRollReceive (r : RollRecord) (s : State) : Host.Outcome State Fault Refusal :=
  if s.tray.start = .running && sidebandRuns s && s.ident.boot ≥ 1 then .next (partnerHeard r { s with pm := { s.pm with partnerSideRoll := some r, partnerLast := some r } })
  else .next s

/-- SIDEBAND_ALIVE_RECEIVE (R314, R456): an alive frame of the rack manager. -/
def execSidebandAliveReceive (box : Nat) (s : State) : Host.Outcome State Fault Refusal :=
  if sidebandRuns s && s.tray.start = .running && box = 0 then .next (heard 0 s) else .next s

/-! ### Laser units (R462, R463) -/

/-- LASER_UNIT_POLL (R463): 8 polls in a row not acknowledged, or FAULT, raise LASER_UNIT_FAULT. -/
def laserPoll (u : Nat) (status : Option (BitVec 16)) (s : State) : State :=
  if u > 3 then s
  else
    let x := unitOf s u
    match status with
    | none =>
      let n := x.nacks + 1
      let bad := decide (n ≥ 8)
      let s := modUnit s u fun x => { x with nacks := n, fault := x.fault || bad }
      if bad && !x.fault then alert 0x0142 u (leBytes 2 0xFFFF) s else s
    | some st =>
      let bad := st.getLsbD 8
      let s := modUnit s u fun x => { x with nacks := 0, status := st, fault := bad }
      if bad && !x.fault then alert 0x0142 u (leBytes 2 st.toNat) s else s

def execLaserUnitPoll (u : Nat) (status : Option (BitVec 16)) (s : State) : Host.Outcome State Fault Refusal := .next (laserPoll u status s)

end Sys2Proof.Machine
end

