-- ==== Sys2Proof/Machine/Boundary.lean ====
section
/-! DEFINITION. The passage of time (spec/02): the core cycle that an idle block runs, and the Round boundary with the work of R50 that no
command of its own stands for. -/

namespace Sys2Proof.Machine

/-! ### Core cycles (R32) -/

/-- What the running counter advances by in one step, in units of 2⁻³² ns: numerator and denominator. The Meridian unit steps once in a core
cycle by 0.64 ns at the rate in force (R32); the keeper once in a crystal cycle, by 40 ns scaled by the ratio measured before entry (R35). -/
def pace (s : State) : Nat × Nat :=
  if s.mer.keeperRuns then (40 * 2 ^ 32 * s.mer.keeperScale, 16000) else (cycleNum s.mer.rate, cycleDen)

/-- `n` steps of the counter, the sum rounded to the counter's 32-bit fraction one way or the other (Config.merRoundUp). -/
def advance (n : Nat) (s : State) : Nat :=
  let p := pace s
  n * p.1 / p.2 + (if n * p.1 % p.2 ≠ 0 && Config.merRoundUp s.draw then 1 else 0)

/-- The steps left until the counter reaches the next Round (R33). -/
def stepsLeft (s : State) : Nat := ((merNext s - merTotal s) * (pace s).2 + ((pace s).1 - 1)) / (pace s).1

/-- CREDIT_STALL of a port's VC in a cycle: a flit is ready and no downstream credit is left (R417, R422). -/
def stalled (s : State) (p v : Nat) : Bool := admitted s p && (vcSource s p v).isSome && !hasCredit (linkOf s p) v

/-- What a cycle counts at one port: CREDIT_STALL, and RETURN_HELD of a detail engine (R417, R422). -/
def countStalls (p : Nat) (s : State) : State :=
  let s := ((List.range 8).filter (stalled s p)).foldl (fun s v =>
    detailAdd p (8 * v + 3) 1 (pcntSel 1 1 (fun c => pcArg c = p && pcVc c = v) s)) s
  if withholds s p then ((List.range 8).filter fun v => s.sw.stopped.any fun k => k % 8 = v).foldl (fun s v => detailAdd p (8 * v + 7) 1 s) s else s

/-- The GDDR7 halves serve what waits (R283); the capture writer goes on where that lets it. -/
def memoryRun (cycles : Nat) (s : State) : State :=
  if (memOf s 0).waiting.isEmpty && (memOf s 1).waiting.isEmpty then s
  else captureMoves (serveHalf cycles 1 (serveHalf cycles 0 (memBusy cycles 1 (memBusy cycles 0 s))))

/-- What an idle block does in a step: one core cycle, or one crystal cycle while the keeper counts (R35), the boundary itself being left to
ROUND_BOUNDARY (notes/assumptions/1.md). Nothing counts core cycles in ST3 and ST4 (R368). -/
def tick (s : State) : State :=
  let t := merTotal s + advance 1 s
  if t ≥ merNext s then s
  else
    let s := { s with mer := { setMeridian t s.mer with cycle := s.mer.cycle + 1 }, draw := s.draw + 1 }
    let s := if s.pow.ladder ≤ 2 then (s.sw.egress.map (·.1)).foldl (fun s p => countStalls p s) (countCycles 1 s) else s
    memoryRun 1 s

/-! ### The Round boundary (R50) -/

/-- The Round just ended runs out: its core cycles are counted, the lanes and the memory run through them, and a snapshot armed for the boundary
is taken (R416, R473). -/
def endRound (s : State) : State :=
  let n := cyclesLeft s
  takeSnapshot 0 (memoryRun n (lanesRun (if s.pow.ladder ≤ 1 then roundCycles s else 0) (countCycles n s)))

/-- Item 1 of R50: the counter reaches the first value at or above the next multiple of 1,024 ns, what it is beyond it being carried into the
Round (R33), and RATE_ADJ from the last update takes effect. -/
def toBoundary (s : State) : State :=
  { s with mer := { setMeridian (merTotal s + advance (stepsLeft s) s) s.mer with cycle := 0, rate := s.mer.rateNext }, draw := s.draw + 1 }

/-- The module is held: not started, or in reset. -/
def held (s : State) : Bool := s.tray.start ≠ .running || s.clk.pwrReset || s.clk.rstLow

/-- Transit-share and fair-share counters of the new Round (R50 item 7, R190, R248), and the Dispatcher's outvoted slots (R154). -/
def resetShares (s : State) : State :=
  let s := (s.sw.egress.map (·.1)).foldl (fun s p => modEgress s p fun e => { e with foreign := 0, share5 := (e.share5.1, 0) }) s
  let s := (List.range 8).foldl (fun s o => modOffice s o fun x => { x with turn := (x.turn.1, 0) }) s
  [0, 1, 2].foldl (fun s c => modDisp s c fun d => { d with slotMiss := 0 }) s

/-- Roll-call heartbeats of the Round: ROLL on every admitted link in ST0 and ST1, and the edge of TRAY_HB_OUT (R302, R304, R312). -/
def heartbeats (s : State) : State :=
  if !rollRuns s then s
  else
    let s := { s with pm := { s.pm with hbOut := !s.pm.hbOut } }
    if s.pow.ladder ≤ 1 then (admittedPorts s).foldl (fun s p => modTx s p fun t => { t with rollDue := true }) s else s

/-- GM_SEQ of a grandmaster, every 8 Rounds (R472). -/
def gmSeqBoundary (s : State) : State :=
  if s.mer.state = .master && roundNo s % 8 = 0 then
    { s with mer := { s.mer with gmSeq := (s.mer.gmSeq + 1) % 65536, gmSeqRound := roundNo s } }
  else s

/-- TRAY_STEP to the standby for the Round just ended (R310). -/
def trayStep (s : State) : State :=
  if s.pm.role = .lead && triadRuns s && s.pow.ladder ≤ 1 && s.ident.boot ≥ 2 then
    let r := roundNo s - 1
    sendPartner 1 (fit 128 (leBytes 8 r ++ (sha (Config.trayInputs r)).take 32 ++ (sha (Config.trayOutputs r)).take 32 ++ leBytes 4 s.pm.epoch)) s
  else s

/-- Open groups (R246, R273). -/
def groupsOpen (s : State) : Nat := (s.groups.filter fun x => x.2.state = .running || x.2.state = .closing).length

/-- The words of the status page (R273). -/
def pageWords (s : State) : Tbl Word :=
  let r := roundNo s
  let flags := s.pow.ladder + 8 * s.mer.state.ctorIdx + 64 * bit s.ident.skeleton + 128 * bit s.pm.absent + 256 * bit s.pm.standing +
    512 * bit s.ident.fault + 1024 * bit (alertN s) + 2048 * s.cxl.mode
  let words : List (Nat × Nat) := [(0, s.cxl.statusSeq), (2, r % 2 ^ 32), (3, r / 2 ^ 32), (4, flags), (5, effModule s + 65536 * (s.pow.pinW % 65536)),
    (6, groupsOpen s), (8, tierBits s 0 + 16 * tierBits s 1 + 256 * tierBits s 2 + 4096 * tierBits s 3)]
  words.foldl (fun t x => tset 0 t x.1 (BitVec.ofNat 32 x.2)) []

/-- The page is rewritten: STATUS_SEQ + 1 at its start and at its end (R273, R274). -/
def rewritePage (s : State) : State :=
  if s.cxl.pageHeld then s
  else
    let s := { s with cxl := { s.cxl with statusSeq := (s.cxl.statusSeq + 2) % 2 ^ 32 } }
    { s with cxl := { s.cxl with page := pageWords s } }

/-- Counters, detail engines and settings that take effect at a boundary (R412, R417, R422, R425, R428). -/
def countersBoundary (s : State) : State :=
  let s := (s.tele.pcnt.map (·.1)).foldl (fun s k => setPcnt s k (pcntBoundary (pcntOf s k))) s
  (s.tele.details.map (·.1)).foldl (fun s e => detailBoundary e s) (teleBoundary s)

/-- The state after a command of the boundary that has no operand of its own. -/
def perform (f : State → Host.Outcome State Fault Refusal) (s : State) : State := match f s with | .next t => t | _ => s

/-- The partner watch of a boundary (R312, R313): a takeover that an earlier boundary prepared, then silent paths and a lost partner. -/
def partnerWatch (s : State) : State :=
  let s := perform execLeadAbsentTimeout (perform execLeadTakeover s)
  leadConflict (perform execPartnerLost (perform (execTrayPathSilent 2) (perform (execTrayPathSilent 1) s)))

/-- The postmaster's part of the boundary (R295–R297, R301, R310–R313, R475): the grid assigned, a restart due, the end of an absence, a channel's
pause, the watch over partner and accelerators, and the report. -/
def postmasterBoundary (s : State) : State :=
  let s := perform execGridAssignEffect s
  let s := if s.pm.absentClearDue then { s with pm := { s.pm with absent := false, absentClearDue := false, healthDue := true } } else s
  let s := perform execPostmasterRestart (perform execWatchdogExpiry s)
  rebuildHealth (askState (trayStep (partnerWatch (declareLost (reintegratePause s)))))

/-- Item 3 of R50: the PROTECT term, the caps and then the schedule entries whose boundary has come (R53, R394, R403); after them ladder changes
(R387), the ceiling, the band and the smoother for the Round that begins (R391, R395, R397). -/
def powerWork (avgInputW predictedW : Nat) (s : State) : State :=
  let s := rampDue (capsDue (protectBoundary avgInputW s))
  let s := ladderExit (ladderEntry (perform execTimedLadderDue s))
  leavingSend (perform execCapUnmet (perform execRampMovementEnd (governorBoundary avgInputW predictedW s)))

/-- The groups of the table. -/
def groupEntries (s : State) : List Nat := s.groups.map (·.1)

/-- Item 4 of R50: step ends, with timeouts after the arrivals, then launches (R252, R261), and the passes held while timed service was off or
their route removed (R265). -/
def stepWork (s : State) : State :=
  let s := (groupEntries s).foldl (fun s e => stepEnd e s) s
  let s := (groupEntries s).foldl (fun s e => stepEnd e (stepTimeout e s)) s
  let s := (groupEntries s).foldl (fun s e => perform (execStepLaunch e) s) s
  (groupEntries s).foldl (fun s e => resumeAxes e s) s

/-- Item 5 of R50: gap timeouts of both reorder units (R195). -/
def gapWork (s : State) : State :=
  [0, 1].foldl (fun s h => ((reorderOf s h).streams.map (·.1)).foldl (fun s k => gapTimeout h k s) s) s

/-- Item 6 of R50: roll-call windows and parks, then heartbeats (R302–R306). -/
def rollWork (s : State) : State := heartbeats ((admittedPorts s).foldl (fun s p => rollWindow p s) s)

/-- Timers in the order of the Rounds in which they expire (R297). -/
def timerOrder (s : State) : List Nat := (sortBy (fun a b => decide (a.2.expiry ≤ b.2.expiry)) s.pm.timers).map (·.1)

/-- Item 10 of R50: postmaster timer ticks (R317). -/
def timerWork (s : State) : State :=
  (timerOrder s).foldl (fun s t => perform (execTimerExpiry t) s) { s with pm := { s.pm with expired := [] } }

/-- A Round that a step repeats is executed again for chronicle, roll call and contour only (R42). -/
def periodicWork (s : State) : State := closeContour (chronDue (rollWork s))

/-- What the hardware does first at a boundary: skeleton service is entered, a pull warning and a fuse burn go on (R356, R439,
R444). -/
def protectionWork (s : State) : State := burnWork (pullSecond (pullFirst (enterSkeleton s)))

/-- Item 2 of R50: the sealed bank switches in, closes under member authority commit alone (R334), and drains are looked at (R202). -/
def bankWork (s : State) : State :=
  let s := perform execBankSwitch s
  drainBoundary (((s.staging.closes.filter (·.2)).map (·.1)).foldl (fun s g => perform (execMemberCloseCommit g) s) s)

/-- Time service of the boundary: parents and grandmasters lost, elections, HOLDOVER's end, and the rack's time lead (R44, R46, R47, R472). -/
def meridianWork (s : State) : State :=
  let s := perform execHoldoverExpiry (perform execGrandmasterLost (perform execParentLost s))
  let s := perform execElectionWindowClose (perform execElectionStartFree s)
  perform execRackTimeRelease (perform execRackTimeTakeover s)

/-- The capture ring at a boundary: a burst that found no space is dropped, a unit left unfilled is padded, and the header is rewritten where
WRITE_OFFSET can advance (R429, R430). -/
def captureWork (s : State) : State := publish (capturePad (burstDrop s))

/-- The due work of a boundary in the order of R50, items 2 to 10; then what R473 puts after item 10: standing orders and the expiry of the
staging bank. -/
def boundaryWork (avgInputW predictedW : Nat) (s : State) : State :=
  let s := cnt1 1 { s with cxl := { s.cxl with raised := 0 }, pow := { s.pow with jumped := false } }
  let s := [0, 1, 2].foldl (fun s c => modChan s c fun x => { x with inputs := [] }) s
  let s := bankWork (protectionWork s)
  let s := latchFallback (powerWork avgInputW predictedW s)
  let s := rollWork (gapWork (stepWork s))
  let s := resetShares s
  let s := (admittedPorts s).foldl (fun s p => noteCredit p s) s
  let s := countersBoundary (gmSeqBoundary (chronDue (meridianWork s)))
  let s := timerWork (captureWork (counterSnap (closeContour s)))
  let s := postmasterBoundary s
  let s := perform execStandingOrdersEnter (perform execStandingOrdersExit s)
  rewritePage (perform execStagingBankExpiry s)

/-- ROUND_BOUNDARY (R50): the Round just ended runs out, the Round number advances and a pending step is applied, and the work that is due is
done in order; of a Round that a step repeats, the periodic part (R42). The average input power of the Round just ended and the draw predicted
for the one that begins go to the governor. Until the module has started, only the counter moves. -/
def roundBoundary (avgInputW predictedW : Nat) (s : State) : State :=
  if held s then { s with mer := { setMeridian (merTotal s + advance (stepsLeft s) s) s.mer with cycle := 0 }, draw := s.draw + 1 }
  else
    let s := keeperReload (applyStep (toBoundary (endRound s)))
    if roundNo s ≤ s.mer.doneRound then periodicWork s
    else boundaryWork avgInputW predictedW { s with mer := { s.mer with doneRound := roundNo s } }

def execRoundBoundary (avgInputW predictedW : Nat) (s : State) : Host.Outcome State Fault Refusal := .next (roundBoundary avgInputW predictedW s)

end Sys2Proof.Machine
end

