-- ==== Sys2Proof/Machine/Dispatch.lean ====
section
/-! DEFINITION. One arm per command: a direct call of its meaning. -/

namespace Sys2Proof.Machine

/-- A command's effect on everything but the queue. -/
def exec (i : Instr) (s : State) : Host.Outcome State Fault Refusal :=
  match i with
  | .roundBoundary avgInputW predictedW => Sys2Proof.Machine.execRoundBoundary avgInputW predictedW s
  | .keeperReload => Sys2Proof.Machine.execKeeperReload s
  | .chronReceive p c rxNs rxFrac => Sys2Proof.Machine.execChronReceive p c rxNs rxFrac s
  | .meridianStep => Sys2Proof.Machine.execMeridianStep s
  | .parentLost => Sys2Proof.Machine.execParentLost s
  | .grandmasterLost => Sys2Proof.Machine.execGrandmasterLost s
  | .electionStartFree => Sys2Proof.Machine.execElectionStartFree s
  | .electionWindowClose => Sys2Proof.Machine.execElectionWindowClose s
  | .holdoverExpiry => Sys2Proof.Machine.execHoldoverExpiry s
  | .rackTimeTakeover => Sys2Proof.Machine.execRackTimeTakeover s
  | .rackTimeRelease => Sys2Proof.Machine.execRackTimeRelease s
  | .bankSwitch => Sys2Proof.Machine.execBankSwitch s
  | .stagingBankExpiry => Sys2Proof.Machine.execStagingBankExpiry s
  | .snapshotTake => Sys2Proof.Machine.execSnapshotTake s
  | .standingOrdersEnter => Sys2Proof.Machine.execStandingOrdersEnter s
  | .standingOrdersExit => Sys2Proof.Machine.execStandingOrdersExit s
  | .laserWavelengthLow tile fibre w pwr => Sys2Proof.Machine.execLaserWavelengthLow tile fibre w pwr s
  | .laserSelect c tile fibre => Sys2Proof.Machine.execLaserSelect c tile fibre s
  | .ringUnlock lane => Sys2Proof.Machine.execRingUnlock lane s
  | .ringSearch lane heater found => Sys2Proof.Machine.execRingSearch lane heater found s
  | .losAssert lane pwr => Sys2Proof.Machine.execLosAssert lane pwr s
  | .losDeassert lane pwr => Sys2Proof.Machine.execLosDeassert lane pwr s
  | .adaptFreezeEnd lane cause reading => Sys2Proof.Machine.execAdaptFreezeEnd lane cause s reading
  | .prbsGenStart c lane pattern seed duration => Sys2Proof.Machine.execPrbsGenStart c lane pattern seed duration s
  | .prbsCheckStart c lane pattern duration => Sys2Proof.Machine.execPrbsCheckStart c lane pattern duration s
  | .prbsClear c lane => Sys2Proof.Machine.execPrbsClear c lane s
  | .prbsChkLock lane received => Sys2Proof.Machine.execPrbsChkLock lane s received
  | .prbsChkLockLost lane first free last => Sys2Proof.Machine.execPrbsChkLockLost lane first free last s
  | .prbsDurationEnd lane first free last => Sys2Proof.Machine.execPrbsDurationEnd lane first free last s
  | .echoStart c tile corr portK laneJ startCm => Sys2Proof.Machine.execEchoStart c tile corr portK laneJ startCm s
  | .echoDone tile corr events => Sys2Proof.Machine.execEchoDone tile corr events s
  | .flitReceive p levels => Sys2Proof.Machine.execFlitReceive p levels s
  | .nakRepeat p => Sys2Proof.Machine.execNakRepeat p s
  | .ackSend p => Sys2Proof.Machine.execAckSend p s
  | .ackReceive p ackSeq => Sys2Proof.Machine.execAckReceive p ackSeq s
  | .nakReceive p ackSeq reason => Sys2Proof.Machine.execNakReceive p ackSeq reason s
  | .replayTimeout p => Sys2Proof.Machine.execReplayTimeout p s
  | .creditReceive p ded shr init => Sys2Proof.Machine.execCreditReceive p ded shr init s
  | .creditSend p => Sys2Proof.Machine.execCreditSend p s
  | .flitTransmit p => Sys2Proof.Machine.execFlitTransmit p s
  | .trainingStart p => Sys2Proof.Machine.execTrainingStart p s
  | .ts1End p ready ctle delay256 => Sys2Proof.Machine.execTs1End p ready ctle delay256 s
  | .ts2End p peerLanesOk precodeReq => Sys2Proof.Machine.execTs2End p peerLanesOk precodeReq s
  | .linkUp p => Sys2Proof.Machine.execLinkUp p s
  | .trainingRetry p => Sys2Proof.Machine.execTrainingRetry p s
  | .linkDown p => Sys2Proof.Machine.execLinkDown p s
  | .laneLoss lane cdr => Sys2Proof.Machine.execLaneLoss lane s cdr
  | .reshapeMarker p words => Sys2Proof.Machine.execReshapeMarker p words s
  | .linkNarrowed p peerLanesOk req => Sys2Proof.Machine.execLinkNarrowed p peerLanesOk s req
  | .laneRelease c p j => Sys2Proof.Machine.execLaneRelease c p j s
  | .laneReturn c p j => Sys2Proof.Machine.execLaneReturn c p j s
  | .laneRejoin p j => Sys2Proof.Machine.execLaneRejoin p j s
  | .laneReturnTimeout p j => Sys2Proof.Machine.execLaneReturnTimeout p j s
  | .laneRejoinAuto p j => Sys2Proof.Machine.execLaneRejoinAuto p j s
  | .surveySend p => Sys2Proof.Machine.execSurveySend p s
  | .surveyReceive p card => Sys2Proof.Machine.execSurveyReceive p card s
  | .surveyNoCard p => Sys2Proof.Machine.execSurveyNoCard p s
  | .admitHello p chain r bytes => Sys2Proof.Machine.execAdmitHello p chain r bytes s
  | .admitKey p cipher sig => Sys2Proof.Machine.execAdmitKey p cipher sig s
  | .admitFinish p content tag => Sys2Proof.Machine.execAdmitFinish p content tag s
  | .admitAbort p => Sys2Proof.Machine.execAdmitAbort p s
  | .admitStepTimeout p => Sys2Proof.Machine.execAdmitStepTimeout p s
  | .admitRetry p => Sys2Proof.Machine.execAdmitRetry p s
  | .admitReqRestore p => Sys2Proof.Machine.execAdmitReqRestore p s
  | .rekeyStart p => Sys2Proof.Machine.execRekeyStart p s
  | .rekeyReceive p nI => Sys2Proof.Machine.execRekeyReceive p nI s
  | .rekeyAckReceive p nR => Sys2Proof.Machine.execRekeyAckReceive p nR s
  | .oldKeyErase p => Sys2Proof.Machine.execOldKeyErase p s
  | .rekeyTimeout p => Sys2Proof.Machine.execRekeyTimeout p s
  | .ingressHead p vc shared payload => Sys2Proof.Machine.execIngressHead p vc shared payload s
  | .letterFlitReceive p vc ftype shared payload => Sys2Proof.Machine.execLetterFlitReceive p vc ftype shared payload s
  | .dispatcherMatch slot wrongA wrongB wrongC parity lost => Sys2Proof.Machine.execDispatcherMatch slot wrongA wrongB wrongC parity s lost
  | .dispatchChannelRetire c => Sys2Proof.Machine.execDispatchChannelRetire c s
  | .dispatchChannelRejoin c => Sys2Proof.Machine.execDispatchChannelRejoin c s
  | .routeReturn port route => Sys2Proof.Machine.execRouteReturn port route s
  | .copyCreditTimeout letter session => Sys2Proof.Machine.execCopyCreditTimeout letter session s
  | .vc7Stale letter port => Sys2Proof.Machine.execVc7Stale letter port s
  | .slowNoticeTimeout notice => Sys2Proof.Machine.execSlowNoticeTimeout notice s
  | .slowPostReceive reason payload => Sys2Proof.Machine.execSlowPostReceive reason payload s
  | .reorderArrival letter => Sys2Proof.Machine.execReorderArrival letter s
  | .reorderContextSet h key => Sys2Proof.Machine.execReorderContextSet h key s
  | .gapTimeout h key => Sys2Proof.Machine.execGapTimeout h key s
  | .clerkNop k op parity => Sys2Proof.Machine.execClerkNop k op s parity
  | .ld k op parity => Sys2Proof.Machine.execLd k op parity s
  | .st k op parity => Sys2Proof.Machine.execSt k op parity s
  | .vacc k op parity => Sys2Proof.Machine.execVacc k op parity s
  | .vaccc k op parity => Sys2Proof.Machine.execVaccc k op parity s
  | .vadd k op parity => Sys2Proof.Machine.execVadd k op s parity
  | .vsub k op parity => Sys2Proof.Machine.execVsub k op s parity
  | .vmul k op parity => Sys2Proof.Machine.execVmul k op s parity
  | .vfma k op parity => Sys2Proof.Machine.execVfma k op s parity
  | .vmax k op parity => Sys2Proof.Machine.execVmax k op s parity
  | .vmin k op parity => Sys2Proof.Machine.execVmin k op s parity
  | .vabs k op parity => Sys2Proof.Machine.execVabs k op s parity
  | .vscl k op parity => Sys2Proof.Machine.execVscl k op s parity
  | .vcmp k op parity => Sys2Proof.Machine.execVcmp k op s parity
  | .vsel k op parity => Sys2Proof.Machine.execVsel k op s parity
  | .vpre k op parity => Sys2Proof.Machine.execVpre k op s parity
  | .vmrg k op parity => Sys2Proof.Machine.execVmrg k op s parity
  | .vgth k op parity => Sys2Proof.Machine.execVgth k op parity s
  | .vsct k op parity => Sys2Proof.Machine.execVsct k op parity s
  | .vpbf k op parity => Sys2Proof.Machine.execVpbf k op s parity
  | .sets k op parity => Sys2Proof.Machine.execSets k op s parity
  | .adda k op parity => Sys2Proof.Machine.execAdda k op s parity
  | .loop k op parity => Sys2Proof.Machine.execLoop k op s parity
  | .endl k op parity => Sys2Proof.Machine.execEndl k op s parity
  | .press k op parity => Sys2Proof.Machine.execPress k op parity s
  | .pwait k op parity => Sys2Proof.Machine.execPwait k op s parity
  | .done k op parity => Sys2Proof.Machine.execDone k op s parity
  | .bundleLimit k => Sys2Proof.Machine.execBundleLimit k s
  | .sequencerPlace o => Sys2Proof.Machine.execSequencerPlace o s
  | .bundleTake k parity => Sys2Proof.Machine.execBundleTake k parity s
  | .bundleSteal k missed parity => Sys2Proof.Machine.execBundleSteal k s missed parity
  | .pressGemm8 o => Sys2Proof.Machine.execPressGemm8 o s
  | .pressGemm16 o => Sys2Proof.Machine.execPressGemm16 o s
  | .pressFold o => Sys2Proof.Machine.execPressFold o s
  | .pressUnfold o => Sys2Proof.Machine.execPressUnfold o s
  | .pressQuant o => Sys2Proof.Machine.execPressQuant o s
  | .pressDummy o cycles => Sys2Proof.Machine.execPressDummy o cycles s
  | .pressJobDone o parity => Sys2Proof.Machine.execPressJobDone o s parity
  | .stepLaunch e => Sys2Proof.Machine.execStepLaunch e s
  | .stepTimeout e => Sys2Proof.Machine.execStepTimeout e s
  | .stepEnd e => Sys2Proof.Machine.execStepEnd e s
  | .memberCloseCommit group => Sys2Proof.Machine.execMemberCloseCommit group s
  | .cxlPerstAssert => Sys2Proof.Machine.execCxlPerstAssert s
  | .cxlPerstDeassert => Sys2Proof.Machine.execCxlPerstDeassert s
  | .cxlLinkUp mode => Sys2Proof.Machine.execCxlLinkUp mode s
  | .cxlLinkDown => Sys2Proof.Machine.execCxlLinkDown s
  | .hostWindowWrite offset data => Sys2Proof.Machine.execHostWindowWrite offset data s
  | .hbDoorbell b value => Sys2Proof.Machine.execHbDoorbell b value s
  | .uioCompletion req error => Sys2Proof.Machine.execUioCompletion req error s
  | .uioTimeout req => Sys2Proof.Machine.execUioTimeout req s
  | .gddr7ParityFail half user again => Sys2Proof.Machine.execGddr7ParityFail half user again s
  | .voterDisagree differs => Sys2Proof.Machine.execVoterDisagree differs s
  | .channelFaultLocated ch => Sys2Proof.Machine.execChannelFaultLocated ch s
  | .duplexDiagnosisDone failed => Sys2Proof.Machine.execDuplexDiagnosisDone failed s
  | .reintegrateStart ch => Sys2Proof.Machine.execReintegrateStart ch s
  | .reintegrateSelftestDone ch pass => Sys2Proof.Machine.execReintegrateSelftestDone ch pass s
  | .reintegrateCopyDone ch => Sys2Proof.Machine.execReintegrateCopyDone ch s
  | .reintegrateRejoin ch => Sys2Proof.Machine.execReintegrateRejoin ch s
  | .aliveWrite => Sys2Proof.Machine.execAliveWrite s
  | .watchdogExpiry => Sys2Proof.Machine.execWatchdogExpiry s
  | .postmasterRestart => Sys2Proof.Machine.execPostmasterRestart s
  | .postmasterRestartDone => Sys2Proof.Machine.execPostmasterRestartDone s
  | .coreSig wrong => Sys2Proof.Machine.execCoreSig wrong s
  | .ramScrub doubleBit singleBit => Sys2Proof.Machine.execRamScrub doubleBit s singleBit
  | .voterCheck masked => Sys2Proof.Machine.execVoterCheck masked s
  | .rollCheck ok => Sys2Proof.Machine.execRollCheck ok s
  | .healthSend => Sys2Proof.Machine.execHealthSend s
  | .rollReceive p r => Sys2Proof.Machine.execRollReceive p r s
  | .rollWindowEval p => Sys2Proof.Machine.execRollWindowEval p s
  | .rollFrameSend => Sys2Proof.Machine.execRollFrameSend s
  | .aliveFrameSend => Sys2Proof.Machine.execAliveFrameSend s
  | .healthLetterReceive report => Sys2Proof.Machine.execHealthLetterReceive report s
  | .trayStepReceive round inDigest outDigest ownIn ownOut => Sys2Proof.Machine.execTrayStepReceive round inDigest outDigest ownIn ownOut s
  | .accNoteReceive slot note => Sys2Proof.Machine.execAccNoteReceive slot note s
  | .trayCapReceive r => Sys2Proof.Machine.execTrayCapReceive r s
  | .trayCapAckReceive r status => Sys2Proof.Machine.execTrayCapAckReceive r status s
  | .trayCapResend tag => Sys2Proof.Machine.execTrayCapResend tag s
  | .standbyStateCopy state => Sys2Proof.Machine.execStandbyStateCopy state s
  | .accErrAssert op asserted => Sys2Proof.Machine.execAccErrAssert op s asserted
  | .accBack op => Sys2Proof.Machine.execAccBack op s
  | .trayHbEdge => Sys2Proof.Machine.execTrayHbEdge s
  | .trayPathSilent path => Sys2Proof.Machine.execTrayPathSilent path s
  | .partnerLost => Sys2Proof.Machine.execPartnerLost s
  | .leadTakeover => Sys2Proof.Machine.execLeadTakeover s
  | .leadAbsentTimeout => Sys2Proof.Machine.execLeadAbsentTimeout s
  | .timerClaim cls rounds => Sys2Proof.Machine.execTimerClaim cls rounds s
  | .timerExpiry t => Sys2Proof.Machine.execTimerExpiry t s
  | .partArrival b e frag sig src cls plot groupOp => Sys2Proof.Machine.execPartArrival b e frag sig src cls plot groupOp s
  | .assemblyTimeout b => Sys2Proof.Machine.execAssemblyTimeout b s
  | .nop c => Sys2Proof.Machine.execNop c s
  | .identityRead c => Sys2Proof.Machine.execIdentityRead c s
  | .statusRead c => Sys2Proof.Machine.execStatusRead c s
  | .healthRead c what slot => Sys2Proof.Machine.execHealthRead c what slot s
  | .eventRead c fromSeq count => Sys2Proof.Machine.execEventRead c fromSeq count s
  | .alertAck c code => Sys2Proof.Machine.execAlertAck c code s
  | .trayStateRead c offset length => Sys2Proof.Machine.execTrayStateRead c offset length s
  | .restart c => Sys2Proof.Machine.execRestart c s
  | .stageReg c block offset value mask => Sys2Proof.Machine.execStageReg c block offset value mask s
  | .stageRead c block offset count => Sys2Proof.Machine.execStageRead c block offset count s
  | .commit c atRound probeOk => Sys2Proof.Machine.execCommit c atRound probeOk s
  | .commitForce c atRound probeOk => Sys2Proof.Machine.execCommitForce c atRound probeOk s
  | .discard c => Sys2Proof.Machine.execDiscard c s
  | .stageStatus c => Sys2Proof.Machine.execStageStatus c s
  | .gridAssign c body => Sys2Proof.Machine.execGridAssign c body s
  | .gridAssignEffect => Sys2Proof.Machine.execGridAssignEffect s
  | .rackWrite c h entries => Sys2Proof.Machine.execRackWrite c h entries s
  | .sprayWrite c h weights => Sys2Proof.Machine.execSprayWrite c h weights s
  | .maskWrite c h masks => Sys2Proof.Machine.execMaskWrite c h masks s
  | .atlasRead c h => Sys2Proof.Machine.execAtlasRead c h s
  | .plotWrite c h entries => Sys2Proof.Machine.execPlotWrite c h entries s
  | .plotRead c h => Sys2Proof.Machine.execPlotRead c h s
  | .slotmapWrite c h entries => Sys2Proof.Machine.execSlotmapWrite c h entries s
  | .slotmapRead c h => Sys2Proof.Machine.execSlotmapRead c h s
  | .copyWrite c h sessions => Sys2Proof.Machine.execCopyWrite c h sessions s
  | .copyRead c h => Sys2Proof.Machine.execCopyRead c h s
  | .windowWrite c h windows => Sys2Proof.Machine.execWindowWrite c h windows s
  | .groupOpen c g members => Sys2Proof.Machine.execGroupOpen c g members s
  | .groupClose c group => Sys2Proof.Machine.execGroupClose c group s
  | .groupMember c group e => Sys2Proof.Machine.execGroupMember c group e s
  | .groupRead c group => Sys2Proof.Machine.execGroupRead c group s
  | .progLoad c p => Sys2Proof.Machine.execProgLoad c p s
  | .progUnload c slot => Sys2Proof.Machine.execProgUnload c slot s
  | .capSet c scope index permille atRound reservedZero => Sys2Proof.Machine.execCapSet c scope index permille atRound reservedZero s
  | .capRead c badMode => Sys2Proof.Machine.execCapRead c s badMode
  | .capReadAck c ackSeq ackEpoch drawW => Sys2Proof.Machine.execCapReadAck c ackSeq ackEpoch drawW s
  | .rampPost c schedId entries => Sys2Proof.Machine.execRampPost c schedId entries s
  | .rampCancel c schedId => Sys2Proof.Machine.execRampCancel c schedId s
  | .ladderSet c target atRound => Sys2Proof.Machine.execLadderSet c target atRound s
  | .powerRead c => Sys2Proof.Machine.execPowerRead c s
  | .teleCfg c t => Sys2Proof.Machine.execTeleCfg c t s
  | .contourRead c which => Sys2Proof.Machine.execContourRead c which s
  | .counterRead c first count mode => Sys2Proof.Machine.execCounterRead c first count mode s
  | .counterReadArm c first count atRound => Sys2Proof.Machine.execCounterReadArm c first count atRound s
  | .detailStart c port duration => Sys2Proof.Machine.execDetailStart c port duration s
  | .detailStop c engine => Sys2Proof.Machine.execDetailStop c engine s
  | .sampleCfg c mode event offices toCapture period => Sys2Proof.Machine.execSampleCfg c mode event offices toCapture period s
  | .diagRead c block offset count => Sys2Proof.Machine.execDiagRead c block offset count s
  | .diagWrite c block offset value mask => Sys2Proof.Machine.execDiagWrite c block offset value mask s
  | .portTestClaim c k => Sys2Proof.Machine.execPortTestClaim c k s
  | .portTestRelease c k => Sys2Proof.Machine.execPortTestRelease c k s
  | .memTest c half whole lo len => Sys2Proof.Machine.execMemTest c half whole lo len s
  | .memRead c half offset length => Sys2Proof.Machine.execMemRead c half offset length s
  | .fwWrite c offset data => Sys2Proof.Machine.execFwWrite c offset data s
  | .fwVerify c => Sys2Proof.Machine.execFwVerify c s
  | .fwActivate c => Sys2Proof.Machine.execFwActivate c s
  | .attest c nonce mask => Sys2Proof.Machine.execAttest c nonce mask s
  | .certRead c which offset length => Sys2Proof.Machine.execCertRead c which offset length s
  | .ledgerRead c what first count => Sys2Proof.Machine.execLedgerRead c what first count s
  | .authorityEnrolKey c pubExp modulus seqStart badKind => Sys2Proof.Machine.execAuthorityEnrolKey c pubExp modulus seqStart s badKind
  | .authorityEnrolAnchors c anchors badKind => Sys2Proof.Machine.execAuthorityEnrolAnchors c anchors s badKind
  | .authorityEnrolRevocation c digests badKind => Sys2Proof.Machine.execAuthorityEnrolRevocation c digests s badKind
  | .managerSet c refs => Sys2Proof.Machine.execManagerSet c refs s
  | .linkRevoke c digest => Sys2Proof.Machine.execLinkRevoke c digest s
  | .journalRead c offset length => Sys2Proof.Machine.execJournalRead c offset length s
  | .blackboxRead c offset length => Sys2Proof.Machine.execBlackboxRead c offset length s
  | .bootChain katOk pufOk romAgree romMasked => Sys2Proof.Machine.execBootChain katOk pufOk romAgree romMasked s
  | .bootComplete partnerShowsLead => Sys2Proof.Machine.execBootComplete partnerShowsLead s
  | .trialConfirm => Sys2Proof.Machine.execTrialConfirm s
  | .fuseBurnRetry => Sys2Proof.Machine.execFuseBurnRetry s
  | .sealKatCheck pass => Sys2Proof.Machine.execSealKatCheck pass s
  | .sealCodeCheck differs => Sys2Proof.Machine.execSealCodeCheck differs s
  | .sealProgramCheck hashes => Sys2Proof.Machine.execSealProgramCheck hashes s
  | .jtagInstructionLoad harmless => Sys2Proof.Machine.execJtagInstructionLoad harmless s
  | .trstNAssert => Sys2Proof.Machine.execTrstNAssert s
  | .clockEdgeLoss src => Sys2Proof.Machine.execClockEdgeLoss src s
  | .clockMonitorWindow counts => Sys2Proof.Machine.execClockMonitorWindow counts s
  | .clockSrcReady src => Sys2Proof.Machine.execClockSrcReady src s
  | .crystalAmplitudeOk => Sys2Proof.Machine.execCrystalAmplitudeOk s
  | .crystalStartFail => Sys2Proof.Machine.execCrystalStartFail s
  | .clkSelCore c target => Sys2Proof.Machine.execClkSelCore c target s
  | .clkSelXtalDomain c target => Sys2Proof.Machine.execClkSelXtalDomain c target s
  | .refclkStartTimeout => Sys2Proof.Machine.execRefclkStartTimeout s
  | .pwrOkDeassert => Sys2Proof.Machine.execPwrOkDeassert s
  | .resetRelease posId => Sys2Proof.Machine.execResetRelease posId s
  | .rstNLow => Sys2Proof.Machine.execRstNLow s
  | .rstNCold => Sys2Proof.Machine.execRstNCold s
  | .rstNRise posId => Sys2Proof.Machine.execRstNRise posId s
  | .resetTile c t => Sys2Proof.Machine.execResetTile c t s
  | .resetGddr7Half c h => Sys2Proof.Machine.execResetGddr7Half c h s
  | .resetCxlPort c => Sys2Proof.Machine.execResetCxlPort c s
  | .resetUnitDone => Sys2Proof.Machine.execResetUnitDone s
  | .ladderEntry => Sys2Proof.Machine.execLadderEntry s
  | .ladderExit => Sys2Proof.Machine.execLadderExit s
  | .leavingSend => Sys2Proof.Machine.execLeavingSend s
  | .timedLadderDue => Sys2Proof.Machine.execTimedLadderDue s
  | .timedCapDue => Sys2Proof.Machine.execTimedCapDue s
  | .governorAdjust drawW => Sys2Proof.Machine.execGovernorAdjust drawW s
  | .capUnmet => Sys2Proof.Machine.execCapUnmet s
  | .rampEntryDue => Sys2Proof.Machine.execRampEntryDue s
  | .rampMovementEnd => Sys2Proof.Machine.execRampMovementEnd s
  | .capLetterSend op => Sys2Proof.Machine.execCapLetterSend op s
  | .capAckTimeout op => Sys2Proof.Machine.execCapAckTimeout op s
  | .capRefresh op => Sys2Proof.Machine.execCapRefresh op s
  | .vinDroop52 mv => Sys2Proof.Machine.execVinDroop52 mv s
  | .vinDroop48 mv => Sys2Proof.Machine.execVinDroop48 mv s
  | .vinDroop44 mv => Sys2Proof.Machine.execVinDroop44 mv s
  | .droopRelease => Sys2Proof.Machine.execDroopRelease s
  | .coolantFault cause => Sys2Proof.Machine.execCoolantFault cause s
  | .coolantRelease => Sys2Proof.Machine.execCoolantRelease s
  | .leakWet mv => Sys2Proof.Machine.execLeakWet mv s
  | .leakSensorFault mv => Sys2Proof.Machine.execLeakSensorFault mv s
  | .flowOkTest riseC avgW prevAvgW => Sys2Proof.Machine.execFlowOkTest riseC avgW prevAvgW s
  | .flowOkDeassert => Sys2Proof.Machine.execFlowOkDeassert s
  | .coolTOutOfRange t => Sys2Proof.Machine.execCoolTOutOfRange t s
  | .sensorStuck h n reading estimate => Sys2Proof.Machine.execSensorStuck h n reading estimate s
  | .thermalSt2 h readings estimate => Sys2Proof.Machine.execThermalSt2 h readings estimate s
  | .thermalRelease => Sys2Proof.Machine.execThermalRelease s
  | .thermalTrip h readings estimate => Sys2Proof.Machine.execThermalTrip h readings estimate s
  | .skeletonEnter => Sys2Proof.Machine.execSkeletonEnter s
  | .pcntWrite c k value => Sys2Proof.Machine.execPcntWrite c k value s
  | .pcntCtlWrite c k value => Sys2Proof.Machine.execPcntCtlWrite c k value s
  | .pcntWrap k => Sys2Proof.Machine.execPcntWrap k s
  | .contourPeriodClose => Sys2Proof.Machine.execContourPeriodClose s
  | .counterSnapRecord => Sys2Proof.Machine.execCounterSnapRecord s
  | .detailEngineEnd e => Sys2Proof.Machine.execDetailEngineEnd e s
  | .clerkSample k skid skidEnd instr => Sys2Proof.Machine.execClerkSample k skid skidEnd instr s
  | .capturePad => Sys2Proof.Machine.execCapturePad s
  | .capturePublish => Sys2Proof.Machine.execCapturePublish s
  | .adcCapStart c lane bursts => Sys2Proof.Machine.execAdcCapStart c lane bursts s
  | .adcBurstDone samples => Sys2Proof.Machine.execAdcBurstDone samples s
  | .adcBurstDrop => Sys2Proof.Machine.execAdcBurstDrop s
  | .pullWarn => Sys2Proof.Machine.execPullWarn s
  | .pullWarnFirstBoundary => Sys2Proof.Machine.execPullWarnFirstBoundary s
  | .pullWarnSecondBoundary => Sys2Proof.Machine.execPullWarnSecondBoundary s
  | .journalSummaryWrite => Sys2Proof.Machine.execJournalSummaryWrite s
  | .keepAliveOn mv => Sys2Proof.Machine.execKeepAliveOn mv s
  | .vinLoss => Sys2Proof.Machine.execVinLoss s
  | .inputOver mv => Sys2Proof.Machine.execInputOver mv s
  | .inputDisconnect mv => Sys2Proof.Machine.execInputDisconnect mv s
  | .pwrEnFall => Sys2Proof.Machine.execPwrEnFall s
  | .permitGrant tray permitId validMs reservedZero => Sys2Proof.Machine.execPermitGrant tray permitId validMs reservedZero s
  | .permitTimeout => Sys2Proof.Machine.execPermitTimeout s
  | .holdupMeasure cap10uF => Sys2Proof.Machine.execHoldupMeasure cap10uF s
  | .chargeComplete => Sys2Proof.Machine.execChargeComplete s
  | .pwrOkAssert => Sys2Proof.Machine.execPwrOkAssert s
  | .sidebandRollReceive r => Sys2Proof.Machine.execSidebandRollReceive r s
  | .sidebandAliveReceive box => Sys2Proof.Machine.execSidebandAliveReceive box s
  | .sidebandGmiPart box bodyLen e frag sig => Sys2Proof.Machine.execSidebandGmiPart box bodyLen e frag sig s
  | .plcaTransmitOpportunity => Sys2Proof.Machine.execPlcaTransmitOpportunity s
  | .laserUnitPoll u status => Sys2Proof.Machine.execLaserUnitPoll u status s
  | .blackboxBlockWrite => Sys2Proof.Machine.execBlackboxBlockWrite s
  | .laserWavelengthOk tile fibre w pwr => Sys2Proof.Machine.execLaserWavelengthOk tile fibre w pwr s
  | .adaptFreezeStart lane cause reading => Sys2Proof.Machine.execAdaptFreezeStart lane cause s reading
  | .laneFreezeWrite c lane freeze => Sys2Proof.Machine.execLaneFreezeWrite c lane freeze s
  | .prbsStop c lane first free last => Sys2Proof.Machine.execPrbsStop c lane first free last s
  | .duplexWordTimeout => Sys2Proof.Machine.execDuplexWordTimeout s
  | .officeProgramReloadDone o => Sys2Proof.Machine.execOfficeProgramReloadDone o s
  | .memTestEnd half whole lo => Sys2Proof.Machine.execMemTestEnd half whole lo s
  | .leakLineDry mv => Sys2Proof.Machine.execLeakLineDry mv s
  | .pwrEnRise => Sys2Proof.Machine.execPwrEnRise s
  | .vinBelow54V mv => Sys2Proof.Machine.execVinBelow54V mv s

end Sys2Proof.Machine
end

