-- ==== Sys2Proof/Safety.lean ====
section
/-! DEFINITION. The terms that claims use: what posting an event, sending a letter and completing a command may touch, when a command of a
post box runs, and the invariants of the whole machine. -/

namespace Sys2Proof.Machine

/-! ### What may differ -/

/-- `t` differs from `s` at most in what counting and reporting write (R340–R342, R412–R418, R466, R471): the named counters, the values of the
programmable ones, the event ring, log and alerts, the MSI-X vectors raised, and the events gathered for the black box. -/
def Reports (s t : State) : Prop :=
  t = { s with
    tele := { s.tele with cnt := t.tele.cnt, pcnt := t.tele.pcnt },
    gmi := { s.gmi with eventSeq := t.gmi.eventSeq, eventProduce := t.gmi.eventProduce, ring := t.gmi.ring, log := t.gmi.log, alerts := t.gmi.alerts },
    cxl := { s.cxl with raised := t.cxl.raised, pba := t.cxl.pba },
    tray := { s.tray with bbGathered := t.tray.bbGathered, bbSince := t.tray.bbSince, deferredEvents := t.tray.deferredEvents } }

/-- `t` differs from `s` at most in what Reports allows and in what sending letters of the module's own writes (R135, R145, R180, R201): the
egresses, the sequence numbers of its own streams, the spray pointers and the Rounds of the last lookups. -/
def Sends (s t : State) : Prop :=
  Reports { s with
    sw := { s.sw with egress := t.sw.egress },
    route := { s.route with
      ownSseq := t.route.ownSseq, sptr := t.route.sptr, lookedRack := t.route.lookedRack, lookedPlot := t.route.lookedPlot } } t

/-- `t` differs from `s` at most in what Sends allows and in what completing a command of a post box writes (R324–R329): the boxes, the
order in which they are served, the command being executed, the completions that the voter holds (R292) and the sideband frames that wait. -/
def Answers (s t : State) : Prop :=
  Sends { s with
    gmi := { s.gmi with
      boxes := t.gmi.boxes, servedMain := t.gmi.servedMain, lastMain := t.gmi.lastMain, lastSmall := t.gmi.lastSmall,
      executing := t.gmi.executing, held := t.gmi.held },
    tray := { s.tray with frames := t.tray.frames } } t

/-! ### One unit alone -/

/-- `t` differs from `s` at most in lane `g`. -/
def LaneOnly (g : Nat) (s t : State) : Prop := t = { s with lanes := t.lanes } ∧ ∀ h, h ≠ g → laneOf t h = laneOf s h

/-- `t` differs from `s` at most in tile `n`. -/
def TileOnly (n : Nat) (s t : State) : Prop := t = { s with tiles := t.tiles } ∧ ∀ h, h ≠ n → tileOf t h = tileOf s h

/-- `t` differs from `s` at most in the link of port `p`. -/
def LinkOnly (p : Nat) (s t : State) : Prop := t = { s with links := t.links } ∧ ∀ h, h ≠ p → linkOf t h = linkOf s h

/-- `t` differs from `s` at most in office `o`. -/
def OfficeOnly (o : Nat) (s t : State) : Prop := t = { s with offices := t.offices } ∧ ∀ h, h ≠ o → officeOf t h = officeOf s h

/-- `t` differs from `s` at most in clerk `k`. -/
def ClerkOnly (k : Nat) (s t : State) : Prop := t = { s with clerks := t.clerks } ∧ ∀ h, h ≠ k → clerkOf t h = clerkOf s h

/-- `t` differs from `s` at most in the group of entry `e`. -/
def GroupOnly (e : Nat) (s t : State) : Prop := t = { s with groups := t.groups } ∧ ∀ h, h ≠ e → groupOf t h = groupOf s h

/-! ### Commands of the post boxes -/

/-- An accepted command runs: its box is served (R330 step 3), its turn has come (R328), it did not come twice (R329), its envelope calls for nothing
more at acceptance (step 5, R322: what a signature records first is CommandsGated's), and the class granted reaches the opcode's least authority
(R321, step 6). -/
def Runs (c : Ctx) (opcode : Nat) (s : State) : Prop :=
  served s c opcode = .run ∧ keptFor (entryFor c opcode s) s = none ∧ acceptCheck (entryFor c opcode s) s = (.ok, s) ∧
    authCode ((opcodeLeast opcode).getD .operator) ≤ authCode (granted s c)

/-- A response of `n` bytes fits the box (R324). -/
def Fits (c : Ctx) (n : Nat) : Prop := n + 32 ≤ boxLimit c.box

/-- A command that runs completes with this answer (R324). -/
def Completes (c : Ctx) (opcode : Nat) (i : Instr) (a : Ans) (s : State) : Prop := Runs c opcode s → exec i s = .next (complete c opcode a)

/-- The staging bank is this box's to write: it holds it, or nobody does, and it is not sealed (R333, R335). -/
def MayStage (c : Ctx) (s : State) : Prop := (s.staging.holder = none ∨ s.staging.holder = some c.box) ∧ s.staging.sealed = none

/-- The header of a table write of `n` entries of a table with `limit` of them (R336). -/
def WriteHdr (h : TableHdr) (limit n : Nat) : Prop := h.table = 0 ∧ h.bank = 0 ∧ h.count = n ∧ 1 ≤ n ∧ h.first + n ≤ limit

/-- The header of a table read (R336). -/
def ReadHdr (h : TableHdr) (limit : Nat) : Prop := h.bank ≤ 1 ∧ 1 ≤ h.count ∧ h.first + h.count ≤ limit

/-! ### Flits -/

/-- A NAK with the number before ESEQ and its REASON (R96). -/
def nakFlit (eseq reason : Nat) : Flit :=
  { type := 7, vc := 0, shared := false, payload := fit 236 (leBytes 2 ((eseq + 4095) % 4096) ++ leBytes 1 reason) }

/-- The full number of a received flit, in the space of its type (R92). -/
def flitNumber (l : Link) (hdr : Nat) : Nat :=
  if sequenced (hdr % 16) then extendSeq l.rx.eseq (bitsOf hdr 18 7) else extendUnseq l.rx.lastUnseq (bitsOf hdr 18 7)

/-- The tag that a received flit must carry (R91, R92): over its header and the 236 bytes after it, with the key that its KEY_PHASE names. -/
def tagOf (l : Link) (body : List Byte) : Nat :=
  let hdr := fieldAt body 0 4
  let k := rxKey l (bitOf hdr 30)
  (Config.gcmTag k.1 (flitIv k.2 (sequenced (hdr % 16)) (flitNumber l hdr)) (leBytes 4 hdr) (sliceAt body 4 236)).toNat

/-- A received flit's payload is ciphertext: on an admitted link, and of the peer's FINISH while it is being admitted (R91, R112). -/
def flitSealed (l : Link) (body : List Byte) : Bool :=
  l.disc = .admitted || (l.disc = .admitting && fieldAt body 0 4 % 16 = 11 && fieldAt body 240 8 ≠ 0)

/-- A received flit as it is read (R88, R91). -/
def flitSeen (l : Link) (body : List Byte) : Flit :=
  let hdr := fieldAt body 0 4
  let k := rxKey l (bitOf hdr 30)
  { type := hdr % 16, vc := bitsOf hdr 6 4, shared := bitOf hdr 31,
    payload := if flitSealed l body then
        fit 236 (Config.gcmPlain k.1 (flitIv k.2 (sequenced (hdr % 16)) (flitNumber l hdr)) (leBytes 4 hdr) (sliceAt body 4 236))
      else sliceAt body 4 236 }

/-- A received flit is one that the link takes: of a type that crosses it (R91) and, where it takes a credit, on a VC offered there (R100). -/
def flitUsable (p : Nat) (l : Link) (hdr : Nat) : Bool :=
  (l.disc = .admitted || crossesEarly (hdr % 16)) &&
  !(takesCredit (hdr % 16) && (bitsOf hdr 6 4 = 4 || bitsOf hdr 6 4 = 5) && !isAccess p)

/-! ### Clerks -/

/-- `u` is `s` after clerk `k` issued one instruction of `cycles` issue cycles (R208–R210, R423–R427): the next instruction, the cycles, the
instruction last issued, and otherwise nothing of the module but the registers, loops, draws and outstanding jobs of that clerk. -/
def Issues (k cycles : Nat) (s u : State) : Prop :=
  ClerkOnly k { s with draw := u.draw } u ∧
  clerkOf u k = { clerkOf s k with
    pc := (clerkOf s k).pc + 1, issued := (clerkOf s k).issued + cycles, sinceSample := (clerkOf s k).sinceSample + 1, waiting := false,
    waitSince := none, waited := (clerkOf s k).waited + waitCycles s (clerkOf s k),
    last := (clerkOf s k).bundle.map fun b => (b, (clerkOf s k).pc, decide ((clerkOf s k).state = .foreign)),
    v := (clerkOf u k).v, kind := (clerkOf u k).kind, m := (clerkOf u k).m, a := (clerkOf u k).a, s := (clerkOf u k).s,
    loops := (clerkOf u k).loops, draws := (clerkOf u k).draws, outstanding := (clerkOf u k).outstanding }

/-- Every register but those in `d` (vectors) holds what it held. -/
def VectorsOnly (d : List Nat) (x y : Clerk) : Prop :=
  (∀ r, r ∉ d → vreg y r = vreg x r ∧ ∀ n, laneKind y r n = laneKind x r n) ∧ y.m = x.m ∧ y.a = x.a ∧ y.s = x.s ∧ y.loops = x.loops ∧ y.draws = x.draws ∧
  y.outstanding = x.outstanding

/-- Register `r` holds `f n` in every active lane n, as FP32 (`kind n` is 1) or INT32 (2), and in the others what it held (R209). -/
def Holds (i : ClerkOp) (r : Nat) (kind : Nat → Nat) (f : Nat → BitVec 32) (x y : Clerk) : Prop :=
  ∀ n, n < 64 → lane y r n = (if active x i n then f n else lane x r n) ∧ laneKind y r n = if active x i n then kind n else laneKind x r n

/-- A state with the reads of the program store for one instruction of a clerk counted (R207). -/
def Fetched (k : Nat) (s u : State) : State := cntAdd (idOffice 6 (k / 32)) (fetches (clerkOf s k)) u

/-- An address register after a memory operation: with INC, An := An + Sn modulo 2²⁵ (R208, R209); the others as they were. -/
def Stepped (i : ClerkOp) (x y : Clerk) : Prop :=
  (∀ n, n ≠ i.an ∨ i.inc = false → areg y n = areg x n) ∧
  (i.inc = true → ((areg y i.an : Nat) : Int) = ((areg x i.an : Int) + (sreg x i.an).toInt) % (2 ^ 25 : Nat))

/-- A lane-wise instruction of one issue cycle, operation `code` of the clerk's program (R210, R213): each lane FP32 where its sources hold FP32 (or
nothing yet), INT32 where they hold INT32; where they hold both the manual states no value and the lane is free (notes/assumptions/10.md). -/
def LaneResult (c : Instr) (k code : Nat) (i : ClerkOp) (rs : List Nat) (ff fi : Clerk → Nat → BitVec 32) : Prop :=
  ∀ s x, x = clerkOf s k → issues s k code i = true →
    ∃ u, exec c s = .next (cnt1 (idClerk 8 k) (Fetched k s u)) ∧ Issues k 1 s u ∧ VectorsOnly [i.vd] x (clerkOf u k) ∧
      u.draw = s.draw + bit (mixed x rs) ∧
      Holds i i.vd (fun n => if kindsAt x rs n = 2 then 2 else 1)
        (fun n => if kindsAt x rs n = 3 then freeLane s.draw n else if kindsAt x rs n = 2 then fi x n else ff x n) x (clerkOf u k)

/-- An instruction that reads no SRAM (R213, R214): it has no effect where it is not the next of the clerk's program. Its word bad once is counted
and read again; bad twice it sends the bundle back to the head of its home queue with RETRY set. -/
def WordParity (c : Nat → Instr) (k code : Nat) (i : ClerkOp) : Prop :=
  ∀ s, (issues s k code i = false → ∀ n, exec (c n) s = .next s) ∧
    (issues s k code i = true → exec (c 1) s = exec (c 0) (cnt1 (idOffice 2 (k / 32)) (cnt1 (idOffice 6 (k / 32)) s))) ∧
    ∀ n b, issues s k code i = true → 2 ≤ n → (clerkOf s k).bundle = some b → b.retry = false →
      ∃ t, exec (c n) s = .next t ∧ (clerkOf t k).bundle = none ∧ (clerkOf t k).state = .idle ∧
        (clerkOf t b.home).queue = { b with retry := true } :: (clerkOf s b.home).queue ∧ t.groups = s.groups

/-- An instruction that reads office SRAM, `reads` its bytes (R207, R211, R214): as WordParity, for its data. -/
def DataParity (c : Nat → Instr) (k code : Nat) (i : ClerkOp) (reads : State → List Nat) : Prop :=
  ∀ s, (issues s k code i = false → ∀ n, exec (c n) s = .next s) ∧
    ∀ b, issues s k code i = true → (clerkOf s k).bundle = some b → (∀ a ∈ reads s, mayRead b a = true) → formOk i false = true →
      (∃ t u, exec (c 1) s = .next t ∧ exec (c 0) (cnt1 (idOffice 2 (clerkOf s k).home) s) = .next u ∧ Reports u t) ∧
      ∀ n, 2 ≤ n → b.retry = false → ∃ t, exec (c n) s = .next t ∧ (clerkOf t k).bundle = none ∧ (clerkOf t k).state = .idle ∧
        (clerkOf t b.home).queue = { b with retry := true } :: (clerkOf s b.home).queue ∧ t.groups = s.groups

/-! ### Invariants -/

/-- Every mode is one that the manual gives: ladder states ST0 to ST4, in force, on the way or kept for a return (R385); a selected clock
source is one of the four (R368); the progress of start-up (R349), of a pull (R439) and the leak line's state (R443); and the Meridian within its 64 bits and 32-bit fraction (R32). -/
def LegalModes (s : State) : Prop :=
  s.pow.ladder ≤ 4 ∧ (∀ m, s.pow.move = some m → m.target ≤ 4) ∧ (∀ x, s.pow.timedLadder = some x → x.1 ≤ 4) ∧ s.pow.priorLadder ≤ 4 ∧
  s.clk.coreSrc < 4 ∧ s.clk.xtalSrc < 4 ∧ s.ident.boot ≤ 2 ∧ s.tray.pull ≤ 3 ∧ s.pow.leak ≤ 2 ∧
  s.mer.ns < 2 ^ 64 ∧ s.mer.frac < 2 ^ 32

/-- The byte memories that the manual gives an address space stand in their canonical form: the two halves of the GDDR7 (R280), the SRAM of the
offices (R206), the journal and the black box (R464) and the two firmware slots (R351). -/
def MemoriesCanonical (s : State) : Prop :=
  (∀ x ∈ s.mem, x.2.mem.wf = true) ∧ (∀ x ∈ s.offices, x.2.sram.wf = true) ∧ s.tray.journal.wf = true ∧ s.tray.blackbox.wf = true ∧
  s.trust.slot0.bytes.wf = true ∧ s.trust.slot1.bytes.wf = true

end Sys2Proof.Machine
end

