-- ==== Sys2Proof/Certificates/Slice0/Obligations.lean ====
section
/-! DEFINITION. The statements for the provers, by the parts of the spec they are about. -/

open Sys2Proof Sys2Proof.Machine

/-! ### The block -/

/-- A step takes the command at the front of the queue and runs it on the rest. -/
def Obligations.StepRunsFront : Prop :=
  ∀ (c : Instr) (rest : List Instr) (s : State), step { s with pending := c :: rest } = exec c { s with pending := rest }

/-- On an empty queue one core cycle passes (the model's own choice, notes/assumptions/1.md): the Meridian advances by one increment of R32,
modulo its 64 bits and fraction, and the cycle count by one, unless that would reach the boundary, which is ROUND_BOUNDARY's; the rest of the
module changes only in what counting and reporting write, the counts of a sampled event among them (R425); then the GDDR7 halves serve what waits
(R283), which is nothing where no request waits. -/
def Obligations.IdleCycle : Prop :=
  ∀ s : State, s.pending = [] →
    (merTotal s + advance 1 s < merNext s →
      ∃ t, step s = .next (memoryRun 1 t) ∧ (memoryRun 1 t).mer = t.mer ∧
        ((memOf s 0).waiting = [] → (memOf s 1).waiting = [] → memoryRun 1 t = t) ∧ merTotal t = (merTotal s + advance 1 s) % 2 ^ 96 ∧ t.mer.cycle = s.mer.cycle + 1 ∧
        Reports { s with mer := t.mer, draw := s.draw + 1, offices := t.offices } t ∧
        ∀ o, officeOf t o = { officeOf s o with eventCount := (officeOf t o).eventCount }) ∧
    (merNext s ≤ merTotal s + advance 1 s → step s = .next s)

/-- No command stops the block or touches the queue of those that wait behind it: every command, on every state, answers a next state with the
same queue. -/
def Obligations.EveryCommandAnswers : Prop :=
  ∀ (i : Instr) (s : State), ∃ t, exec i s = .next t ∧ t.pending = s.pending

/-- Every step keeps the modes legal (LegalModes in Safety.lean): the ladder, a ladder change on the way or timed, the selected clock sources,
the progress of start-up and of a pull, the leak line, and the Meridian within its 64 bits and 32-bit fraction. -/
def Obligations.LegalModesKept : Prop :=
  ∀ s t : State, LegalModes s → step s = .next t → LegalModes t

/-- Every step keeps the byte memories in canonical form (MemoriesCanonical in Safety.lean): GDDR7, office SRAM, journal, black box and firmware
slots. -/
def Obligations.MemoriesCanonicalKept : Prop :=
  ∀ s t : State, MemoriesCanonical s → step s = .next t → MemoriesCanonical t

/-- After reset every mode is legal, and the byte memories are in canonical form and read 0 everywhere (what unlisted bytes read as is the model's
own choice, notes/assumptions/7.md). -/
def Obligations.InvariantsAtReset : Prop :=
  LegalModes State.reset ∧ MemoriesCanonical State.reset ∧
  ∀ (h o a : Nat), mget (memOf State.reset h).mem a = 0 ∧ mget (officeOf State.reset o).sram a = 0

/-- Posting an event outside KEEP and CHARGING (R340, R342): it enters the log with the next EVENT_SEQ, the present Round, its code, subject and
severity; where 63 records are unread the ring drops it; a severity above report raises the alert; in KEEP and CHARGING it waits (R471). -/
def Obligations.EventsPosted : Prop :=
  ∀ (e : Event) (s : State),
    (∃ r ∈ (putEvent e s).2.gmi.log, r = { e with seq := s.gmi.eventSeq }) ∧
    (putEvent e s).2.gmi.eventSeq = (s.gmi.eventSeq + 1) % 2 ^ 32 ∧
    ((putEvent e s).1 = true → (putEvent e s).2.gmi.ring = s.gmi.ring ∧ (putEvent e s).2.gmi.eventProduce = s.gmi.eventProduce) ∧
    ((putEvent e s).1 = false → (putEvent e s).2.gmi.eventProduce = (s.gmi.eventProduce + 1) % 2 ^ 32 ∧
      { e with seq := s.gmi.eventSeq } ∈ (putEvent e s).2.gmi.ring) ∧
    (e.severity ≠ 0 → (e.code, roundNo s) ∈ (putEvent e s).2.gmi.alerts) ∧
    (e.severity = 0 → (putEvent e s).2.gmi.alerts = s.gmi.alerts) ∧
    Reports s (putEvent e s).2

/-- R342: an event of SEVERITY 1 or 2 asserts ALERT_N; an ALERT_ACK that names a code, or 0xFFFF, acknowledges the alerts of that code, or all; ALERT_N
deasserts exactly when every alert raised is acknowledged, and one raised in the same Round as the acknowledgement keeps it asserted. -/
def Obligations.AlertsAcknowledged : Prop :=
  (∀ (e : Event) (s : State), e.severity = 1 ∨ e.severity = 2 →
    alertN (putEvent e s).2 = true ∧ (e.code, roundNo s) ∈ (putEvent e s).2.gmi.alerts) ∧
  (∀ (c : Ctx) (code : Nat) (s : State), ∃ u, Completes c 5 (.alertAck c code) (okAns u) s ∧
    (∀ a, a ∈ u.gmi.alerts ↔ a ∈ s.gmi.alerts ∧ ¬((code = 0xFFFF ∨ a.1 = code) ∧ a.2 ≠ roundNo s)) ∧
    (alertN u = false ↔ ∀ a ∈ s.gmi.alerts, (code = 0xFFFF ∨ a.1 = code) ∧ a.2 ≠ roundNo s) ∧
    u = { s with gmi := { s.gmi with alerts := u.gmi.alerts } })

/-- Completing a command (R324, R328, R329): the box's last completion carries the command's TAG and OPCODE, the class granted, the status,
owner, DETAIL and response of its answer, and the present Round; it is kept for a repetition of the TAG; where the voter holds outputs it waits behind
those held, and leaves with them in order when the voter holds no longer (R290, R292); a waiting command with this TAG and OPCODE
leaves the queue, or the one being executed ends; and nothing else of what the action left changes but what answering writes (Answers in Safety.lean). -/
def Obligations.CompletionsRecorded : Prop :=
  ∀ (c : Ctx) (opcode : Nat) (a : Ans),
    (a.post.pm.holding = false → a.post.pm.noneMode = false ∨ a.post.ident.skeleton = true →
      ∃ r, (boxOf (complete c opcode a) (boxNo c.box)).last = some r ∧ r.tag = c.tag ∧ r.opcode = opcode ∧ r.status = a.status ∧
      r.auth = granted a.post c ∧ r.partAck = false ∧ r.ownerKind = a.ownerKind ∧ r.ownerId = a.ownerId ∧ r.detail = a.detail ∧
      r.response = a.response ∧ r.round = roundNo a.post ∧
      (if isLetterBox c.box then c.src else 0, r) ∈ (boxOf (complete c opcode a) (boxNo c.box)).kept) ∧
    (a.post.pm.holding = true → ∃ o, (complete c opcode a).gmi.held = a.post.gmi.held ++ [o] ∧ o.box = c.box ∧ o.src = c.src ∧ o.record.tag = c.tag ∧
      o.record.opcode = opcode ∧ o.record.status = a.status ∧ o.record.response = a.response ∧
      (boxOf (complete c opcode a) (boxNo c.box)).last = (boxOf a.post (boxNo c.box)).last) ∧
    (a.post.pm.holding = false → (releaseHeld a.post).gmi.held = [] ∧ Answers a.post (releaseHeld a.post)) ∧
    (∀ w, a.post.gmi.executing = none → (boxOf a.post (boxNo c.box)).waiting = [w] → w.isOf c opcode = true →
      (boxOf (complete c opcode a) (boxNo c.box)).waiting = []) ∧
    (∀ w, a.post.gmi.executing = some w → w.isOf c opcode = true → (complete c opcode a).gmi.executing = none ∧
      (boxOf (complete c opcode a) (boxNo c.box)).waiting = (boxOf a.post (boxNo c.box)).waiting) ∧
    (∀ b, b ≠ boxNo c.box → boxOf (complete c opcode a) b = boxOf a.post b) ∧
    Answers a.post (complete c opcode a)

/-- A command whose class is below its opcode's least authority completes with NOT_PERMITTED and no effect; one whose box is refused completes with
that status and no effect; where nothing answers, nothing happens; and one waits, with no effect, while another is being executed or stands
before it in its box, or while its arrival is to end standing orders first (R316, R321, R328, R330 steps 3 and 6). At acceptance one that came twice is answered from the completion kept,
CACHED (R329); a signature that fails, a SEQ not above the last or a Round past VALID_UNTIL ends it, and a signed one that passes records its SEQ, with
a new floor 2²⁴ above where it reaches the floor (R322, R330 step 5, R364). -/
def Obligations.CommandsGated : Prop :=
  ∀ (c : Ctx) (opcode : Nat) (body : State → Ans) (s : State),
    (served s c opcode = .run → keptFor (entryFor c opcode s) s = none → ∀ t, acceptCheck (entryFor c opcode s) s = (.ok, t) →
      (authCode (granted t c) < authCode ((opcodeLeast opcode).getD .operator) → gmiRun c opcode body s = complete c opcode (refuse .notPermitted t)) ∧
      (authCode ((opcodeLeast opcode).getD .operator) ≤ authCode (granted t c) → Fits c (body t).response.length → (body t).later = false →
        gmiRun c opcode body s = complete c opcode (body t))) ∧
    (served s c opcode = .run → ∀ r, keptFor (entryFor c opcode s) s = some r → ∃ w, w = entryFor c opcode s ∧
      gmiRun c opcode body s = sendCompletion c.box { r with cached := true } c.src w.cls w.plot w.replyAddr (takeTurn c opcode s)) ∧
    (served s c opcode = .run → keptFor (entryFor c opcode s) s = none → ∀ t, acceptCheck (entryFor c opcode s) s = (.refusedSignature, t) →
      gmiRun c opcode body s = complete { c with signed := false } opcode (refuse .refusedSignature t)) ∧
    (served s c opcode = .run → keptFor (entryFor c opcode s) s = none → ∀ st t, acceptCheck (entryFor c opcode s) s = (st, t) →
      st = .staleSequence ∨ st = .noHoldup → gmiRun c opcode body s = complete c opcode (refuse st t)) ∧
    (∀ e b g, (signatureOk e b g s = false → signedCheck e b g s = (.refusedSignature, s)) ∧
      (signatureOk e b g s = true → e.seq ≤ s.gmi.lastSeq ∨ (e.validUntil ≠ 0 ∧ e.validUntil < roundNo s) → signedCheck e b g s = (.staleSequence, s)) ∧
      (signatureOk e b g s = true → s.gmi.lastSeq < e.seq → e.validUntil = 0 ∨ roundNo s ≤ e.validUntil →
        (e.seq < s.gmi.seqFloor → signedCheck e b g s = (.ok, { s with gmi := { s.gmi with lastSeq := e.seq } })) ∧
        (s.gmi.seqFloor ≤ e.seq → holdupOk s 32 = false → signedCheck e b g s = (.noHoldup, s)) ∧
        (s.gmi.seqFloor ≤ e.seq → holdupOk s 32 = true → ∃ t, signedCheck e b g s = (.ok, t) ∧ t.gmi = { s.gmi with lastSeq := e.seq, seqFloor := e.seq + 2 ^ 24 } ∧
          tfind t.trust.floorLog (s.trust.floorEntries % 32768) = some (e.seq + 2 ^ 24)))) ∧
    (gate s c.box opcode = .run → awaitsExit s c = true → gmiRun c opcode body s = s) ∧
    (∀ st, gate s c.box opcode = .refuse st → gmiRun c opcode body s = complete c opcode (refuse st s)) ∧
    (gate s c.box opcode = .silent → gmiRun c opcode body s = s) ∧
    (∀ w, s.gmi.executing = some w → gate s c.box opcode = .run → gmiRun c opcode body s = s) ∧
    (∀ w ws, (boxOf s (boxNo c.box)).waiting = w :: ws → w.isOf c opcode = false → gate s c.box opcode = .run → gmiRun c opcode body s = s)
/-! ### Meridian time (02) -/

/-- ROUND_BOUNDARY of a module that runs, with REFCLK and no step pending (R32, R33, R40, R50 item 1): the Meridian reaches the first value of its
core cycles at or above the next multiple of 1,024 ns, less than one increment beyond it, the cycle count restarts, and the RATE_ADJ of the last
update takes effect. The counter is within its 64 bits (LegalModes) and short of their end, and RATE_ADJ within the clamp of R32. -/
def Obligations.RoundBoundaryTime : Prop :=
  ∀ (avgW predictedW : Nat) (s : State), s.tray.start = .running → s.clk.pwrReset = false → s.clk.rstLow = false →
    s.mer.keeperRuns = false → s.mer.pendingStep = none → s.mer.rate.natAbs ≤ 1000000 * 512000 → s.mer.frac < 2 ^ 32 → s.mer.ns + 2048 < 2 ^ 64 →
    ∃ t, exec (.roundBoundary avgW predictedW) s = .next t ∧ roundNo t = roundNo s + 1 ∧ merNext s ≤ merTotal t ∧
      merTotal t < merNext s + cycleNum s.mer.rate / cycleDen + 2 ∧ t.mer.cycle = 0 ∧ t.mer.rate = s.mer.rateNext

/-- A CHRON is accepted where its SEQ is newer than the last accepted on its port, or the first: its SEQ, its receive time, the
Meridian less the receive path's latency (R37), and the sender's state are kept for the next exchange; one that is not newer leaves every port, state, offset and rate of Meridian time as it was; either way the rest
of the module stands, but for standing routes that fall back (R162). An exchange whose four
times differ only by the two clocks' offset and a symmetric delay gives that offset, and the delay (R38, R39). -/
def Obligations.ChronAccepted : Prop :=
  (∀ (t1 t2 delay offset : Int),
    thetaOf t1 (t1 + delay - offset) t2 (t2 + delay + offset) 0 = 2 * offset * 1000 ∧
    delayOf t1 (t1 + delay - offset) t2 (t2 + delay + offset) = 2 * delay) ∧
  ∀ (p lagNs lagFrac : Nat) (c : Chron) (s : State), (linkOf s p).disc = .admitted →
    ((chronOf s p).lastSeq = none ∨ (∃ q, (chronOf s p).lastSeq = some q ∧ 1 ≤ (c.seq + 65536 - q) % 65536 ∧ (c.seq + 65536 - q) % 65536 < 32768) →
      ∃ m f e o, exec (.chronReceive p c lagNs lagFrac) s = .next { s with mer := m, sw := { s.sw with fallen := f, egress := e, officeRoutes := o } } ∧
        (tget {} m.ports p).lastSeq = some c.seq ∧ (tget {} m.ports p).seqEcho = c.seq ∧
        (tget {} m.ports p).rxEcho = receiveTime s p (256 * lagNs + lagFrac) ∧ (tget {} m.ports p).lastRound = some (roundNo s) ∧
        (tget {} m.ports p).peerLocked = c.locked ∧ (tget {} m.ports p).rackTime = c.rackTime ∧ (tget {} m.ports p).steps = c.steps ∧
        m.ns = s.mer.ns ∧ m.frac = s.mer.frac ∧ ∀ q, q ≠ p → tget {} m.ports q = chronOf s q) ∧
    (∀ q, (chronOf s p).lastSeq = some q → (c.seq + 65536 - q) % 65536 = 0 ∨ 32768 ≤ (c.seq + 65536 - q) % 65536 →
      ∃ f e o, exec (.chronReceive p c lagNs lagFrac) s = .next { s with sw := { s.sw with fallen := f, egress := e, officeRoutes := o } })

/-- MERIDIAN_STEP (R40, R42): on a boundary cycle of a module in ACQUIRE the step is applied to the counter, and every timed action pending in the module is cancelled: a timed COMMIT, timed caps,
the timed ladder change, ramp entries not yet due and an armed snapshot. What is timed by differences of the
Meridian runs on (moveTimes; the model's reading: notes/assumptions/137.md). A module that has left ACQUIRE drops the step; off a boundary cycle
it waits. -/
def Obligations.MeridianStepCancels : Prop :=
  (∀ s, s.mer.cycle ≠ 0 ∨ s.mer.pendingStep = none → exec .meridianStep s = .next s) ∧
  (∀ d s, s.mer.cycle = 0 → s.mer.pendingStep = some d → s.mer.state ≠ .acquire →
    exec .meridianStep s = .next { s with mer := { s.mer with pendingStep := none } }) ∧
  ∀ (d : Int) (s : State), s.mer.cycle = 0 → s.mer.state = .acquire → s.mer.pendingStep = some d →
    ∃ t, exec .meridianStep s = .next t ∧
      ((t.mer.ns * 2 ^ 32 + t.mer.frac : Nat) : Int) =
        (((s.mer.ns * 2 ^ 32 + s.mer.frac : Nat) : Int) + divNear (d * (2 ^ 32 : Nat)) 512000) % (2 ^ 96 : Nat) ∧
      t.mer.pendingStep = none ∧ t.mer.state = s.mer.state ∧
      (s.staging.sealedTimed = true → t.staging.sealed = none) ∧ (s.staging.sealedTimed = false → t.staging = s.staging) ∧
      t.pow.timedCaps = s.pow.timedCaps.filter (fun c => !c.timed) ∧ t.pow.timedLadder = none ∧ t.pow.sched = [] ∧ t.tele.snapArmed = none ∧
      Reports { moveTimes ((t.mer.ns : Int) - s.mer.ns) ((roundNo t : Int) - roundNo s) s with
        mer := t.mer, staging := t.staging, pow := { s.pow with timedCaps := t.pow.timedCaps, timedLadder := none, sched := [] },
        tele := { s.tele with snapArmed := none } } t

/-- The loss of a parent or of the grandmaster, elections, HOLDOVER's end and the keeper's reload move the Meridian state machine as R35, R45 to R47
and R472 say; all else of the module stands, but for standing routes that fall back (R162). -/
def Obligations.MeridianStates : Prop :=
  (∀ s, s.mer.cycle = 0 → s.mer.state = .keeper → s.pow.ladder ≤ 2 → (srcOf s 0).ready = true →
    ∃ m f e o, exec .keeperReload s = .next { s with mer := m, sw := { s.sw with fallen := f, egress := e, officeRoutes := o } } ∧ m.state = .acquire ∧ m.timed = false ∧ m.ns = s.mer.ns ∧
      m.keeperRuns = false) ∧
  (∀ s p, s.mer.parent = some p → (linkOf s p).disc ≠ .admitted ∨
      max ((chronOf s p).lastRound.getD 0) s.mer.parentSince + 2 * chronInterval s ≤ roundNo s → s.mer.state = .locked →
    ∃ m, exec .parentLost s = .next { s with mer := m } ∧ m.state = .holdover ∧ m.timed = s.mer.timed ∧
      m.holdoverEnd = some (s.mer.ns + 1000000000) ∧ m.rateNext = s.mer.rate ∧ (p ∉ admittedPorts s → m.parent ≠ some p)) ∧
  (∀ s, s.mer.gmKnown = true → s.mer.state = .locked → s.mer.gmSeqRound + 64 ≤ roundNo s →
    ∃ m, exec .grandmasterLost s = .next { s with mer := m } ∧ m.state = .holdover ∧ m.electionSince = some (roundNo s) ∧ m.gmKnown = false ∧
      m.announcing = decide (merPrio s < 255)) ∧
  (∀ s r, s.mer.firstAdmission = some r → s.mer.state = .free → s.mer.gmKnown = false → s.mer.electionSince = none →
    r + 64 ≤ roundNo s →
    ∃ m, exec .electionStartFree s = .next { s with mer := m } ∧ m.state = .free ∧ m.electionSince = some (roundNo s) ∧
      (s.mer.best = none → m.announcing = decide (merPrio s < 255))) ∧
  (∀ s r, s.mer.electionSince = some r → r + 32 * chronInterval s ≤ roundNo s →
    ∃ m, exec .electionWindowClose s = .next { s with mer := m } ∧ m.electionSince = none ∧
      (s.mer.announcing = true → s.mer.state = .free ∨ s.mer.state = .holdover → m.state = .master ∧ m.timed = true ∧ m.gmRef = ownRef s ∧ m.gmPrio = merPrio s ∧ m.steps = 0 ∧ m.rackTime = true) ∧
      (s.mer.announcing = false → s.mer.best = none → m.gmKnown = s.mer.gmKnown ∧ m.parent = s.mer.parent ∧ m.state = s.mer.state) ∧
      (∀ b, s.mer.announcing = false → s.mer.best = some b → m.gmKnown = true ∧ m.gmRef = b.ref ∧ m.gmPrio = b.prio ∧ m.state = s.mer.state)) ∧
  (∀ s t, s.mer.holdoverEnd = some t → t ≤ s.mer.ns → s.mer.state = .holdover ∨ s.mer.state = .keeper →
    ∃ m f e o, exec .holdoverExpiry s = .next { s with mer := m, sw := { s.sw with fallen := f, egress := e, officeRoutes := o } } ∧
      m.timed = false ∧ m.state = s.mer.state) ∧
  (∀ s, s.mer.gmKnown = true → plane s = modIndex s ^^^ 1 → s.mer.rackTime = false → s.pm.partnerLost = true →
    ∃ m, exec .rackTimeTakeover s = .next { s with mer := m } ∧ m.rackTime = true ∧ m.state = s.mer.state) ∧
  (∀ s p, s.mer.gmKnown = true → plane s = modIndex s ^^^ 1 → s.mer.rackTime = true → p ∈ admittedPorts s →
    isPeer p = true → (chronOf s p).rackTime = true →
    ∃ m, exec .rackTimeRelease s = .next { s with mer := m } ∧ m.rackTime = false ∧ m.state = s.mer.state)
/-! ### Optical lanes (03) -/

/-- Loss of signal, ring lock and adaptation freezes act on their one lane alone (R63, R69, R70): what each writes, and every other lane and the
rest of the module as before; a ring that loses lock raises RING_UNLOCK. A gap freezes below −15.0 dBm until 4 Rounds after power is back above
−13.0 dBm, an SNR below 14.0 dB until 15.0 dB, a FEC failure until the end of the Round after it, and ST2 or lower until ST0 or ST1. -/
def Obligations.LaneEvents : Prop :=
  (∀ s g pwr, pwr < -1500 → ∃ u, exec (.losAssert g pwr) s = .next u ∧ LaneOnly g s u ∧
    laneOf u g = { laneOf s g with los := true, cdrLock := false, rxPwr := pwr, losClearRound := none, fzGap := true, gapBack := none }) ∧
  (∀ s g pwr, -1300 < pwr → ∃ u, exec (.losDeassert g pwr) s = .next u ∧ LaneOnly g s u ∧
    laneOf u g = { laneOf s g with los := false, cdrLock := true, rxPwr := pwr, losClearRound := some (roundNo s),
                                   gapBack := some ((laneOf s g).gapBack.getD (roundNo s - 1)) }) ∧
  (∀ s g, (laneOf s g).ringLock = true → ∃ u, exec (.ringUnlock g) s = .next (alert 0x0103 g [] u) ∧ LaneOnly g s u ∧
    laneOf u g = { laneOf s g with ringLock := false, blank := true, lit := false, txPwr := -32768, searchRound := roundNo s }) ∧
  (∀ s g, (laneOf s g).ringLock = false → exec (.ringUnlock g) s = .next s) ∧
  (∀ s g h, (laneOf s g).ringLock = false → ((laneOf s g).blank = true → (laneOf s g).searchRound + 64 ≤ roundNo s) → s.pow.ladder ≤ 2 → s.ident.boot ≠ 0 →
    s.clk.coreChosen = true →
    (∃ u, exec (.ringSearch g h true) s = .next u ∧ LaneOnly g s u ∧
      laneOf u g = { laneOf s g with ringLock := true, blank := false, lit := decide (s.pow.ladder ≤ 1), heater := h % 65536, searchRound := roundNo s,
                                     txPwr := if s.pow.ladder ≤ 1 then litPower g (laneOf s g) else -32768 }) ∧
    (∃ u, exec (.ringSearch g h false) s = .next u ∧ LaneOnly g s u ∧ laneOf u g = { laneOf s g with blank := true, searchRound := roundNo s })) ∧
  (∀ s g cause reading, ∃ u, exec (.adaptFreezeStart g cause reading) s = .next u ∧ LaneOnly g s u ∧
    (cause = 0 → reading < -1500 → laneOf u g = { laneOf s g with
      fzGap := true, gapBack := none, rxPwr := reading, swapSeen := (laneOf s g).swapSeen || (laneOf s g).chkEn }) ∧
    (cause = 1 → reading < 56 → laneOf u g = { laneOf s g with fzSnr := true, snr := reading.toNat }) ∧
    (cause = 2 → laneOf u g = { laneOf s g with fzFec := true, fecRound := some (roundNo s) }) ∧
    (cause = 4 → 2 ≤ s.pow.ladder → laneOf u g = { laneOf s g with fzLadder := true }) ∧
    (cause = 0 ∧ -1500 ≤ reading ∨ cause = 1 ∧ 56 ≤ reading ∨ cause = 4 ∧ s.pow.ladder < 2 → laneOf u g = laneOf s g)) ∧
  (∀ s g cause reading, ∃ u, exec (.adaptFreezeEnd g cause reading) s = .next u ∧ LaneOnly g s u ∧
    (cause = 0 → -1300 < reading → laneOf u g = { laneOf s g with
      rxPwr := reading, gapBack := some ((laneOf s g).gapBack.getD (roundNo s)),
      fzGap := (laneOf s g).fzGap && ((laneOf s g).los || decide (roundNo s < (laneOf s g).gapBack.getD (roundNo s) + 4)) }) ∧
    (cause = 1 → 60 ≤ reading → reading ≤ 255 → laneOf u g = { laneOf s g with fzSnr := false, snr := reading.toNat }) ∧
    (∀ r, cause = 2 → (laneOf s g).fecRound = some r → r + 2 ≤ roundNo s → laneOf u g = { laneOf s g with fzFec := false }) ∧
    (cause = 4 → s.pow.ladder ≤ 1 → laneOf u g = { laneOf s g with fzLadder := false }) ∧
    (∀ r, cause = 0 ∧ reading ≤ -1300 ∨ cause = 1 ∧ reading < 60 ∨ cause = 2 ∧ (laneOf s g).fecRound = some r ∧ roundNo s < r + 2 ∨
      cause = 4 ∧ 2 ≤ s.pow.ladder → laneOf u g = laneOf s g))

/-- A wavelength of the fibre in use falls below its level (R58 to R60): the tile switches to a fully OK other fibre with LASER_FIBRE_SWAP, or
stays with LASER_NO_SPARE, and after 1 µs below +6.0 dBm the lanes of the wavelength are blanked; at +17 dBm or above it is OK again (R58). A commanded
select switches to a fibre that is OK, or answers NOT_READY (R61). -/
def Obligations.LaserLight : Prop :=
  (∀ s t f w pwr, f < 2 → w < 4 → pwr < 1600 → (tileOf s t).active = f → (fibreOk (tileOf s t) f).getLsbD w = true → (tileOf s t).corr = [] →
    (fibreOk (tileOf s t) (1 - f) = 15 → ∃ u, exec (.laserWavelengthLow t f w pwr) s = .next (alert 0x0101 t [] u) ∧
      (tileOf u t).active = 1 - f ∧ (tileOf u t).swaps = min 255 ((tileOf s t).swaps + 1) ∧ (fibreOk (tileOf u t) f).getLsbD w = false ∧
      fibreOk (tileOf u t) (1 - f) = 15 ∧ (∀ v, v ≠ t → tileOf u v = tileOf s v) ∧ u = { s with tiles := u.tiles, lanes := u.lanes } ∧
      ∀ g, laneOf u g = laneOf s g ∨ laneOf u g = { laneOf s g with swapSeen := true }) ∧
    (fibreOk (tileOf s t) (1 - f) ≠ 15 → 600 ≤ pwr → ∃ u, exec (.laserWavelengthLow t f w pwr) s = .next (alert 0x0102 t [BitVec.ofNat 8 w] u) ∧
      (tileOf u t).active = f ∧ (fibreOk (tileOf u t) f).getLsbD w = false ∧ TileOnly t s u) ∧
    (fibreOk (tileOf s t) (1 - f) ≠ 15 → (∀ b, tfind (tileOf s t).lowSince (4 * f + w) = some b → s.mer.ns < b + 1000) →
      ∃ u, exec (.laserWavelengthLow t f w pwr) s = .next (alert 0x0102 t [BitVec.ofNat 8 w] u) ∧
      (tileOf u t).active = f ∧ (fibreOk (tileOf u t) f).getLsbD w = false ∧ TileOnly t s u) ∧
    (∀ b, fibreOk (tileOf s t) (1 - f) ≠ 15 → pwr < 600 → tfind (tileOf s t).lowSince (4 * f + w) = some b → b + 1000 ≤ s.mer.ns →
      ∃ u, exec (.laserWavelengthLow t f w pwr) s = .next u ∧
      (tileOf u t).active = f ∧ (fibreOk (tileOf u t) f).getLsbD w = false ∧ (∀ v, v ≠ t → tileOf u v = tileOf s v) ∧
      (∀ k, k < 16 → (laneOf s (64 * t + 4 * k + w)).ringLock = true → laneOf u (64 * t + 4 * k + w) =
        { laneOf s (64 * t + 4 * k + w) with ringLock := false, blank := true, lit := false, txPwr := -32768, searchRound := roundNo s }) ∧
      (∀ g, (laneOf s g).ringLock = false ∨ (∀ k, k < 16 → g ≠ 64 * t + 4 * k + w) → laneOf u g = laneOf s g) ∧
      Reports { s with tiles := u.tiles, lanes := u.lanes } u)) ∧
  (∀ s t f w pwr, 1600 ≤ pwr → ∃ u, exec (.laserWavelengthLow t f w pwr) s = .next u ∧ TileOnly t s u ∧
    tileOf u t = { tileOf s t with pwr := (tileOf u t).pwr, lowSince := tdel (tileOf s t).lowSince (4 * f + w) }) ∧
  (∀ s t f w pwr, f < 2 → w < 4 → 1700 ≤ pwr → ∃ u, exec (.laserWavelengthOk t f w pwr) s = .next u ∧ (fibreOk (tileOf u t) f).getLsbD w = true ∧
    (tileOf u t).active = (tileOf s t).active ∧ TileOnly t s u) ∧
  (∀ c s t f, f < 2 → Runs c 0x801 s → ((tileOf s t).active = f → ∃ u, exec (.laserSelect c t f) s = .next (complete c 0x801 (okAns u)) ∧
      tileOf u t = { tileOf s t with select := f } ∧ TileOnly t s u) ∧
    ((tileOf s t).active = 1 - f → fibreOk (tileOf s t) f = 15 → (tileOf s t).corr = [] →
      ∃ u, exec (.laserSelect c t f) s = .next (complete c 0x801 (okAns u)) ∧
        tileOf u t = { tileOf s t with active := f, swaps := min 255 ((tileOf s t).swaps + 1), select := f }) ∧
    ((tileOf s t).active = 1 - f → fibreOk (tileOf s t) f ≠ 15 → exec (.laserSelect c t f) s = .next (complete c 0x801 (refuse .notReady s))))

/-- PRBS tests (R72 to R78, R108): a start arms the generator, releasing the lane of a link in service, or claims the lane's ADC and clears the
counters; the checker takes the bits received: it seeds itself, counts only while in lock, saturating, gains lock after 128 bits free of error
and loses it with 32 wrong ones among the last 1,024; and a stop or the end of the test's duration frees the ADC, or gives it back
to a link in training. -/
def Obligations.PrbsTests : Prop :=
  (∀ c s g seed dur, Runs c 0x801 s → s.pow.ladder ≤ 1 → (linkOf s (portOfLane g)).disc = .dark → (laneOf s g).claim ≠ .adapt →
    ∀ pat, pat ≤ 3 → ∃ u, exec (.prbsGenStart c g pat seed dur) s = .next (complete c 0x801 (okAns u)) ∧ LaneOnly g s u ∧
      laneOf u g = { laneOf s g with genEn := true, pattern := pat, seed := seed % 2 ^ 31, duration := dur,
                                     lfsr := if (laneOf s g).genEn then (laneOf s g).lfsr else prbsStart pat seed,
                                     testEnd := if (laneOf s g).genEn then (laneOf s g).testEnd else testEndOf s dur }) ∧
  (∀ c s g seed dur pat, Runs c 0x801 s → s.pow.ladder ≤ 1 → pat ≤ 3 → inService (linkOf s (portOfLane g)) = true →
    (linkOf s (portOfLane g)).width.getLsbD (g % 4) = true →
    (releaseLane (portOfLane g) (g % 4) s = none → exec (.prbsGenStart c g pat seed dur) s = .next (complete c 0x801 (busy 1 g s))) ∧
    (∀ s', releaseLane (portOfLane g) (g % 4) s = some s' → ∃ u, exec (.prbsGenStart c g pat seed dur) s = .next (complete c 0x801 (okAns u)) ∧
      LaneOnly g s' u ∧ (laneOf u g).genEn = true ∧ (laneOf u g).pattern = pat)) ∧
  (∀ c s g seed dur pat, Runs c 0x801 s → 3 < pat → exec (.prbsGenStart c g pat seed dur) s = .next (complete c 0x801 (badArg 8 s)) ∧
    exec (.prbsCheckStart c g pat dur) s = .next (complete c 0x801 (badArg 8 s))) ∧
  (∀ c s g seed dur pat, Runs c 0x801 s → pat ≤ 3 → 2 ≤ s.pow.ladder →
    exec (.prbsGenStart c g pat seed dur) s = .next (complete c 0x801 (refuse .notReady s)) ∧
    exec (.prbsCheckStart c g pat dur) s = .next (complete c 0x801 (refuse .notReady s))) ∧
  (∀ c s g dur, Runs c 0x801 s → s.pow.ladder ≤ 1 → ∀ pat, pat ≤ 3 →
    ((laneOf s g).claim = .none → ∃ u, exec (.prbsCheckStart c g pat dur) s = .next (complete c 0x801 (okAns u)) ∧ LaneOnly g s u ∧
      laneOf u g = { laneOf s g with claim := .prbs, adaptOn := true, chkEn := true, chkLock := false, pattern := pat, duration := dur,
                                     testEnd := testEndOf s dur, errs := 0, symErrs := 0, bits := 0, chkReg := 0, chkFill := 0, chkRun := 0,
                                     chkErrs := [], claimResult := none }) ∧
    ((laneOf s g).claim ≠ .none → exec (.prbsCheckStart c g pat dur) s = .next (complete c 0x801 (adcBusy g s)))) ∧
  (∀ c s g, Runs c 0x801 s → ∃ u, exec (.prbsClear c g) s = .next (complete c 0x801 (okAns u)) ∧ LaneOnly g s u ∧
    laneOf u g = { laneOf s g with errs := 0, symErrs := 0, bits := 0 }) ∧
  (∀ s g received, ∃ u, exec (.prbsChkLock g received) s = .next u ∧ LaneOnly g s u ∧
    laneOf u g = if (laneOf s g).chkEn then received.foldl checkSymbol (laneOf s g) else laneOf s g) ∧
  (∀ s g first free last, ∃ u, exec (.prbsChkLockLost g first free last) s = .next u ∧ LaneOnly g s u ∧
    laneOf u g = checkHeard first free last (laneOf s g) ∧ ((laneOf s g).chkEn = false → laneOf u g = laneOf s g)) ∧
  (∀ (b : Bool) (x : Lane),
    (x.chkFill < (prbsPoly x.pattern).1 → checkBit b x =
      ({ x with chkReg := (2 * x.chkReg + bit b) % 2 ^ (prbsPoly x.pattern).1, chkFill := x.chkFill + 1 }, false)) ∧
    ((prbsPoly x.pattern).1 ≤ x.chkFill →
      (x.chkLock = true → (checkBit b x).1.bits = min (2 ^ 64 - 1) (x.bits + 1) ∧
        (checkBit b x).1.errs = min (2 ^ 32 - 1) (x.errs + bit ((prbsNext x.pattern x.chkReg).2 != b))) ∧
      (x.chkLock = false → (checkBit b x).1.bits = x.bits ∧ (checkBit b x).1.errs = x.errs) ∧
      (32 ≤ ((((prbsNext x.pattern x.chkReg).2 != b) :: x.chkErrs).take 1024 |>.filter id).length →
        (checkBit b x).1.chkLock = false ∧ (checkBit b x).1.chkFill = 0) ∧
      (((((prbsNext x.pattern x.chkReg).2 != b) :: x.chkErrs).take 1024 |>.filter id).length < 32 →
        (checkBit b x).1.chkReg = (prbsNext x.pattern x.chkReg).1 ∧
        (checkBit b x).1.chkRun = (if b = (prbsNext x.pattern x.chkReg).2 then x.chkRun + 1 else 0) ∧
        ((checkBit b x).1.chkLock = true ↔ x.chkLock = true ∨ 128 ≤ (checkBit b x).1.chkRun)))) ∧
  (∀ s g first free last r, (laneOf s g).testEnd = some r → r ≤ roundNo s → (laneOf s g).claim = .prbs → (linkOf s (portOfLane g)).released = 0 →
    (linkOf s (portOfLane g)).disc ≠ .training →
    ∃ u, exec (.prbsDurationEnd g first free last) s = .next u ∧ LaneOnly g s u ∧ (laneOf u g).claim = .none ∧ (laneOf u g).claimResult = some .ok ∧
      (laneOf u g).genEn = false ∧ (laneOf u g).chkEn = false ∧
      (laneOf u g).bits = (checkHeard first free last (laneOf s g)).bits) ∧
  (∀ c s g first free last, Runs c 0x801 s → (laneOf s g).chkEn = true → (laneOf s g).claim = .prbs → (linkOf s (portOfLane g)).released = 0 →
    (linkOf s (portOfLane g)).disc ≠ .training →
    ∃ u, exec (.prbsStop c g first free last) s = .next (complete c 0x801 (okAns u)) ∧ LaneOnly g s u ∧ (laneOf u g).claim = .none ∧
      (laneOf u g).genEn = false ∧ (laneOf u g).chkEn = false) ∧
  (∀ s g first free last r, (laneOf s g).testEnd = some r → r ≤ roundNo s → (laneOf s g).claim = .prbs →
    (linkOf s (portOfLane g)).released = 0 → (linkOf s (portOfLane g)).disc = .training → (linkOf s (portOfLane g)).phase = .ts1 →
    ∃ u, exec (.prbsDurationEnd g first free last) s = .next u ∧ (laneOf u g).claim = .adapt ∧ (laneOf u g).claimResult = some .ok ∧
      (laneOf u g).genEn = false ∧ (laneOf u g).chkEn = false) ∧
  (∀ c s g z, Runs c 0x801 s → ∃ u, exec (.laneFreezeWrite c g z) s = .next (complete c 0x801 (okAns u)) ∧ LaneOnly g s u ∧
    laneOf u g = { laneOf s g with freeze := z })

/-- Echo (R73, R74, R79 to R82): a start claims the ADC of the lane it names and a correlator of the tile; a busy correlator or a claimed ADC
refuses with BUSY_CLAIMED, a lane without light or ring lock with NOT_READY. Its end keeps the first 16 events from START_CM on, in order of
distance, and says whether there are more, frees the ADC and reports OK; light or ring lock lost gives RESULT NO_LIGHT and no event. Events lie
within 0.10 m to 150.00 m, no two within 5 cm and none within 0.50 m after one above −30 dB, and are reported from −52 dB or a loss of 0.2 dB on. -/
def Obligations.EchoMeasurements : Prop :=
  (∀ c s t n k j start, Runs c 0x801 s →
    (15000 < start → exec (.echoStart c t n k j start) s = .next (complete c 0x801 (badArg 8 s))) ∧
    (start ≤ 15000 → 2 ≤ s.pow.ladder → exec (.echoStart c t n k j start) s = .next (complete c 0x801 (refuse .notReady s))) ∧
    (start ≤ 15000 → s.pow.ladder ≤ 1 → (tget {} (tileOf s t).corr n).busy = true →
      exec (.echoStart c t n k j start) s = .next (complete c 0x801 (busy 3 (t * 0x10000) s))) ∧
    (start ≤ 15000 → s.pow.ladder ≤ 1 → (tget {} (tileOf s t).corr n).busy = false → (laneOf s (64 * t + 4 * k + j)).claim ≠ .none →
      exec (.echoStart c t n k j start) s = .next (complete c 0x801 (adcBusy (64 * t + 4 * k + j) s))) ∧
    (start ≤ 15000 → s.pow.ladder ≤ 1 → (tget {} (tileOf s t).corr n).busy = false → (laneOf s (64 * t + 4 * k + j)).claim = .none →
      lightOk s t j = false ∨ (laneOf s (64 * t + 4 * k + j)).ringLock = false →
      exec (.echoStart c t n k j start) s = .next (complete c 0x801 (refuse .notReady s))) ∧
    (start ≤ 15000 → s.pow.ladder ≤ 1 → (tget {} (tileOf s t).corr n).busy = false → (laneOf s (64 * t + 4 * k + j)).claim = .none →
      lightOk s t j = true → (laneOf s (64 * t + 4 * k + j)).ringLock = true →
      ∃ u, exec (.echoStart c t n k j start) s = .next (complete c 0x801 (okAns u)) ∧
        laneOf u (64 * t + 4 * k + j) = { laneOf s (64 * t + 4 * k + j) with claim := .echo, probe := some 0, line := [], claimResult := none } ∧
        (tget {} (tileOf u t).corr n).busy = true ∧ (tget {} (tileOf u t).corr n).portLane = 64 * t + 4 * k + j ∧
        (tget {} (tileOf u t).corr n).startCm = start ∧ (tget {} (tileOf u t).corr n).laneJ = j ∧
        (tget {} (tileOf u t).corr n).groupIndex = tget 0x5BC s.bank.groupIndex t ∧ u = { s with tiles := u.tiles, lanes := u.lanes } ∧
        (∀ g, g ≠ 64 * t + 4 * k + j → laneOf u g = laneOf s g) ∧ ∀ v, v ≠ t → tileOf u v = tileOf s v)) ∧
  (∀ s t n events, (tget {} (tileOf s t).corr n).busy = false → exec (.echoDone t n events) s = .next s) ∧
  (∀ s t n events, (tget {} (tileOf s t).corr n).busy = true → (laneOf s (tget {} (tileOf s t).corr n).portLane).claim = .echo →
    (linkOf s (portOfLane (tget {} (tileOf s t).corr n).portLane)).released = 0 →
    (linkOf s (portOfLane (tget {} (tileOf s t).corr n).portLane)).disc ≠ .training →
    ∃ u, exec (.echoDone t n events) s = .next u ∧ (tget {} (tileOf u t).corr n).busy = false ∧ (tget {} (tileOf u t).corr n).done = true ∧
      (laneOf u (tget {} (tileOf s t).corr n).portLane).claim = .none ∧ u = { s with tiles := u.tiles, lanes := u.lanes } ∧
      (lightOk s t (tget {} (tileOf s t).corr n).laneJ = true → (laneOf s (tget {} (tileOf s t).corr n).portLane).ringLock = true →
        (tget {} (tileOf u t).corr n).result = 0 ∧ (laneOf u (tget {} (tileOf s t).corr n).portLane).claimResult = some .ok ∧
        (tget {} (tileOf u t).corr n).events =
          ((echoFound (tget {} (tileOf s t).corr n).groupIndex (tget {} (tileOf s t).corr n).startCm events).take 16).map
            (echoResult (tget {} (tileOf s t).corr n).groupIndex) ∧
        (tget {} (tileOf u t).corr n).more =
          decide (16 < (echoFound (tget {} (tileOf s t).corr n).groupIndex (tget {} (tileOf s t).corr n).startCm events).length)) ∧
      (lightOk s t (tget {} (tileOf s t).corr n).laneJ = false ∨ (laneOf s (tget {} (tileOf s t).corr n).portLane).ringLock = false →
        (tget {} (tileOf u t).corr n).result = 1 ∧ (tget {} (tileOf u t).corr n).events = [] ∧
        (laneOf u (tget {} (tileOf s t).corr n).portLane).claimResult = some .notReady)) ∧
  (∀ ng start events, (echoFound ng start events).Pairwise (fun a b => echoDist ng a + 5 ≤ echoDist ng b) ∧
    (echoFound ng start events).Pairwise (fun a b => -300 < a.refl → echoDist ng a + 50 ≤ echoDist ng b) ∧
    ∀ e ∈ echoFound ng start events, e ∈ events ∧ 10 ≤ echoDist ng e ∧ start ≤ echoDist ng e ∧ echoDist ng e ≤ 15000 ∧
      (-520 ≤ e.refl ∨ 20 ≤ e.loss))
/-! ### Links (04) -/

/-- A flit received (R89, R91 to R96, R100): outside flit service nothing happens. One whose FEC, CRC or tag fails is bad: a NAK of the REASON for it
(0, 1, 2) is queued with the number before ESEQ unless flits are being discarded already, sequenced flits are discarded from then on, and nothing
is accepted; the 64th tag failure within 1,024 Rounds withdraws the link. A good sequenced flit with the number ESEQ is accepted as it is read with
the key that its header names, unless the link is not admitted to it or its VC is not offered, and ESEQ advances either way; one ahead of ESEQ
draws a NAK of REASON 3, and one behind it changes nothing. A good unsequenced flit is accepted at once. A reserved type is bad, with a REASON
that the manual leaves open. -/
def Obligations.FlitsReceived : Prop :=
  (∀ s p levels, inService (linkOf s p) = false → exec (.flitReceive p levels) s = .next s) ∧
  (∀ s p levels coded s1, receiveLanes p levels s = (coded, s1) → s1 = { s with lanes := s1.lanes } ∧
    ((∀ j, j < 4 → (laneOf s (laneOfPort p j)).precodeRx = false) → coded = levels ∧ s1 = s)) ∧
  (∀ s p levels coded s1 reason, inService (linkOf s p) = true → receiveLanes p levels s = (coded, s1) →
    fecDecode coded = none ∧ reason = 0 ∨
      (∃ body n, fecDecode coded = some (body, n) ∧ crc64 (body.take 248) ≠ fieldAt body 248 8 ∧ reason = 1) →
    ∃ t, exec (.flitReceive p levels) s = .next t ∧ (linkOf t p).rx.discarding = true ∧ (linkOf t p).rx.eseq = (linkOf s p).rx.eseq ∧
      (linkOf t p).rx.accepted = (linkOf s p).rx.accepted ∧ (linkOf t p).tx.control = (linkOf s p).tx.control ++
        (if (linkOf s p).rx.discarding then [] else [nakFlit (linkOf s p).rx.eseq reason]) ∧
      Reports { s with links := t.links, lanes := t.lanes } t) ∧
  (∀ s p levels coded s1 body n, inService (linkOf s p) = true → (linkOf s p).disc = .admitted → receiveLanes p levels s = (coded, s1) →
    fecDecode coded = some (body, n) → crc64 (body.take 248) = fieldAt body 248 8 → fieldAt body 0 4 % 16 < 12 →
    tagOf (linkOf s p) body ≠ fieldAt body 240 8 →
    (((linkOf s p).rx.tagFails.filter fun r => roundNo s < r + 1024).length < 63 →
      ∃ t, exec (.flitReceive p levels) s = .next t ∧ (linkOf t p).disc = .admitted ∧ (linkOf t p).rx.discarding = true ∧
        (linkOf t p).rx.eseq = (linkOf s p).rx.eseq ∧ (linkOf t p).rx.accepted = (linkOf s p).rx.accepted ∧
        (linkOf t p).tx.control = (linkOf s p).tx.control ++ (if (linkOf s p).rx.discarding then [] else [nakFlit (linkOf s p).rx.eseq 2]) ∧
        Reports { s with links := t.links, lanes := t.lanes } t) ∧
    (63 ≤ ((linkOf s p).rx.tagFails.filter fun r => roundNo s < r + 1024).length →
      ∃ t, exec (.flitReceive p levels) s = .next t ∧ (linkOf t p).disc = .surveyed ∧ (linkOf t p).keys = {} ∧
        (linkOf t p).rx.accepted = (linkOf s p).rx.accepted)) ∧
  (∀ s p levels coded s1 body n, inService (linkOf s p) = true → receiveLanes p levels s = (coded, s1) → fecDecode coded = some (body, n) →
    crc64 (body.take 248) = fieldAt body 248 8 → 12 ≤ fieldAt body 0 4 % 16 →
    ∃ t, exec (.flitReceive p levels) s = .next t ∧ (linkOf t p).rx.discarding = true ∧ (linkOf t p).rx.eseq = (linkOf s p).rx.eseq ∧
      (linkOf t p).rx.accepted = (linkOf s p).rx.accepted) ∧
  (∀ s p levels coded s1 body n hdr rseq, inService (linkOf s p) = true → receiveLanes p levels s = (coded, s1) →
    fecDecode coded = some (body, n) → crc64 (body.take 248) = fieldAt body 248 8 → hdr = fieldAt body 0 4 → hdr % 16 < 12 →
    rseq = bitsOf hdr 18 7 → ((linkOf s p).disc = .admitted → tagOf (linkOf s p) body = fieldAt body 240 8) →
    ∃ t, exec (.flitReceive p levels) s = .next t ∧ Reports { s with links := t.links, lanes := t.lanes } t ∧
      (sequenced (hdr % 16) = true → rseq = (linkOf s p).rx.eseq % 4096 →
        (linkOf t p).rx.eseq = (linkOf s p).rx.eseq + 1 ∧ (linkOf t p).rx.discarding = false ∧
        (linkOf t p).rx.ackCount = (linkOf s p).rx.ackCount + 1 ∧ (linkOf t p).tx.control = (linkOf s p).tx.control ∧
        (linkOf t p).rx.accepted = if flitUsable p (linkOf s p) hdr then some (flitSeen (linkOf s p) body) else (linkOf s p).rx.accepted) ∧
      (sequenced (hdr % 16) = true → 1 ≤ (rseq + 4096 - (linkOf s p).rx.eseq % 4096) % 4096 →
        (rseq + 4096 - (linkOf s p).rx.eseq % 4096) % 4096 < 2048 →
        (linkOf t p).rx.eseq = (linkOf s p).rx.eseq ∧ (linkOf t p).rx.discarding = true ∧
        (linkOf t p).rx.accepted = (linkOf s p).rx.accepted ∧ (linkOf t p).tx.control = (linkOf s p).tx.control ++
          (if (linkOf s p).rx.discarding then [] else [nakFlit (linkOf s p).rx.eseq 3])) ∧
      (sequenced (hdr % 16) = true → 2048 ≤ (rseq + 4096 - (linkOf s p).rx.eseq % 4096) % 4096 →
        (linkOf t p).rx.eseq = (linkOf s p).rx.eseq ∧ (linkOf t p).rx.discarding = (linkOf s p).rx.discarding ∧
        (linkOf t p).rx.accepted = (linkOf s p).rx.accepted ∧ (linkOf t p).tx.control = (linkOf s p).tx.control) ∧
      (sequenced (hdr % 16) = false → (linkOf t p).rx.eseq = (linkOf s p).rx.eseq ∧
        (linkOf t p).rx.discarding = (linkOf s p).rx.discarding ∧ (linkOf t p).tx.control = (linkOf s p).tx.control ∧
        (linkOf t p).rx.accepted = if flitUsable p (linkOf s p) hdr then some (flitSeen (linkOf s p) body) else (linkOf s p).rx.accepted))

/-- Acknowledgement, replay and credits (R95 to R97, R100 to R102): an ACK or a NAK is queued with the number before ESEQ; an ACK releases every flit up to the one it
names; a NAK has all that remain resent; a timeout resends and counts; a NAK is repeated with REASON 4 (REPEAT). Credits returned are added, initial totals
set; a CREDIT flit is due at 64 pending credits or 32 ns after the first. -/
def Obligations.FlitsAcknowledged : Prop :=
  (∀ s p, 32 ≤ (linkOf s p).rx.ackCount ∨ (∃ b, (linkOf s p).rx.ackFirst = some b ∧ b + 32 ≤ s.mer.ns) →
    ∃ t, exec (.ackSend p) s = .next t ∧ LinkOnly p s t ∧ (linkOf t p).rx.ackCount = 0 ∧ (linkOf t p).rx.ackFirst = none ∧
      (linkOf t p).tx.control = (linkOf s p).tx.control ++ [{ type := 6, vc := 0, shared := false, payload := fit 236 (leBytes 2 (((linkOf s p).rx.eseq + 4095) % 4096)) }]) ∧
  (∀ s p b, (linkOf s p).rx.lastNak = some b → (linkOf s p).rx.discarding = true → rtt256 s p + 64 * 256 ≤ (s.mer.ns - b) * 256 →
    ∃ t, exec (.nakRepeat p) s = .next t ∧ Reports { s with links := t.links } t ∧ (linkOf t p).rx.lastNak = some s.mer.ns ∧
      (linkOf t p).tx.control = (linkOf s p).tx.control ++ [{ type := 7, vc := 0, shared := false, payload := fit 236 (leBytes 2 (((linkOf s p).rx.eseq + 4095) % 4096) ++ leBytes 1 4) }]) ∧
  (∀ s p q k, (∀ i, (h : i < (linkOf s p).tx.replay.length) → (linkOf s p).tx.replay[i].seq = q + i) → k < (linkOf s p).tx.replay.length →
    (linkOf s p).tx.replay.length ≤ 1024 →
    (∃ t, exec (.ackReceive p ((q + k) % 4096)) s = .next t ∧ LinkOnly p s t ∧ (linkOf t p).tx.replay = (linkOf s p).tx.replay.drop (k + 1)) ∧
    (∀ reason, ∃ t, exec (.nakReceive p ((q + k) % 4096) reason) s = .next t ∧ LinkOnly p s t ∧
      (linkOf t p).tx.replay = (linkOf s p).tx.replay.drop (k + 1) ∧ (linkOf t p).tx.resend = (linkOf s p).tx.replay.drop (k + 1))) ∧
  (∀ s p h rest, (linkOf s p).tx.replay = h :: rest → (linkOf s p).tx.resend = [] → rtt256 s p + 128 * 256 < (s.mer.ns - h.sentNs) * 256 →
    ∃ u, exec (.replayTimeout p) s = .next (cnt1 (idPort 10 p) u) ∧ LinkOnly p s u ∧ (linkOf u p).tx = { (linkOf s p).tx with resend := h :: rest }) ∧
  (∀ s p ded shr v, v < 8 → ∃ t, exec (.creditReceive p ded shr false) s = .next t ∧
    tget 0 (linkOf t p).tx.ded v = tget 0 (linkOf s p).tx.ded v + ded.getD v 0 ∧ (linkOf t p).tx.shr = (linkOf s p).tx.shr + shr ∧
    (linkOf t p).tx.credInit = (linkOf s p).tx.credInit ∧ (∀ q, q ≠ p → linkOf t q = linkOf s q) ∧
    t = { s with links := t.links, sw := { s.sw with egress := t.sw.egress } }) ∧
  (∀ s p ded shr v, v < 8 → ∃ t, exec (.creditReceive p ded shr true) s = .next t ∧ tget 0 (linkOf t p).tx.ded v = ded.getD v 0 ∧
    (linkOf t p).tx.shr = shr ∧ (linkOf t p).tx.credInit = true ∧ (linkOf t p).grantTx = shr) ∧
  (∀ s p, (linkOf s p).creditStop = false → 0 < pendingCredits s p →
    64 ≤ pendingCredits s p ∨ (∃ b, (linkOf s p).rx.pendSince = some b ∧ b + 32 ≤ s.mer.ns) →
    ∃ t, exec (.creditSend p) s = .next t ∧ LinkOnly p s t ∧ (linkOf t p).tx = { (linkOf s p).tx with creditDue := true })

/-- A flit boundary (R155): an ACK or NAK that waits goes first; then, on an admitted link, a CHRON and a ROLL that are due; then flits to be resent, as
first sent; then initial credits; and a port with nothing to send, or whose peer is in ST2 or lower, sends IDLE. -/
def Obligations.FlitsTransmitted : Prop :=
  (∀ s p f rest, inService (linkOf s p) = true → mayTransmit s = true → peerAsleep (linkOf s p) = false → (linkOf s p).keys.nextTx = none →
    (linkOf s p).tx.control = f :: rest → f.type = 6 ∨ f.type = 7 →
    ∃ t, exec (.flitTransmit p) s = .next t ∧ (linkOf t p).tx.control = rest ∧ (linkOf t p).tx.nextUnseq = (linkOf s p).tx.nextUnseq + 1 ∧
      (linkOf t p).tx.nextSeq = (linkOf s p).tx.nextSeq ∧ (linkOf t p).tx.replay = (linkOf s p).tx.replay ∧
      ((linkOf s p).disc = .up → (linkOf t p).tx.fibre =
        fecEncode (flitBody (flitHeader f (linkOf s p).tx.nextUnseq 0 0 (linkOf s p).keyPhaseTx) f.payload none))) ∧
  (∀ s p, inService (linkOf s p) = true → mayTransmit s = true → peerAsleep (linkOf s p) = false → (linkOf s p).keys.nextTx = none →
    (linkOf s p).tx.control = [] → (linkOf s p).disc = .admitted →
    ((chronOf s p).due = true → ∃ t, exec (.flitTransmit p) s = .next t ∧ (chronOf t p).due = false ∧
      (chronOf t p).txSeq = ((chronOf s p).txSeq + 1) % 65536 ∧ (linkOf t p).tx.nextUnseq = (linkOf s p).tx.nextUnseq + 1 ∧
      (linkOf t p).tx.replay = (linkOf s p).tx.replay ∧ (linkOf t p).tx.rollDue = (linkOf s p).tx.rollDue) ∧
    ((chronOf s p).due = false → (linkOf s p).tx.rollDue = true → ∃ t, exec (.flitTransmit p) s = .next t ∧ (linkOf t p).tx.rollDue = false ∧
      (linkOf t p).tx.leaving = false ∧ (linkOf t p).tx.nextUnseq = (linkOf s p).tx.nextUnseq + 1 ∧
      (linkOf t p).tx.replay = (linkOf s p).tx.replay)) ∧
  (∀ s p h rest, inService (linkOf s p) = true → ((linkOf s p).disc = .admitted → (chronOf s p).due = false ∧ (linkOf s p).tx.rollDue = false) →
    mayTransmit s = true → peerAsleep (linkOf s p) = false →
    (linkOf s p).keys.nextTx = none → (linkOf s p).tx.control = [] → (linkOf s p).tx.resend = h :: rest →
    ∃ t, exec (.flitTransmit p) s = .next t ∧ (linkOf t p).tx.fibre = h.coded ∧ (linkOf t p).tx.resend = rest ∧
      (linkOf t p).tx.nextSeq = (linkOf s p).tx.nextSeq) ∧
  (∀ s p, inService (linkOf s p) = true → ((linkOf s p).disc = .admitted → (chronOf s p).due = false ∧ (linkOf s p).tx.rollDue = false) →
    mayTransmit s = true → peerAsleep (linkOf s p) = false → (linkOf s p).keys.nextTx = none → (linkOf s p).tx.control = [] →
    (linkOf s p).tx.resend = [] → (linkOf s p).tx.replay.length < replaySize p → (linkOf s p).tx.creditInitDue = true →
    ∃ t, exec (.flitTransmit p) s = .next t ∧ (linkOf t p).tx.creditInitDue = false ∧ (linkOf t p).tx.nextSeq = (linkOf s p).tx.nextSeq + 1 ∧
      (linkOf t p).tx.replay.length = (linkOf s p).tx.replay.length + 1) ∧
  (∀ s p, inService (linkOf s p) = true → mayTransmit s = true → peerAsleep (linkOf s p) = true → (linkOf s p).keys.nextTx = none →
    ∃ t, exec (.flitTransmit p) s = .next t ∧ (linkOf t p).tx.control = (linkOf s p).tx.control ∧ (linkOf t p).tx.resend = (linkOf s p).tx.resend ∧
      (linkOf t p).tx.replay = (linkOf s p).tx.replay ∧ (linkOf t p).tx.nextUnseq = (linkOf s p).tx.nextUnseq + 1) ∧
  (∀ s p, inService (linkOf s p) = true → (linkOf s p).disc ≠ .admitted → (linkOf s p).disc ≠ .admitting → mayTransmit s = true →
    peerAsleep (linkOf s p) = false → (linkOf s p).keys.nextTx = none → (linkOf s p).tx.control = [] → (linkOf s p).tx.resend = [] →
    (linkOf s p).tx.replay.length < replaySize p → (linkOf s p).tx.creditInitDue = false → (linkOf s p).tx.creditDue = false →
    (linkOf s p).tx.mgmt = [] →
    ∃ t, exec (.flitTransmit p) s = .next t ∧ (linkOf t p).tx.fibre =
      fecEncode (flitBody (flitHeader { type := 0, vc := 0, shared := false, payload := [] } (linkOf s p).tx.nextUnseq 0 0 (linkOf s p).keyPhaseTx) [] none))

/-- Training (R66, R98, R103, R104): DARK to TS1, TS2, TS3 and UP in turn, each on its condition, from DARK to TS2 at once on exit from ST3; a phase
past its bound goes back to DARK for a Round; a link whose flits have stayed uncorrectable for 2 Rounds since its signal came back, or that no
active lane lights, goes down. -/
def Obligations.LinkTraining : Prop :=
  (∀ s p, (linkOf s p).disc = .dark → mayTransmit s = true → litLanes s p ≠ 0 → (linkOf s p).retryRound ≤ roundNo s →
    ∃ t, exec (.trainingStart p) s = .next t ∧ linkOf t p = { linkOf s p with
        disc := .training, phase := if (linkOf s p).fast then .ts2 else .ts1, phaseNs := s.mer.ns, lost := 0,
        lanesOk := if (linkOf s p).fast then litLanes s p else 0, rxReady := 0, frameSyms := 0,
        tx := { (linkOf s p).tx with ctrl := (linkOf t p).tx.ctrl, line := (linkOf t p).tx.line } } ∧
      (∀ q, q ≠ p → linkOf t q = linkOf s q) ∧ t = { s with links := t.links, lanes := t.lanes }) ∧
  (∀ s p rdy ctle d, (linkOf s p).phase = .ts1 → rdy &&& litLanes s p ≠ 0 →
    rdy &&& litLanes s p = litLanes s p ∨ (linkOf s p).phaseNs + 600000 ≤ s.mer.ns →
    ∃ t, exec (.ts1End p rdy ctle d) s = .next t ∧
      linkOf t p = { linkOf s p with
        phase := .ts2, phaseNs := s.mer.ns, lanesOk := rdy &&& litLanes s p, rxReady := rdy &&& litLanes s p, delayKnown := true,
        rtt := min (2 ^ 24 - 1) (2 * d + 160 * 256),
        tx := { (linkOf s p).tx with ctrl := (linkOf t p).tx.ctrl, line := (linkOf t p).tx.line } } ∧
      t = { s with links := t.links, lanes := t.lanes }) ∧
  (∀ s p rdy ctle d, (linkOf s p).phase = .ts1 → rdy &&& litLanes s p = 0 → (linkOf s p).phaseNs + 600000 ≤ s.mer.ns →
    ∃ t, exec (.ts1End p rdy ctle d) s = .next t ∧ (linkOf t p).disc = .dark ∧ (linkOf t p).phase = .none ∧
      (linkOf t p).retryRound = roundNo s + 1 ∧ t = { s with links := t.links, lanes := t.lanes }) ∧
  (∀ s p rdy ctle d, (linkOf s p).phase = .ts1 → rdy &&& litLanes s p ≠ litLanes s p → s.mer.ns < (linkOf s p).phaseNs + 600000 →
    ∃ t, exec (.ts1End p rdy ctle d) s = .next t ∧ (linkOf t p).phase = .ts1 ∧ (linkOf t p).rxReady = rdy &&& litLanes s p ∧
      t = { s with links := t.links, lanes := t.lanes }) ∧
  (∀ s p peer req, (linkOf s p).phase = .ts2 → (linkOf s p).lanesOk &&& peer ≠ 0 →
    ∃ t, exec (.ts2End p peer req) s = .next t ∧
      linkOf t p = { linkOf s p with
        phase := .ts3, phaseNs := s.mer.ns, lanesOk := (linkOf s p).lanesOk &&& peer,
        tx := { (linkOf s p).tx with ctrl := (linkOf t p).tx.ctrl, line := (linkOf t p).tx.line } } ∧
      t = { s with links := t.links, lanes := t.lanes }) ∧
  (∀ s p, (linkOf s p).disc = .training → (linkOf s p).phase = .ts3 →
    ∃ t, exec (.linkUp p) s = .next t ∧ (∀ q, q ≠ p → linkOf t q = linkOf s q) ∧ t = { s with links := t.links, lanes := t.lanes } ∧ (linkOf t p).disc = .up ∧ (linkOf t p).phase = .none ∧
      (linkOf t p).width = (linkOf s p).lanesOk ∧ (linkOf t p).keys = {} ∧ (linkOf t p).rx = {} ∧ (linkOf t p).tx = { creditInitDue := true } ∧
      (linkOf t p).cardDue = true ∧ (linkOf t p).grantRx = sharedGrant s p) ∧
  (∀ s p, (linkOf s p).disc = .training →
    ((linkOf s p).phase = .ts1 ∧ (linkOf s p).phaseNs + 600000 ≤ s.mer.ns) ∨ ((linkOf s p).phase = .ts2 ∧
        (linkOf s p).phaseNs + (if (linkOf s p).fast then 40000 else 100000) ≤ s.mer.ns) ∨
      ((linkOf s p).phase = .ts3 ∧ (linkOf s p).phaseNs + 20000 ≤ s.mer.ns) →
    ∃ t, exec (.trainingRetry p) s = .next t ∧ linkOf t p = { linkOf s p with
        fast := false, disc := .dark, phase := .none, retryRound := roundNo s + 1, lanesOk := 0, rxReady := 0 } ∧
      t = { s with links := t.links, lanes := t.lanes }) ∧
  (∀ s p, (linkOf s p).disc ≠ .dark → (linkOf s p).disc ≠ .training →
    (∃ r g, (linkOf s p).rx.badSince = some r ∧ signalSince s p = some g ∧ max r g + 2 ≤ roundNo s) ∨
      (∀ j ∈ lanesIn (linkOf s p).width, (laneOf s (laneOfPort p j)).los = true) →
    ∃ t, exec (.linkDown p) s = .next t ∧ (linkOf t p).disc = .dark ∧ (linkOf t p).width = 0 ∧ (linkOf t p).keys = {} ∧ (linkOf t p).tx.replay = [])

/-- Narrowing, and the release and return of lanes (R105 to R108): a lane in service is lost by LOS, by lost clock recovery or by its corrections in
each of two Rounds, the last two not where the peer sleeps, and RESHAPE begins on the rest, or the link goes down; a marker accepted, with a
control word of each active lane that passes its check, begins RESHAPE too, and what the peer drops is lost; both run TS3 on the common set and
flits resume on it, with replay state and credits kept. An x4 link releases a lane; a lane sent back trains alone, then the link widens by it with a
RESHAPE, from either end, and its command is answered OK once flits resume, or NOT_READY after 2 ms; a lost lane whose LOS has stayed clear for 64
Rounds rejoins by itself. -/
def Obligations.LinkLanes : Prop :=
  (∀ s g, inService (linkOf s (portOfLane g)) = true → (linkOf s (portOfLane g)).width.getLsbD (g % 4) = true →
    (linkOf s (portOfLane g)).lost.getLsbD (g % 4) = false →
    (laneOf s g).los = true ∨ (peerAsleep (linkOf s (portOfLane g)) = false ∧ ((laneOf s g).cdrLock = false ∨ 2 ≤ (laneOf s g).fecBad)) →
    ((linkOf s (portOfLane g)).width = laneBit (g % 4) →
      ∃ t, exec (.laneLoss g) s = .next t ∧ (linkOf t (portOfLane g)).disc = .dark ∧ (linkOf t (portOfLane g)).width = 0) ∧
    ((linkOf s (portOfLane g)).width ≠ laneBit (g % 4) → ∃ t, exec (.laneLoss g) s = .next t ∧ (linkOf t (portOfLane g)).phase = .reshape ∧
      (linkOf t (portOfLane g)).lanesOk = (linkOf s (portOfLane g)).width &&& ~~~laneBit (g % 4) ∧
      (linkOf t (portOfLane g)).lost = (linkOf s (portOfLane g)).lost ||| laneBit (g % 4) ∧
      Reports { s with links := t.links, lanes := t.lanes } t)) ∧
  (∀ s g, laneLost s g = false → exec (.laneLoss g) s = .next s) ∧
  (∀ s g, inService (linkOf s (portOfLane g)) = true → (linkOf s (portOfLane g)).width.getLsbD (g % 4) = true →
    (linkOf s (portOfLane g)).lost.getLsbD (g % 4) = false → peerAsleep (linkOf s (portOfLane g)) = false →
    (linkOf s (portOfLane g)).width ≠ laneBit (g % 4) → ∃ t, exec (.laneLoss g true) s = .next t ∧ (laneOf t g).cdrLock = false ∧
      (linkOf t (portOfLane g)).phase = .reshape ∧ (linkOf t (portOfLane g)).lost = (linkOf s (portOfLane g)).lost ||| laneBit (g % 4)) ∧
  (∀ s p words, inService (linkOf s p) = true → words.length = (lanesIn (linkOf s p).width).length → (∀ w ∈ words, ctrlOk w = true) →
    (linkOf s p).width &&& markerLanes words ≠ 0 → markerLanes words &&& ~~~(linkOf s p).width &&& joinable s p = 0 →
    ∃ u, exec (.reshapeMarker p words) s = .next (cnt1 (idPort 31 p) u) ∧ (∀ q, q ≠ p → linkOf u q = linkOf s q) ∧
      Reports { s with links := u.links, lanes := u.lanes } u ∧ linkOf u p = { linkOf s p with
        phase := .reshape, lanesOk := (linkOf s p).width &&& markerLanes words,
        lost := (linkOf s p).lost ||| ((linkOf s p).width &&& ~~~markerLanes words &&& ~~~(linkOf s p).released),
        troubleRound := (linkOf u p).troubleRound,
        tx := { (linkOf s p).tx with ctrl := (linkOf u p).tx.ctrl, line := (linkOf u p).tx.line } }) ∧
  (∀ s p words j, j < 4 → inService (linkOf s p) = true → words.length = (lanesIn (linkOf s p).width).length → (∀ w ∈ words, ctrlOk w = true) →
    markerLanes words = (linkOf s p).width ||| laneBit j → (linkOf s p).width.getLsbD j = false → (joinable s p).getLsbD j = true →
    ∃ u, exec (.reshapeMarker p words) s = .next (cnt1 (idPort 31 p) u) ∧ (linkOf u p).phase = .reshape ∧
      (linkOf u p).lanesOk = (linkOf s p).width ||| laneBit j ∧ (laneOf u (laneOfPort p j)).claim = .adapt) ∧
  (∀ s p words, (linkOf s p).phase = .reshape → words.length = (lanesIn (linkOf s p).width).length → (∀ w ∈ words, ctrlOk w = true) →
    (linkOf s p).lanesOk &&& markerLanes words ≠ 0 →
    ∃ t, exec (.reshapeMarker p words) s = .next t ∧ (linkOf t p).phase = .ts3 ∧ (linkOf t p).lanesOk = (linkOf s p).lanesOk &&& markerLanes words ∧
      t = { s with links := t.links, lanes := t.lanes }) ∧
  (∀ s p words, (∃ w ∈ words, ctrlOk w = false) ∨ words.length ≠ (lanesIn (linkOf s p).width).length → exec (.reshapeMarker p words) s = .next s) ∧
  (∀ s p peer req, (linkOf s p).phase = .reshape ∨ (linkOf s p).phase = .ts3 → (linkOf s p).disc ≠ .training → (linkOf s p).lanesOk &&& peer ≠ 0 →
    (linkOf s p).returning = [] →
    ∃ t, exec (.linkNarrowed p peer req) s = .next t ∧ (linkOf t p).phase = .none ∧ (linkOf t p).width = (linkOf s p).lanesOk &&& peer ∧
      (linkOf t p).tx.control = (linkOf s p).tx.control ++ [{ type := 6, vc := 0, shared := false, payload := fit 236 (leBytes 2 (((linkOf s p).rx.eseq + 4095) % 4096)) }] ∧
      (linkOf t p).tx.replay = (linkOf s p).tx.replay ∧ (linkOf t p).tx.ded = (linkOf s p).tx.ded ∧
      (∀ q, q ≠ p → linkOf t q = linkOf s q) ∧ Reports { s with links := t.links, lanes := t.lanes } t) ∧
  (∀ c s p j b peer req, j < 4 → (linkOf s p).phase = .reshape ∨ (linkOf s p).phase = .ts3 → (linkOf s p).disc ≠ .training →
    (linkOf s p).returning = [(j, b, some c)] → (linkOf s p).lanesOk &&& peer = (linkOf s p).width ||| laneBit j → (linkOf s p).width.getLsbD j = false →
    ∃ u, exec (.linkNarrowed p peer req) s = .next (complete c 0x803 (okAns u)) ∧ (linkOf u p).phase = .none ∧
      (linkOf u p).width = (linkOf s p).width ||| laneBit j ∧ (linkOf u p).released = (linkOf s p).released &&& ~~~laneBit j ∧
      (linkOf u p).returning = [] ∧ (laneOf u (laneOfPort p j)).claim = .adapt ∧ (laneOf u (laneOfPort p j)).precodeTx = req.getLsbD j ∧
      (laneOf u (laneOfPort p j)).precodeRx = precodeWanted s (laneOfPort p j)) ∧
  (∀ c s p j, Runs c 0x802 s → p < 256 → j < 4 → inService (linkOf s p) = true →
    ((linkOf s p).width = 15 → ∃ u, exec (.laneRelease c p j) s = .next (complete c 0x802 (okAns u)) ∧ (linkOf u p).released = (linkOf s p).released ||| laneBit j ∧
      (linkOf u p).phase = .reshape ∧ (linkOf u p).lanesOk = 15 &&& ~~~laneBit j ∧ (laneOf u (laneOfPort p j)).claim = .none ∧
      Reports { s with links := u.links, lanes := u.lanes } u) ∧
    ((linkOf s p).width ≠ 15 → exec (.laneRelease c p j) s = .next (complete c 0x802 (busy 1 (laneOfPort p j) s)))) ∧
  (∀ c s p j, Runs c 0x803 s → p < 256 → j < 4 → (linkOf s p).released.getLsbD j = true →
    ∃ u, exec (.laneReturn c p j) s = .next (acceptLater c 0x803 u) ∧ (linkOf u p).returning = (linkOf s p).returning ++ [(j, s.mer.ns, some c)] ∧
      (∀ q, q ≠ p → linkOf u q = linkOf s q) ∧ u = { s with links := u.links, lanes := u.lanes } ∧
      ((laneOf s (laneOfPort p j)).claim = .none → (laneOf s (laneOfPort p j)).genEn = false → (laneOf u (laneOfPort p j)).claim = .adapt)) ∧
  (∀ s p j, j < 4 → inService (linkOf s p) = true → homing (linkOf s p) j = true → laneFit (laneOf s (laneOfPort p j)) = true →
    ∃ u, exec (.laneRejoin p j) s = .next (cnt1 (idPort 31 p) u) ∧ (linkOf u p).phase = .reshape ∧ (linkOf u p).lanesOk = (linkOf s p).width ||| laneBit j ∧
      (linkOf u p).width = (linkOf s p).width ∧ (linkOf u p).returning = (linkOf s p).returning ∧ (laneOf u (laneOfPort p j)).claim = .adapt) ∧
  (∀ c s p j b, (linkOf s p).returning = [(j, b, some c)] → b + 2000000 ≤ s.mer.ns →
    ∃ u, exec (.laneReturnTimeout p j) s = .next (complete c 0x803 (refuse .notReady u)) ∧ (∀ q, q ≠ p → linkOf u q = linkOf s q) ∧
      u = { s with links := u.links, lanes := u.lanes } ∧
      (linkOf u p).released = (linkOf s p).released &&& ~~~laneBit j ∧ (linkOf u p).lost = (linkOf s p).lost ||| laneBit j ∧ (linkOf u p).returning = []) ∧
  (∀ s p j r, j < 4 → inService (linkOf s p) = true → (linkOf s p).lost.getLsbD j = true → (laneOf s (laneOfPort p j)).losClearRound = some r →
    r + 64 ≤ roundNo s → laneReady s p j = true →
    ∃ t, exec (.laneRejoinAuto p j) s = .next t ∧ (linkOf t p).phase = .reshape ∧ (linkOf t p).lanesOk = (linkOf s p).width ||| laneBit j ∧
      (laneOf t (laneOfPort p j)).claim = .adapt)
/-- Survey (R109 to R111): a card is sent when one is due (at UP, on a changed field, every 1,024 Rounds, every 64 while NO_CARD), with the next CARD_SEQ
where a field changed. A card that fits the wiring makes an UP or MISWIRED link SURVEYED and is kept in every later state; where both ends then show
ADMIT_REQ, on a link SURVEYED so or REFUSED with a changed card, admission starts with a HELLO. One that does not fit makes any trained link
MISWIRED with an alert: an admission under way is given up with an ABORT, an admitted link is withdrawn first, both with their keys erased. A link
in UP without a card for 64 Rounds is NO_CARD. Otherwise, and before UP, nothing happens. -/
def Obligations.LinkSurvey : Prop :=
  (∀ s p old now, old = (linkOf s p).cardSent → now = cardBytes { ownCard s p with cardSeq := 0 } →
    ((linkOf s p).disc = .dark ∨ (linkOf s p).disc = .training ∨ ((linkOf s p).cardDue = false ∧ old = now ∧ roundNo s < (linkOf s p).cardRound + 1024 ∧
        ((linkOf s p).noCard = true → roundNo s < (linkOf s p).cardRound + 64)) → exec (.surveySend p) s = .next s) ∧
    ((linkOf s p).disc ≠ .dark → (linkOf s p).disc ≠ .training → ((linkOf s p).cardDue = true ∨ old ≠ now ∨ (linkOf s p).cardRound + 1024 ≤ roundNo s ∨
        ((linkOf s p).noCard = true ∧ (linkOf s p).cardRound + 64 ≤ roundNo s)) →
      ∃ t q, exec (.surveySend p) s = .next t ∧ LinkOnly p s t ∧
        q = (if old ≠ now ∧ old ≠ [] then ((linkOf s p).ownCardSeq + 1) % 65536 else (linkOf s p).ownCardSeq) ∧
        linkOf t p = { linkOf s p with
          cardDue := false, cardRound := roundNo s, cardSent := now, ownCardSeq := q,
          tx := { (linkOf s p).tx with mgmt := (linkOf s p).tx.mgmt ++
            [{ type := 10, vc := 7, shared := false, payload := fit 236 (cardBytes { ownCard s p with cardSeq := q }) }] } })) ∧
  (∀ s p c, (linkOf s p).disc = .dark ∨ (linkOf s p).disc = .training → exec (.surveyReceive p c) s = .next s) ∧
  (∀ s p c, (linkOf s p).disc ≠ .dark → (linkOf s p).disc ≠ .training → wiringOk s p c = true →
    ((linkOf s p).disc = .admitting ∨ (linkOf s p).disc = .admitted ∨ ((linkOf s p).disc = .refused ∧ (linkOf s p).card = some c) ∨
        (linkOf s p).admitReq = false ∨ c.admitReq = false ∨ s.ident.skeleton = true ∨
        16 ≤ (s.links.filter fun x => x.2.disc = .admitting).length →
      ∃ t, exec (.surveyReceive p c) s = .next t ∧ LinkOnly p s t ∧ linkOf t p = { linkOf s p with
        card := some c, noCard := false,
        disc := if (linkOf s p).disc = .up ∨ (linkOf s p).disc = .miswired then .surveyed else (linkOf s p).disc }) ∧
    ((linkOf s p).disc ≠ .admitting → (linkOf s p).disc ≠ .admitted → ¬((linkOf s p).disc = .refused ∧ (linkOf s p).card = some c) →
        (linkOf s p).admitReq = true → c.admitReq = true → s.ident.skeleton = false →
        (s.links.filter fun x => x.2.disc = .admitting).length < 16 →
      ∃ t r, exec (.surveyReceive p c) s = .next t ∧ (∀ q, q ≠ p → linkOf t q = linkOf s q) ∧
        linkOf t p = { linkOf s p with
          card := some c, noCard := false, disc := .admitting,
          adm := { step := 1, stepNs := s.mer.ns, rOwn := r, helloOwn := fit 2224 ownChain ++ r },
          tx := { (linkOf s p).tx with mgmt := (linkOf s p).tx.mgmt ++ admitFlits 1 (fit 2224 ownChain ++ r) } } ∧
        t = { s with links := t.links, trust := { s.trust with draws := s.trust.draws + 1 } })) ∧
  (∀ s p c, (linkOf s p).disc ≠ .dark → (linkOf s p).disc ≠ .training → wiringOk s p c = false →
    ∃ t, exec (.surveyReceive p c) s = .next t ∧ (linkOf t p).disc = .miswired ∧ (linkOf t p).card = some c ∧ (linkOf t p).noCard = false ∧
      ((linkOf s p).disc ≠ .admitted → (∀ q, q ≠ p → linkOf t q = linkOf s q) ∧ Reports { s with links := t.links } t) ∧
      ((linkOf s p).disc ≠ .admitting → (linkOf s p).disc ≠ .admitted →
        linkOf t p = { linkOf s p with card := some c, noCard := false, disc := .miswired }) ∧
      ((linkOf s p).disc = .admitting → (linkOf t p).adm = {} ∧ (linkOf t p).keys = {} ∧
        (linkOf t p).tx.mgmt = (linkOf s p).tx.mgmt ++ admitFlits 6 []) ∧
      ((linkOf s p).disc = .admitted → (linkOf t p).keys = {} ∧ (linkOf t p).adm = {} ∧ (linkOf t p).admitReq = false ∧
        (linkOf t p).tx.replay = [])) ∧
  (∀ s p, (linkOf s p).disc = .up → (linkOf s p).card = none → (linkOf s p).upRound + 64 ≤ roundNo s →
    ∃ t, exec (.surveyNoCard p) s = .next t ∧ LinkOnly p s t ∧ linkOf t p = { linkOf s p with
      noCard := true, cardDue := (linkOf s p).cardDue || !(linkOf s p).noCard }) ∧
  (∀ s p, (linkOf s p).disc ≠ .up ∨ (linkOf s p).card ≠ none ∨ roundNo s < (linkOf s p).upRound + 64 → exec (.surveyNoCard p) s = .next s)

/-- Admission (R111, R112, R116, R365) beside its keys: it starts, also again 1 s after a refusal, where both ends show ADMIT_REQ, fewer than 16 run and
the module is not in skeleton service; each message takes the link one step further where its checks pass, and to REFUSED with its secrets erased
and an event where one fails (a peer revoked, a chain or a message too long, a tag or content that does not match), is late or is answered with
ABORT; ABORT on an admitted link withdraws it with its keys erased. A message out of its step changes nothing. -/
def Obligations.LinkAdmission : Prop :=
  (∀ s p c, (linkOf s p).disc = .surveyed ∨ ((linkOf s p).disc = .refused ∧ (linkOf s p).refusedNs + 1000000000 ≤ s.mer.ns) →
    (linkOf s p).card = some c → c.admitReq = true →
    (linkOf s p).admitReq = true → (s.links.filter fun x => x.2.disc = .admitting).length < 16 → s.ident.skeleton = false →
    ∃ t r, exec (.admitRetry p) s = .next t ∧ (linkOf t p).disc = .admitting ∧ (linkOf t p).adm.step = 1 ∧ (linkOf t p).adm.stepNs = s.mer.ns ∧
      (linkOf t p).adm.helloOwn = fit 2224 ownChain ++ r ∧
      (linkOf t p).tx.mgmt = (linkOf s p).tx.mgmt ++ admitFlits 1 (fit 2224 ownChain ++ r) ∧
      (∀ q, q ≠ p → linkOf t q = linkOf s q) ∧ t = { s with links := t.links, trust := { s.trust with draws := s.trust.draws + 1 } }) ∧
  (∀ s p, ((linkOf s p).disc ≠ .surveyed ∧ ¬((linkOf s p).disc = .refused ∧ (linkOf s p).refusedNs + 1000000000 ≤ s.mer.ns)) ∨
    (linkOf s p).admitReq = false ∨ s.ident.skeleton = true ∨ 16 ≤ (s.links.filter fun x => x.2.disc = .admitting).length ∨
    (linkOf s p).card = none ∨ (∃ c, (linkOf s p).card = some c ∧ c.admitReq = false) → exec (.admitRetry p) s = .next s) ∧
  (∀ s p c chain r b, (linkOf s p).disc = .admitting → (linkOf s p).adm.step = 1 → (linkOf s p).card = some c →
    ∃ t, exec (.admitHello p chain r b) s = .next t ∧ (∀ q, q ≠ p → linkOf t q = linkOf s q) ∧
      if chainFails s p c chain = none ∧ helloOk chain r b = true
      then t = { s with links := t.links, trust := { s.trust with draws := s.trust.draws + 1 } } ∧ (linkOf t p).disc = .admitting ∧ (linkOf t p).adm.step = 2 ∧ (linkOf t p).adm.rPeer = r ∧
        (linkOf t p).tx.mgmt = (linkOf s p).tx.mgmt ++ admitFlits 2 (linkOf t p).adm.keyOwn
      else (linkOf t p).disc = .refused ∧ (linkOf t p).adm = {} ∧ (linkOf t p).keys = {} ∧ Reports { s with links := t.links } t) ∧
  (∀ s p c chain r b, (linkOf s p).disc = .surveyed → (linkOf s p).card = some c → c.admitReq = true → (linkOf s p).admitReq = true →
    (s.links.filter fun x => x.2.disc = .admitting).length < 16 → s.ident.skeleton = false → chainFails s p c chain = none → helloOk chain r b = true →
    ∃ t own, exec (.admitHello p chain r b) s = .next t ∧ (linkOf t p).disc = .admitting ∧ (linkOf t p).adm.step = 2 ∧ (linkOf t p).adm.rPeer = r ∧
      (linkOf t p).adm.helloOwn = fit 2224 ownChain ++ own ∧ (linkOf t p).tx.mgmt = (linkOf s p).tx.mgmt ++
        (admitFlits 1 (linkOf t p).adm.helloOwn ++ admitFlits 2 (linkOf t p).adm.keyOwn) ∧
      t = { s with links := t.links, trust := { s.trust with draws := s.trust.draws + 2 } }) ∧
  (∀ s p chain r b, (linkOf s p).disc ≠ .surveyed → (linkOf s p).disc ≠ .admitting ∨ (linkOf s p).adm.step ≠ 1 →
    exec (.admitHello p chain r b) s = .next s) ∧
  (∀ s p content tag, (linkOf s p).disc = .admitting → (linkOf s p).adm.step = 3 →
    (peerRevoked s (linkOf s p) = false → (linkOf s p).adm.finishTag = some tag → content.take 32 = (linkOf s p).adm.finish →
      ∃ t, exec (.admitFinish p content tag) s = .next t ∧ (∀ q, q ≠ p → linkOf t q = linkOf s q) ∧ linkOf t p = { linkOf s p with
          disc := .admitted, silent := false, parked := false, rollRound := some (roundNo s),
          keys := { (linkOf s p).keys with lastRekey := roundNo s }, adm := { peerDigests := (linkOf s p).adm.peerDigests } } ∧
        t = { s with links := t.links, pow := t.pow, mer := { s.mer with firstAdmission := t.mer.firstAdmission } }) ∧
    (peerRevoked s (linkOf s p) = true ∨ (linkOf s p).adm.finishTag ≠ some tag ∨ content.take 32 ≠ (linkOf s p).adm.finish →
      ∃ t, exec (.admitFinish p content tag) s = .next t ∧ (linkOf t p).disc = .refused ∧ (linkOf t p).keys = {} ∧ (linkOf t p).adm = {} ∧
        (∀ q, q ≠ p → linkOf t q = linkOf s q) ∧ Reports { s with links := t.links } t)) ∧
  (∀ s p content tag, (linkOf s p).disc ≠ .admitting ∨ (linkOf s p).adm.step ≠ 3 → exec (.admitFinish p content tag) s = .next s) ∧
  (∀ s p, (linkOf s p).disc = .admitting → ∃ t, exec (.admitAbort p) s = .next t ∧ (linkOf t p).disc = .refused ∧ (linkOf t p).adm = {} ∧
    (linkOf t p).keys = {} ∧ (linkOf t p).refusedNs = s.mer.ns ∧ Reports { s with links := t.links } t) ∧
  (∀ s p, (linkOf s p).disc = .admitted → ∃ t, exec (.admitAbort p) s = .next t ∧ (linkOf t p).disc = .surveyed ∧ (linkOf t p).keys = {} ∧
    (linkOf t p).admitReq = false ∧ (linkOf t p).reqRestore = roundNo s + 1024 ∧ (linkOf t p).tx.replay = []) ∧
  (∀ s p, (linkOf s p).disc ≠ .admitting → (linkOf s p).disc ≠ .admitted → exec (.admitAbort p) s = .next s) ∧
  (∀ s p, (linkOf s p).disc = .admitting → (linkOf s p).adm.stepNs + 10000000 ≤ s.mer.ns → ∃ t, exec (.admitStepTimeout p) s = .next t ∧
    (linkOf t p).disc = .refused ∧ (linkOf t p).keys = {} ∧ Reports { s with links := t.links } t) ∧
  (∀ s p, (linkOf s p).disc ≠ .admitting ∨ s.mer.ns < (linkOf s p).adm.stepNs + 10000000 → exec (.admitStepTimeout p) s = .next s) ∧
  (∀ s p, (linkOf s p).admitReq = true ∨ roundNo s < (linkOf s p).reqRestore → exec (.admitReqRestore p) s = .next s) ∧
  (∀ s p, (linkOf s p).admitReq = false → (linkOf s p).reqRestore ≤ roundNo s → ∃ t, exec (.admitReqRestore p) s = .next t ∧ LinkOnly p s t ∧
    linkOf t p = { linkOf s p with admitReq := true, cardDue := true })

/-- ADMIT_KEY derives the keys of R113: T over both HELLOs and both KEYs, the lower side's first; M1 and M2; the L-to-H and the H-to-L key with its SALT;
the chain value; KEY_PHASE 0 in both directions; and the secrets are erased. Where the peer has been revoked, or the signature or the secret does not
open, the link is refused with an event and its secrets erased. A KEY out of its step changes nothing. -/
def Obligations.AdmissionKeys : Prop :=
  (∀ s p cipher sig, (linkOf s p).disc ≠ .admitting ∨ (linkOf s p).adm.step ≠ 2 → exec (.admitKey p cipher sig) s = .next s) ∧
  (∀ s p cipher sig, (linkOf s p).disc = .admitting → (linkOf s p).adm.step = 2 → peerRevoked s (linkOf s p) = true →
    ∃ t, exec (.admitKey p cipher sig) s = .next t ∧ (linkOf t p).disc = .refused ∧ (linkOf t p).adm = {} ∧ (linkOf t p).keys = {} ∧
      (linkOf t p).tx.mgmt = (linkOf s p).tx.mgmt ++ admitFlits 6 [] ∧ Reports { s with links := t.links } t) ∧
  ∀ (s : State) (p : Nat) (cipher sig : List Byte) (a : Adm) (low : Bool), a = (linkOf s p).adm →
    low = isLow (((linkOf s p).card.map (·.idDigest)).getD []) →
    (linkOf s p).disc = .admitting → a.step = 2 → peerRevoked s (linkOf s p) = false →
    ∃ t, exec (.admitKey p cipher sig) s = .next t ∧
      match (if Config.rsaVerify a.peerExp a.peerModulus (lowHigh low a.helloOwn a.helloPeer) sig then Config.oaepOpen cipher else none) with
      | none => (linkOf t p).disc = .refused ∧ (linkOf t p).adm = {} ∧ (linkOf t p).keys = {} ∧
          (linkOf t p).tx.mgmt = (linkOf s p).tx.mgmt ++ admitFlits 6 [] ∧ Reports { s with links := t.links } t
      | some x => ∃ T m1 m2 : List Byte, T = sha (lowHigh low a.helloOwn a.helloPeer ++ lowHigh low a.keyOwn (cipher ++ sig)) ∧
          m1 = sha ([1] ++ (lowHigh low a.sOwn (fit 32 x) ++ lowHigh low a.rOwn a.rPeer ++ T)) ∧
          m2 = sha ([2] ++ (lowHigh low a.sOwn (fit 32 x) ++ lowHigh low a.rOwn a.rPeer ++ T)) ∧
          (linkOf t p).keys.tx = keyOf (if low then m1 else m2) ∧ (linkOf t p).keys.saltTx = saltOf (if low then m1 else m2) ∧
          (linkOf t p).keys.rx = keyOf (if low then m2 else m1) ∧ (linkOf t p).keys.saltRx = saltOf (if low then m2 else m1) ∧
          (linkOf t p).keys.chain = (m1.drop 36).take 28 ∧ (linkOf t p).keyPhaseTx = false ∧ (linkOf t p).keyPhaseRx = false ∧
          (linkOf t p).adm = { step := 3, stepNs := s.mer.ns, peerDigests := a.peerDigests, finish := T.take 32 } ∧
          (linkOf t p).disc = .admitting ∧ (linkOf t p).tx.mgmt = (linkOf s p).tx.mgmt ++ admitFlits 3 (T.take 32) ∧ LinkOnly p s t

/-- Rekeying (R114): a rekey starts at the interval or at 2³⁶ flits of either space under one key; its messages derive the keys to come from C, n_I and
n_R without touching those in use; of two that start at once L's proceeds; the old keys are erased once no flit needs them; a rekey that does not
finish in 10 ms is tried again, and the third failure withdraws the link. A message or a timeout out of its place changes nothing. -/
def Obligations.LinkRekey : Prop :=
  (∀ s p, (linkOf s p).disc ≠ .admitted ∨ (linkOf s p).keys.rekeySince ≠ none ∨ (roundNo s < (linkOf s p).keys.lastRekey + 2 ^ (linkOf s p).keys.interval ∧
    (linkOf s p).tx.flitsUnderKey < 2 ^ 36 ∧ (linkOf s p).tx.unseqUnderKey < 2 ^ 36) → exec (.rekeyStart p) s = .next s) ∧
  (∀ s p, (linkOf s p).disc = .admitted → (linkOf s p).keys.rekeySince = none → (linkOf s p).keys.lastRekey + 2 ^ (linkOf s p).keys.interval ≤ roundNo s ∨
    2 ^ 36 ≤ (linkOf s p).tx.flitsUnderKey ∨ 2 ^ 36 ≤ (linkOf s p).tx.unseqUnderKey →
    ∃ t n, exec (.rekeyStart p) s = .next t ∧ (linkOf t p).keys.rekeySince = some s.mer.ns ∧ (linkOf t p).keys.initiator = true ∧
      (linkOf t p).keys.nOwn = n ∧ (linkOf t p).tx.mgmt = (linkOf s p).tx.mgmt ++ admitFlits 4 n ∧
      (linkOf t p).keys.tx = (linkOf s p).keys.tx ∧ (linkOf t p).keys.rx = (linkOf s p).keys.rx ∧
      t = { s with links := t.links, trust := { s.trust with draws := s.trust.draws + 1 } }) ∧
  (∀ s p nI, (linkOf s p).disc ≠ .admitted ∨ ((linkOf s p).keys.initiator = true ∧ (linkOf s p).keys.rekeySince ≠ none ∧
    (linkOf s p).keys.nextTx = none ∧ isLow (((linkOf s p).card.map (·.idDigest)).getD []) = true) → exec (.rekeyReceive p nI) s = .next s) ∧
  (∀ s p nI low, low = isLow (((linkOf s p).card.map (·.idDigest)).getD []) → (linkOf s p).disc = .admitted →
    (linkOf s p).keys.initiator = false ∨ (linkOf s p).keys.rekeySince = none ∨ (linkOf s p).keys.nextTx ≠ none ∨ low = false →
    ∃ t n m1 m2, exec (.rekeyReceive p nI) s = .next t ∧ m1 = sha ([3] ++ (linkOf s p).keys.chain ++ fit 32 nI ++ n) ∧
      m2 = sha ([4] ++ (linkOf s p).keys.chain ++ fit 32 nI ++ n) ∧
      (linkOf t p).keys.nextTx = some (keyOf (if low then m1 else m2), saltOf (if low then m1 else m2)) ∧
      (linkOf t p).keys.nextRx = some (keyOf (if low then m2 else m1), saltOf (if low then m2 else m1)) ∧
      (linkOf t p).tx.mgmt = (linkOf s p).tx.mgmt ++ admitFlits 5 n ∧ (linkOf t p).keys.tx = (linkOf s p).keys.tx ∧
      (linkOf t p).keys.rx = (linkOf s p).keys.rx ∧ t = { s with links := t.links, trust := { s.trust with draws := s.trust.draws + 1 } }) ∧
  (∀ s p nR b, (linkOf s p).disc = .admitted → (linkOf s p).keys.rekeySince = some b → (linkOf s p).keys.ackGot = false →
    ((linkOf s p).keys.initiator = false → ∃ t, exec (.rekeyAckReceive p nR) s = .next t ∧ LinkOnly p s t ∧
      linkOf t p = { linkOf s p with keys := { (linkOf s p).keys with ackGot := true } }) ∧
    ((linkOf s p).keys.initiator = true → ∃ t m1 m2, exec (.rekeyAckReceive p nR) s = .next t ∧ LinkOnly p s t ∧ (linkOf t p).keys.ackGot = true ∧
      m1 = sha ([3] ++ (linkOf s p).keys.chain ++ (linkOf s p).keys.nOwn ++ fit 32 nR) ∧
      m2 = sha ([4] ++ (linkOf s p).keys.chain ++ (linkOf s p).keys.nOwn ++ fit 32 nR) ∧
      (linkOf t p).keys.nextTx = (if isLow (((linkOf s p).card.map (·.idDigest)).getD []) then some (keyOf m1, saltOf m1) else some (keyOf m2, saltOf m2)) ∧
      (linkOf t p).keys.nextRx = (if isLow (((linkOf s p).card.map (·.idDigest)).getD []) then some (keyOf m2, saltOf m2) else some (keyOf m1, saltOf m1)) ∧
      (linkOf t p).tx.mgmt = (linkOf s p).tx.mgmt ++ admitFlits 5 (linkOf s p).keys.nOwn ∧
      (linkOf t p).keys.tx = (linkOf s p).keys.tx ∧ (linkOf t p).keys.rx = (linkOf s p).keys.rx)) ∧
  (∀ s p nR, (linkOf s p).disc ≠ .admitted ∨ (linkOf s p).keys.rekeySince = none ∨ (linkOf s p).keys.ackGot = true →
    exec (.rekeyAckReceive p nR) s = .next s) ∧
  (∀ s p, (∃ h ∈ (linkOf s p).tx.replay, h.oldKey = true) ∨ (s.mer.ns - (linkOf s p).keys.switchNs) * 256 < rtt256 s p + 128 * 256 →
    exec (.oldKeyErase p) s = .next s) ∧
  (∀ s p, (linkOf s p).keys.rekeySince = none ∨ (linkOf s p).disc ≠ .admitted ∨ (∃ b, (linkOf s p).keys.rekeySince = some b ∧ s.mer.ns < b + 10000000) →
    exec (.rekeyTimeout p) s = .next s) ∧
  (∀ s p, (∀ h ∈ (linkOf s p).tx.replay, h.oldKey = false) → rtt256 s p + 128 * 256 ≤ (s.mer.ns - (linkOf s p).keys.switchNs) * 256 →
    ∃ t, exec (.oldKeyErase p) s = .next t ∧ LinkOnly p s t ∧ (linkOf t p).keys = { (linkOf s p).keys with oldTx := none, oldRx := none }) ∧
  (∀ s p b, (linkOf s p).disc = .admitted → (linkOf s p).keys.rekeySince = some b → b + 10000000 ≤ s.mer.ns →
    ((linkOf s p).keys.rekeyFails ≤ 1 → ∃ t n, exec (.rekeyTimeout p) s = .next t ∧ (linkOf t p).disc = .admitted ∧
      (linkOf t p).keys.rekeyFails = (linkOf s p).keys.rekeyFails + 1 ∧ (linkOf t p).tx.mgmt = (linkOf s p).tx.mgmt ++ admitFlits 4 n) ∧
    (2 ≤ (linkOf s p).keys.rekeyFails → ∃ t, exec (.rekeyTimeout p) s = .next t ∧ (linkOf t p).disc = .surveyed ∧ (linkOf t p).keys = {}))
/-! ### Letters and the switching core (05, 06) -/

/-- A HEAD (R128, R143, R148, R173): on a link not admitted nothing happens. One that fails an entry check, that comes in skeleton service with a class
below 5, or that its Plot does not let in, leaves the buffer as it was and gives its credit back. One for a post box or the slow-post receiver of this
module enters the buffer as a terminal letter; one for an accelerator of the rack whose link is admitted enters it as a new letter with one send of
its own, to the accelerator's port. -/
def Obligations.HeadsReceived : Prop :=
  (∀ s p vc sh payload, admitted s p = false → exec (.ingressHead p vc sh payload) s = .next s) ∧
  (∀ s p vc sh payload h, h = headerOf ((fit 236 payload).take 32) → admitted s p = true → openLetter s p vc = none →
    entryCheck s p vc (fit 236 payload) ≠ none ∨ (1 ≤ s.pow.ladder ∧ h.cls < 5) ∨ plotAtEntry s h p = false →
    ∃ t, exec (.ingressHead p vc sh payload) s = .next t ∧ t.sw.letters = s.sw.letters ∧
      (sh = false → tget 0 (linkOf t p).rx.pendDed vc = tget 0 (linkOf s p).rx.pendDed vc + 1 ∧ (linkOf t p).rx.pendShr = (linkOf s p).rx.pendShr) ∧
      (sh = true → (linkOf t p).rx.pendDed = (linkOf s p).rx.pendDed ∧ (linkOf t p).rx.pendShr = (linkOf s p).rx.pendShr + 1) ∧
      Reports { s with sw := { s.sw with openAt := t.sw.openAt, lastOne := t.sw.lastOne }, links := t.links } t) ∧
  (∀ s p vc sh payload h, h = headerOf ((fit 236 payload).take 32) → admitted s p = true → openLetter s p vc = none →
    entryCheck s p vc (fit 236 payload) = none → s.pow.ladder = 0 ∨ 5 ≤ h.cls → plotAtEntry s h p = true → h.cls ≠ 2 → h.cls ≠ 4 → h.mc = false →
    flitCount h.length ≠ 1 → destIsSelf s h.dest = true →
    ∃ t l, exec (.ingressHead p vc sh payload) s = .next t ∧ tfind t.sw.letters s.sw.nextLetter = some l ∧ t.sw.nextLetter = s.sw.nextLetter + 1 ∧
      tget 0 t.sw.openAt (8 * p + vc) = s.sw.nextLetter + 1 ∧ l.ingress = p ∧ l.vc = vc ∧ l.hdr = h ∧ l.complete = false ∧
      l.cells = [{ type := 1, vc := vc, shared := sh, payload := fit 236 payload }] ∧
      l.target = some (if h.cls = 6 then .slowPost else .box h.raddr) ∧ (∀ x ∈ l.sends, x.sess ≠ none) ∧
      ∀ id, id ≠ s.sw.nextLetter → tfind t.sw.letters id = tfind s.sw.letters id) ∧
  (∀ s p vc sh payload h, h = headerOf ((fit 236 payload).take 32) → admitted s p = true → openLetter s p vc = none →
    entryCheck s p vc (fit 236 payload) = none → s.pow.ladder = 0 → plotAtEntry s h p = true → h.cls < 2 → h.mc = false →
    destIsSelf s h.dest = false → rackOf h.dest = rackOf (srcRef s) → slotOf h.dest < 112 → deliverable s h (slotOf h.dest) = true →
    admitted s (slotOf h.dest) = true → flitCount h.length ≠ 1 →
    ∃ t l x, exec (.ingressHead p vc sh payload) s = .next t ∧ tfind t.sw.letters s.sw.nextLetter = some l ∧ t.sw.nextLetter = s.sw.nextLetter + 1 ∧
      tget 0 t.sw.openAt (8 * p + vc) = s.sw.nextLetter + 1 ∧ l.ingress = p ∧ l.vc = vc ∧ l.hdr = h ∧ l.complete = false ∧ l.target = none ∧
      l.cells = [{ type := 1, vc := vc, shared := sh, payload := fit 236 payload }] ∧ (l.sends.filter fun y => y.sess.isNone) = [x] ∧
      x.port = slotOf h.dest ∧ x.vc = leaveVc s h (some (p, vc)) (slotOf h.dest) ∧ x.sent = 0 ∧ x.done = false ∧
      ∀ id, id ≠ s.sw.nextLetter → tfind t.sw.letters id = tfind s.sw.letters id)

/-- A later flit of a letter (R129, R146, R156): a MID is written to a cell; an END at its place with a good letter check completes the letter; an END at
its place with a bad one spoils it with CAUSE 2, one at any other place with 3, and END_SPOILT with the CAUSE that it names; each of the three closes the
letter. A flit of a letter closed already, or of none, only gives its credit back (but END_SPOILT after a one-flit letter that has left). -/
def Obligations.LetterFlits : Prop :=
  (∀ s p vc sh payload id l, openLetter s p vc = some id → tfind s.sw.letters id = some l → l.complete = false → l.spoilt = none →
    (∃ t l2, exec (.letterFlitReceive p vc 2 sh payload) s = .next t ∧ tfind t.sw.letters id = some l2 ∧ l2.complete = false ∧ l2.spoilt = none ∧
      l2.target = l.target ∧ (l2.cells.map fun c => { c with freed := false }) =
        (l.cells.map fun c => { c with freed := false }) ++ [{ type := 2, vc := vc, shared := sh, payload := fit 236 payload }] ∧
      t.sw.openAt = s.sw.openAt ∧ ∀ i, i ≠ id → tfind t.sw.letters i = tfind s.sw.letters i) ∧
    (∀ l', l' = { l with cells := l.cells ++ [{ type := 3, vc := vc, shared := sh, payload := fit 236 payload }] } →
      l'.cells.length = flitCount l.hdr.length →
      (letterGood l' = true → l.sends = [] → l.target ≠ none → l.taken = false →
        ∃ t l2, exec (.letterFlitReceive p vc 3 sh payload) s = .next t ∧ tfind t.sw.letters id = some l2 ∧ l2.complete = true ∧
          l2.cells = l'.cells ∧ l2.target = l.target ∧ tget 0 t.sw.openAt (8 * p + vc) = 0) ∧
      (letterGood l' = false → ∃ t, exec (.letterFlitReceive p vc 3 sh payload) s = .next t ∧ tget 0 t.sw.openAt (8 * p + vc) = 0 ∧
        ∀ l2, tfind t.sw.letters id = some l2 → l2.spoilt = some 2)) ∧
    (l.cells.length + 1 ≠ flitCount l.hdr.length → ∃ t, exec (.letterFlitReceive p vc 3 sh payload) s = .next t ∧ tget 0 t.sw.openAt (8 * p + vc) = 0 ∧
      ∀ l2, tfind t.sw.letters id = some l2 → l2.spoilt = some 3) ∧
    (∃ t, exec (.letterFlitReceive p vc 4 sh payload) s = .next t ∧ tget 0 t.sw.openAt (8 * p + vc) = 0 ∧
      ∀ l2, tfind t.sw.letters id = some l2 → l2.spoilt = some (fieldAt payload 0 1))) ∧
  (∀ s p vc n payload, n = 2 ∨ n = 3 → openLetter s p vc = none → ∃ t, exec (.letterFlitReceive p vc n true payload) s = .next t ∧ LinkOnly p s t ∧
    (linkOf t p).rx.pendShr = (linkOf s p).rx.pendShr + 1) ∧
  (∀ s p vc n payload, n = 2 ∨ n = 3 → openLetter s p vc = none → ∃ t, exec (.letterFlitReceive p vc n false payload) s = .next t ∧ LinkOnly p s t ∧
    tget 0 (linkOf t p).rx.pendDed vc = tget 0 (linkOf s p).rx.pendDed vc + 1) ∧
  (∀ s p vc payload, openLetter s p vc = none → tfind s.sw.lastOne (8 * p + vc) = none →
    ∃ t, exec (.letterFlitReceive p vc 4 true payload) s = .next t ∧ (linkOf t p).rx.pendShr = (linkOf s p).rx.pendShr + 1 ∧
      Reports { s with links := t.links } t)

/-- The Dispatcher (R153, R154): a slot's match leaves the matches in progress and the one four slots ahead begins, whatever differs or fails parity; a
channel that the other two outvote is counted; where two channels in service differ no cell moves and the pointers stay. A channel whose retirement is
due goes out of service, the third time within 1,024 Rounds for good with an alert, and one that is out rejoins after a boundary. -/
def Obligations.DispatcherSlots : Prop :=
  (∀ s slot a b c parity lost, slot < 200 → ∃ t, exec (.dispatcherMatch slot a b c parity lost) s = .next t ∧
    (∃ m ∈ t.sw.matches4, m.slot = (slot + 4) % 200) ∧ ∀ m ∈ t.sw.matches4, m.slot ≠ slot) ∧
  (∀ s slot parity lost, channelsIn s = [0, 1, 2] → ∃ t, exec (.dispatcherMatch slot true false false parity lost) s = .next t ∧
    (dispOf t 0).mismatch = min 65535 ((dispOf s 0).mismatch + 1) ∧ (dispOf t 0).slotMiss = (dispOf s 0).slotMiss + 1 ∧
    dispOf t 1 = dispOf s 1 ∧ dispOf t 2 = dispOf s 2) ∧
  (∀ s slot lost, channelsIn s = [0, 1] → ∃ t, exec (.dispatcherMatch slot true false false none lost) s = .next t ∧
    t.sw.gptr = s.sw.gptr ∧ t.sw.aptr = s.sw.aptr ∧ t.sw.disp = s.sw.disp ∧ ∀ p, (egressOf t p).staged = (egressOf s p).staged) ∧
  (∀ s c, (dispOf s c).mode = 0 → (dispOf s c).retireDue = true →
    ∃ t, exec (.dispatchChannelRetire c) s = .next t ∧ (dispOf t c).retireDue = false ∧ (dispOf t c).slotMiss = 0 ∧
      (dispOf t c).mode = (if ((dispOf s c).retires.filter fun r => decide (roundNo s < r + 1024)).length ≥ 2 then 2 else 1) ∧
      (∀ d, d ≠ c → dispOf t d = dispOf s d) ∧ Reports { s with sw := { s.sw with disp := t.sw.disp } } t) ∧
  (∀ s c, (dispOf s c).mode ≠ 0 ∨ (dispOf s c).retireDue = false → exec (.dispatchChannelRetire c) s = .next s) ∧
  (∀ s c, (dispOf s c).mode = 1 → (∀ r, (dispOf s c).retires.getLast? = some r → r < roundNo s) →
    ∃ t, exec (.dispatchChannelRejoin c) s = .next t ∧ dispOf t c = { dispOf s c with mode := 0 } ∧ (∀ d, d ≠ c → dispOf t d = dispOf s d) ∧
      t = { s with sw := { s.sw with disp := t.sw.disp } }) ∧
  (∀ s c, (dispOf s c).mode ≠ 1 ∨ (∃ r, (dispOf s c).retires.getLast? = some r ∧ roundNo s ≤ r) → exec (.dispatchChannelRejoin c) s = .next s)

/-- What ends a wait in the switching core: a standing route returns to its slots once its cause has cleared and its letters are sent; a copy without
credit for 4 Rounds is dropped and counted; a VC7 letter that waited 64 Rounds at an output goes, from the buffer or from the module's own; a slow-post
notice that could not leave in 4 Rounds is dropped; a SLOW received is obeyed in place of an earlier one of its scope, and other slow post changes
nothing here (R162, R166, R186, R197, R198). Before its time each of the four waits leaves everything as it was. -/
def Obligations.SwitchWaits : Prop :=
  (∀ s p r, (p, r) ∈ s.sw.fallen → routeCause s p = false → routeQueued s p r = false →
    ∃ t, exec (.routeReturn p r) s = .next t ∧ (p, r) ∉ t.sw.fallen ∧ (∀ x, x ≠ (p, r) → (x ∈ t.sw.fallen ↔ x ∈ s.sw.fallen)) ∧
      t = { s with sw := { s.sw with fallen := t.sw.fallen } }) ∧
  (∀ s p r, (p, r) ∉ s.sw.fallen ∨ routeCause s p = true ∨ routeQueued s p r = true → exec (.routeReturn p r) s = .next s) ∧
  (∀ s id n l x, tfind s.sw.letters id = some l → l.sends.find? (fun x => x.sess = some n && !x.done && decide (x.sent = 0)) = some x →
    (copyCredit s x.port = false → creditSince s x.port + 4 ≤ roundNo s →
      ∃ t, exec (.copyCreditTimeout id n) s = .next t ∧ tget 0 t.capture.sessionDropped n = tget 0 s.capture.sessionDropped n + 1 ∧
        t.capture.dropped = s.capture.dropped + 1 ∧ (∀ i, i ≠ id → tfind t.sw.letters i = tfind s.sw.letters i) ∧
        ∀ l2, tfind t.sw.letters id = some l2 → (l2.sends.map fun y => { y with seq := 0 }) =
          l.sends.map fun y => { y with seq := 0, done := y.done || decide (y = x) }) ∧
    (copyCredit s x.port = true ∨ roundNo s < creditSince s x.port + 4 → exec (.copyCreditTimeout id n) s = .next s)) ∧
  (∀ s id p l x, tfind s.sw.letters id = some l → l.sends.find? (fun x => x.port = p && x.vc = 7 && x.sent = 0 && !x.done) = some x →
    (x.since + 64 ≤ roundNo s → ∃ t, exec (.vc7Stale id p) s = .next t ∧ (∀ i, i ≠ id → tfind t.sw.letters i = tfind s.sw.letters i) ∧
      ∀ l2, tfind t.sw.letters id = some l2 → (l2.sends.map fun y => { y with seq := 0 }) =
        l.sends.map fun y => { y with seq := 0, done := y.done || decide (y = x) }) ∧
    (roundNo s < x.since + 64 → exec (.vc7Stale id p) s = .next s)) ∧
  (∀ s id p l, tfind s.sw.letters id = none → (egressOf s p).own.find? (fun l => l.vc = 7 && l.sent = 0 && decide (roundNo s ≥ l.sinceRound + 64)) = some l →
    ∃ u, exec (.vc7Stale id p) s = .next (cnt1 (idPort 28 p) u) ∧ egressOf u p = { egressOf s p with own := (egressOf s p).own.erase l } ∧
      (∀ q, q ≠ p → egressOf u q = egressOf s q) ∧ u = { s with sw := { s.sw with egress := u.sw.egress } }) ∧
  (∀ s n x, tfind s.route.notices n = some x → x.round + 4 ≤ roundNo s →
    ∃ u, exec (.slowNoticeTimeout n) s = .next (cnt1 5 u) ∧ tfind u.route.notices n = none ∧ (∀ m, m ≠ n → tfind u.route.notices m = tfind s.route.notices m) ∧
      (x.port < 256 → ∀ l ∈ (egressOf u x.port).own, l.notice = some n → l.sent ≠ 0) ∧
      u = { s with route := { s.route with notices := u.route.notices }, sw := { s.sw with egress := u.sw.egress } }) ∧
  (∀ s n, tfind s.route.notices n = none ∨ (∃ x, tfind s.route.notices n = some x ∧ roundNo s < x.round + 4) →
    exec (.slowNoticeTimeout n) s = .next s) ∧
  (∀ s payload x, x = {
      target := fieldAt payload 0 3, scope := fieldAt payload 3 1 % 2, rate := fieldAt payload 4 1 % 16, till := roundNo s + fieldAt payload 5 2,
      round := 0, sent := 0 } →
    ∃ t, exec (.slowPostReceive 0 payload) s = .next t ∧ x ∈ t.route.obeyed ∧ (∀ y ∈ t.route.obeyed, sameScope x y = true → y = x) ∧
      (∀ y, sameScope x y = false → (y ∈ t.route.obeyed ↔ y ∈ s.route.obeyed)) ∧ t = { s with route := { s.route with obeyed := t.route.obeyed } }) ∧
  (∀ s n payload, n ≠ 0 → exec (.slowPostReceive n payload) s = .next s)

/-- The reorder units (R193 to R195): an arrival at NEXT is delivered and NEXT advances; one 1 to 4,095 ahead of NEXT is held and opens a gap; a copy of a
held one, or one from anywhere else, is only freed; where the unit has no room for it, it waits. A stream's first arrival is held, and sets NEXT after a
Round; a gap that has lasted GAP_TIMEOUT Rounds is declared lost and NEXT passes it. (The letters here are for the slow-post receiver.) -/
def Obligations.ReorderStreams : Prop :=
  (∀ s id l key x nx d, tfind s.sw.letters id = some l → l.target = some .slowPost → l.complete = true → l.spoilt = none → l.taken = false →
    l.sends.all sendOver = true → key = reorderKey l.hdr → streamOf s 1 key = some x → x.next = some nx → d = (l.hdr.sseq + 65536 - nx) % 65536 →
    (d = 0 → x.held = [] → ∃ t, exec (.reorderArrival id) s = .next t ∧ tfind t.sw.letters id = none ∧
      streamOf t 1 key = some { advanceNext (nx + 1) x with lastRound := roundNo s, gapStart := none }) ∧
    (∀ sp, 1 ≤ d → d < 4096 → (∀ y ∈ x.held, y.sseq ≠ l.hdr.sseq) → holdPlace s 1 l.cells.length = some sp →
      ∃ t, exec (.reorderArrival id) s = .next t ∧ tfind t.sw.letters id = none ∧
        streamOf t 1 key = some { x with
          held := x.held ++ [{ sseq := l.hdr.sseq, letter := l, round := roundNo s, spilled := sp }], gapStart := some (x.gapStart.getD (roundNo s)) }) ∧
    (1 ≤ d → d < 4096 → (∀ y ∈ x.held, y.sseq ≠ l.hdr.sseq) → holdPlace s 1 l.cells.length = none → exec (.reorderArrival id) s = .next s) ∧
    (4096 ≤ d ∨ (1 ≤ d ∧ ∃ y ∈ x.held, y.sseq = l.hdr.sseq) → ∃ t, exec (.reorderArrival id) s = .next t ∧ tfind t.sw.letters id = none ∧
      t.route = s.route)) ∧
  (∀ s id l key x sp, tfind s.sw.letters id = some l → l.target = some .slowPost → l.complete = true → l.spoilt = none → l.taken = false →
    l.sends.all sendOver = true → key = reorderKey l.hdr → streamOf s 1 key = some x → x.next = none → (∀ y ∈ x.held, y.sseq ≠ l.hdr.sseq) →
    holdPlace s 1 l.cells.length = some sp → ∃ t, exec (.reorderArrival id) s = .next t ∧ tfind t.sw.letters id = none ∧
      streamOf t 1 key = some { x with held := x.held ++ [{ sseq := l.hdr.sseq, letter := l, round := roundNo s, spilled := sp }] }) ∧
  (∀ s h key x y, streamOf s h key = some x → x.next = none → x.held = [y] → x.born + 1 ≤ roundNo s → y.letter.target = some .slowPost →
    ∃ t, exec (.reorderContextSet h key) s = .next t ∧
      streamOf t h key = some { advanceNext (y.sseq + 1) x with held := [], lastRound := roundNo s, gapStart := none }) ∧
  (∀ s h key, streamOf s h key = none ∨ (∃ x, streamOf s h key = some x ∧ (x.next ≠ none ∨ x.held = [] ∨ roundNo s < x.born + 1)) →
    exec (.reorderContextSet h key) s = .next s) ∧
  (∀ s h key x y g nx n, streamOf s h key = some x → x.next = some nx → x.gapStart = some g → x.held = [y] → y.letter.target = some .slowPost →
    g + s.bank.regs.gapTimeout ≤ roundNo s → y.sseq < 65536 → nx < 65536 → n = (y.sseq + 65536 - nx) % 65536 → n < 4096 →
    ∃ t x', exec (.gapTimeout h key) s = .next t ∧ streamOf t h key = some x' ∧ x'.next = some ((y.sseq + 1) % 65536) ∧ x'.held = [] ∧
      x'.gapStart = none ∧ ∀ i, i < n → (nx + i) % 65536 ∈ x'.lost) ∧
  (∀ s h key, streamOf s h key = none ∨ (∃ x, streamOf s h key = some x ∧ (x.gapStart = none ∨ x.next = none ∨ x.held = [] ∨
      ∃ g, x.gapStart = some g ∧ roundNo s < g + s.bank.regs.gapTimeout)) → exec (.gapTimeout h key) s = .next s)
/-! ### Clerks (08) -/

/-- The lane-wise operations of R210: VADD, VSUB, VMUL, VFMA, VMAX, VMIN, VABS give each active lane its sum, difference, product, fused product,
greater, lesser or magnitude, in one issue cycle, and touch nothing else; an instruction that is not the next of the clerk's program does nothing, and a
program word that fails parity is read again or stops the bundle (R213, R214). -/
def Obligations.LaneArithmetic : Prop :=
  ∀ (k : Nat) (i : ClerkOp),
    LaneResult (.vadd k i 0) k 5 i [i.va, i.vb] (fun x n => fAdd (lane x i.va n) (lane x i.vb n)) (fun x n => lane x i.va n + lane x i.vb n) ∧
    LaneResult (.vsub k i 0) k 6 i [i.va, i.vb] (fun x n => fSub (lane x i.va n) (lane x i.vb n)) (fun x n => lane x i.va n - lane x i.vb n) ∧
    LaneResult (.vmul k i 0) k 7 i [i.va, i.vb] (fun x n => fMul (lane x i.va n) (lane x i.vb n)) (fun x n => lane x i.va n * lane x i.vb n) ∧
    LaneResult (.vfma k i 0) k 8 i [i.va, i.vb, i.vc] (fun x n => fFma (lane x i.va n) (lane x i.vb n) (lane x i.vc n))
      (fun x n => lane x i.va n * lane x i.vb n + lane x i.vc n) ∧
    LaneResult (.vmax k i 0) k 9 i [i.va, i.vb] (fun x n => fMax (lane x i.va n) (lane x i.vb n)) (fun x n => iMax (lane x i.va n) (lane x i.vb n)) ∧
    LaneResult (.vmin k i 0) k 10 i [i.va, i.vb] (fun x n => fMin (lane x i.va n) (lane x i.vb n)) (fun x n => iMin (lane x i.va n) (lane x i.vb n)) ∧
    LaneResult (.vabs k i 0) k 11 i [i.va] (fun x n => fAbs (lane x i.va n))
      (fun x n => if (lane x i.va n).toInt < 0 then -(lane x i.va n) else lane x i.va n) ∧
    WordParity (.vadd k i ·) k 5 i ∧ WordParity (.vsub k i ·) k 6 i ∧ WordParity (.vmul k i ·) k 7 i ∧ WordParity (.vfma k i ·) k 8 i ∧
    WordParity (.vmax k i ·) k 9 i ∧ WordParity (.vmin k i ·) k 10 i ∧ WordParity (.vabs k i ·) k 11 i

/-- The other register operations of R210: VSCL, VCMP (its mask, M[MK], in active lanes), VSEL, VPRE (prefix sums from lane 63 of VC, 6 issue
cycles), VMRG (the 64 greatest keys and their indices, 8 cycles) and VPBF. Each completes on every operand; where the manual states no value (VSCL of
an INT32, sources of both kinds, odd registers or NaN keys of VMRG, VPBF with IMM[1:0] 3) the one value is free and a draw is taken. Out of
the program, or with a word that fails parity, they do as the others (R213, R214). -/
def Obligations.LaneSelection : Prop :=
  (∀ k i, WordParity (.vscl k i ·) k 12 i ∧ WordParity (.vcmp k i ·) k 13 i ∧ WordParity (.vsel k i ·) k 14 i ∧ WordParity (.vpre k i ·) k 15 i ∧
    WordParity (.vmrg k i ·) k 16 i ∧ WordParity (.vpbf k i ·) k 19 i) ∧
  ∀ (k : Nat) (i : ClerkOp) (s : State) (x : Clerk), x = clerkOf s k →
    (issues s k 12 i = true → ∃ u, exec (.vscl k i 0) s = .next (cnt1 (idClerk 8 k) (Fetched k s u)) ∧ Issues k 1 s u ∧ VectorsOnly [i.vd] x (clerkOf u k) ∧
      ((∀ n, n < 64 → laneKind x i.va n ≠ 2) → u.draw = s.draw) ∧ ((∃ n, n < 64 ∧ laneKind x i.va n = 2) → u.draw = s.draw + 1) ∧
      Holds i i.vd (fun n => if laneKind x i.va n = 2 then 2 else 1)
        (fun n => if laneKind x i.va n = 2 then freeLane s.draw n else fScale (lane x i.va n) (immInt i)) x (clerkOf u k)) ∧
    (issues s k 13 i = true → ∃ u, exec (.vcmp k i 0) s = .next (cnt1 (idClerk 8 k) (Fetched k s u)) ∧ Issues k 1 s u ∧
      (∀ r, vreg (clerkOf u k) r = vreg x r) ∧ (clerkOf u k).a = x.a ∧ (clerkOf u k).s = x.s ∧ (clerkOf u k).kind = x.kind ∧
      (∀ j, j ≠ i.mreg → mreg (clerkOf u k) j = mreg x j) ∧
      u.draw = s.draw + bit (mixed x [i.va, i.vb]) ∧ ∀ n, n < 64 → (mreg (clerkOf u k) i.mreg).getLsbD n =
        if active x i n = false then (mreg x i.mreg).getLsbD n
        else if kindsAt x [i.va, i.vb] n = 3 then (Config.freeNat s.draw).testBit n
        else compareRel (decide (kindsAt x [i.va, i.vb] n = 2)) (i.imm % 4) (lane x i.va n) (lane x i.vb n)) ∧
    (issues s k 14 i = true → ∃ u, exec (.vsel k i 0) s = .next (cnt1 (idClerk 8 k) (Fetched k s u)) ∧ Issues k 1 s u ∧ VectorsOnly [i.vd] x (clerkOf u k) ∧ u.draw = s.draw ∧
      Holds i i.vd (fun n => if (mreg x i.mreg).getLsbD n then laneKind x i.va n else laneKind x i.vb n)
        (fun n => if (mreg x i.mreg).getLsbD n then lane x i.va n else lane x i.vb n) x (clerkOf u k)) ∧
    (issues s k 15 i = true → ∃ u, exec (.vpre k i 0) s = .next (cnt1 (idClerk 8 k) (Fetched k s u)) ∧ Issues k 6 s u ∧ VectorsOnly [i.vd] x (clerkOf u k) ∧
      u.draw = s.draw + bit (prefixKind x i 63 = 3) ∧ (prefixKind x i 63 ≠ 3 → i.masked = false → (vreg x i.va).length = 64 → ∀ n, n < 64 →
        laneKind (clerkOf u k) i.vd n = (if prefixKind x i n = 2 then 2 else 1) ∧ lane (clerkOf u k) i.vd n =
          (if prefixKind x i n = 2 then (· + ·) else fAdd) (if n = 0 then lane x i.vc 63 else lane (clerkOf u k) i.vd (n - 1)) (lane x i.va n))) ∧
    (issues s k 16 i = true → ∃ u, exec (.vmrg k i 0) s = .next (cnt1 (idClerk 8 k) (Fetched k s u)) ∧ Issues k 8 s u ∧ VectorsOnly [i.vd, i.vd + 1] x (clerkOf u k) ∧
      (i.va % 2 = 0 → i.vb % 2 = 0 → i.vd % 2 = 0 → (∀ w ∈ vreg x i.va ++ vreg x i.vb, numIsNan (num32 w) = false) → u.draw = s.draw ∧
        ∀ n, n < 64 → active x i n = true →
          lane (clerkOf u k) i.vd n = (topK 64 [vreg x i.va ++ vreg x (i.va + 1), vreg x i.vb ++ vreg x (i.vb + 1)]).getD n 0 ∧
          lane (clerkOf u k) (i.vd + 1) n = (topK 64 [vreg x i.va ++ vreg x (i.va + 1), vreg x i.vb ++ vreg x (i.vb + 1)]).getD (64 + n) 0)) ∧
    (issues s k 19 i = true → ∃ u, exec (.vpbf k i 0) s = .next (cnt1 (idClerk 8 k) (Fetched k s u)) ∧ Issues k 1 s u ∧ VectorsOnly [i.vd] x (clerkOf u k) ∧
      (i.imm % 4 ≠ 3 → u.draw = s.draw ∧ ∀ n, n < 64 → active x i n = true →
        (lane (clerkOf u k) i.vd n).toNat % 65536 =
          bfOp i.imm 0 ((lane x i.va n).toNat % 65536) ((lane x i.vb n).toNat % 65536) ((lane x i.vc n).toNat % 65536) ∧
        (lane (clerkOf u k) i.vd n).toNat / 65536 =
          bfOp i.imm 0 ((lane x i.va n).toNat / 65536) ((lane x i.vb n).toNat / 65536) ((lane x i.vc n).toNat / 65536)))

/-- Reads of office SRAM (R207, R210, R211, R214): inside the bundle's windows with good parity LD, VACC and VGTH put the converted elements, or the
sums with them, into VD, and VACCC the compensated sum and error (of integers, both are free); each line read is an access of a bank. A line that was bad
once is counted and read again, one that was bad twice sends the bundle back to the head of its home queue with RETRY set; an address outside the
windows stops the bundle, and nothing is written to any SRAM; out of the program nothing happens. -/
def Obligations.SramReads : Prop :=
  (∀ k i, DataParity (.ld k i) k 1 i (fun s => groupBytes (clerkOf s k) i) ∧ DataParity (.vacc k i) k 3 i (fun s => groupBytes (clerkOf s k) i) ∧
    DataParity (.vaccc k i) k 4 i (fun s => groupBytes (clerkOf s k) i) ∧ DataParity (.vgth k i) k 17 i (fun s => indexedBytes (clerkOf s k) i)) ∧
  (∀ k i s b x, x = clerkOf s k → x.bundle = some b → formOk i false = true →
    ((∀ a ∈ groupBytes x i, mayRead b a = true) →
      (issues s k 1 i = true → ∃ u, exec (.ld k i 0) s = .next (cnt1 (idClerk 8 k) (cntAdd (idOffice 6 x.home) (linesOver (groupBytes x i)) (Fetched k s u))) ∧ Issues k 1 s u ∧ Stepped i x (clerkOf u k) ∧ (clerkOf u k).m = x.m ∧
        (∀ r, r ≠ i.vd → vreg (clerkOf u k) r = vreg x r) ∧ Holds i i.vd (fmtKind i) (groupWord s k i) x (clerkOf u k)) ∧
      (issues s k 3 i = true → ∃ u, exec (.vacc k i 0) s = .next (cnt1 (idClerk 8 k) (cntAdd (idOffice 6 x.home) (linesOver (groupBytes x i)) (Fetched k s u))) ∧ Issues k 1 s u ∧ Stepped i x (clerkOf u k) ∧ (clerkOf u k).m = x.m ∧
        (∀ r, r ≠ i.vd → vreg (clerkOf u k) r = vreg x r) ∧ Holds i i.vd (fmtKind i)
          (fun n => if isInt i.fmt then lane x i.vd n + groupWord s k i n else fAdd (lane x i.vd n) (groupWord s k i n)) x (clerkOf u k)) ∧
      (issues s k 4 i = true → i.vd ≠ i.vc →
        ∃ u, exec (.vaccc k i 0) s = .next (cnt1 (idClerk 8 k) (cntAdd (idOffice 6 x.home) (linesOver (groupBytes x i)) (Fetched k s u))) ∧ Issues k 2 s u ∧ Stepped i x (clerkOf u k) ∧ (clerkOf u k).m = x.m ∧
        (∀ r, r ≠ i.vd → r ≠ i.vc → vreg (clerkOf u k) r = vreg x r) ∧
        (isInt i.fmt = true → u.draw = s.draw + 1) ∧
        (isInt i.fmt = false → u.draw = s.draw ∧ Holds i i.vd (fun _ => 1) (fun n => (compensated (lane x i.vd n) (lane x i.vc n) (groupWord s k i n)).1) x (clerkOf u k) ∧
          Holds i i.vc (fun _ => 1) (fun n => (compensated (lane x i.vd n) (lane x i.vc n) (groupWord s k i n)).2) x (clerkOf u k)))) ∧
    ((∀ a ∈ indexedBytes x i, mayRead b a = true) → issues s k 17 i = true →
      ∃ u, exec (.vgth k i 0) s = .next (cnt1 (idClerk 8 k) (cntAdd (idOffice 6 x.home) (linesOver (indexedBytes x i)) (Fetched k s u))) ∧ Issues k 16 s u ∧ Stepped i x (clerkOf u k) ∧ (clerkOf u k).m = x.m ∧
        (∀ r, r ≠ i.vd → vreg (clerkOf u k) r = vreg x r) ∧ Holds i i.vd (fmtKind i)
          (fun n => readElem (clerkSram s k) i.fmt (areg x i.an) (laneIndex x i.va n)) x (clerkOf u k)) ∧
    (∀ a n c, a ∈ groupBytes x i → mayRead b a = false → (c = .ld k i n ∧ issues s k 1 i = true) ∨ (c = .vacc k i n ∧ issues s k 3 i = true) ∨
        (c = .vaccc k i n ∧ issues s k 4 i = true) →
      ∃ t, exec c s = .next t ∧ (clerkOf t k).bundle = none ∧ (clerkOf t k).state = .idle ∧ ∀ o, (officeOf t o).sram = (officeOf s o).sram) ∧
    (∀ a n, a ∈ indexedBytes x i → mayRead b a = false → issues s k 17 i = true →
      ∃ t, exec (.vgth k i n) s = .next t ∧ (clerkOf t k).bundle = none ∧ (clerkOf t k).state = .idle ∧
        ∀ o, (officeOf t o).sram = (officeOf s o).sram))

/-- Writes of office SRAM (R210, R211, R222, R223): ST and VSCT convert each active lane under RND and write it to its element; every byte of the
office's SRAM outside the active lanes' elements, and every other office's, stays; of lanes of a VSCT that name one element the highest wins; FP32 to
FP32 stores the value itself; an address outside the OUT window stops the bundle with no byte written; out of the program nothing happens. -/
def Obligations.SramWrites : Prop :=
  (∀ k i n s, (issues s k 2 i = false → exec (.st k i n) s = .next s) ∧ (issues s k 18 i = false → exec (.vsct k i n) s = .next s)) ∧
  ∀ (k : Nat) (i : ClerkOp) (s : State) (b : Bundle) (x : Clerk) (o : Nat), x = clerkOf s k → o = x.home → x.bundle = some b → formOk i true = true →
    (∀ l, issues s k 2 i = true → l = ((List.range 64).filter (active x i)).flatMap (fun n => elemBytes i.fmt (areg x i.an) (groupIndexOf i n)) →
      ((∀ a ∈ l, mayWrite b a = true) → ∃ t, exec (.st k i 0) s = .next t ∧ (clerkOf t k).pc = x.pc + 1 ∧ (clerkOf t k).issued = x.issued + 1 ∧
        (clerkOf t k).v = x.v ∧ (clerkOf t k).m = x.m ∧ Stepped i x (clerkOf t k) ∧ (∀ a, a ∉ l → mget (officeOf t o).sram a = mget (officeOf s o).sram a) ∧
        (∀ q, q ≠ o → officeOf t q = officeOf s q) ∧
        (∀ n, n < 64 → active x i n = true →
          elemCode (officeOf t o).sram i.fmt (areg x i.an) (groupIndexOf i n) = (laneConv s k i i.va n).code % 2 ^ fmtBits i.fmt)) ∧
      (∀ a, a ∈ l → mayWrite b a = false → ∃ t, exec (.st k i 0) s = .next t ∧ (clerkOf t k).bundle = none ∧ (clerkOf t k).state = .idle ∧
        ∀ q, (officeOf t q).sram = (officeOf s q).sram)) ∧
    (∀ a, issues s k 18 i = true → a ∈ indexedBytes x i → mayWrite b a = false → ∃ t, exec (.vsct k i 0) s = .next t ∧ (clerkOf t k).bundle = none ∧
      (clerkOf t k).state = .idle ∧ ∀ q, (officeOf t q).sram = (officeOf s q).sram) ∧
    (issues s k 18 i = true → (∀ a ∈ indexedBytes x i, mayWrite b a = true) → ∃ t, exec (.vsct k i 0) s = .next t ∧ (clerkOf t k).pc = x.pc + 1 ∧ (clerkOf t k).issued = x.issued + 16 ∧
      (clerkOf t k).v = x.v ∧ (clerkOf t k).m = x.m ∧ Stepped i x (clerkOf t k) ∧
      (∀ a, a ∉ indexedBytes x i → mget (officeOf t o).sram a = mget (officeOf s o).sram a) ∧ (∀ q, q ≠ o → officeOf t q = officeOf s q) ∧
      ∀ n, n < 64 → active x i n = true → (∀ m, m < 64 → active x i m = true → laneIndex x i.va m = laneIndex x i.va n → m ≤ n) →
        elemCode (officeOf t o).sram i.fmt (areg x i.an) (laneIndex x i.va n) = (laneConv s k i i.vb n).code % 2 ^ fmtBits i.fmt) ∧
    (∀ r n, i.fmt = 0 → laneKind x r n ≠ 2 → numIsNan (num32 (lane x r n)) = false → (laneConv s k i r n).code = (lane x r n).toNat)

/-- Address, loop and waiting instructions of R210: NOP does nothing but issue; SETS, ADDA; LOOP opens a loop of Sn runs, or skips the body where Sn is 0
(below 0 the manual states no count: it is free); ENDL goes back or closes, with no issue cycle; PWAIT and DONE wait while jobs are outstanding, the wait
charged to the bundle, and DONE then frees the clerk and counts the bundle. A bundle past its limit of cycles, its descriptor's 8, its instructions' and
its waits' (R215), is stopped and its step aborted. Out of the program, or with a word that fails parity, they do as the others (R213, R214). -/
def Obligations.ClerkControl : Prop :=
  (∀ k i, WordParity (.clerkNop k i ·) k 0 i ∧ WordParity (.sets k i ·) k 20 i ∧ WordParity (.adda k i ·) k 21 i ∧ WordParity (.loop k i ·) k 22 i ∧
    WordParity (.endl k i ·) k 23 i ∧ WordParity (.pwait k i ·) k 25 i ∧ WordParity (.done k i ·) k 26 i) ∧
  ∀ (k : Nat) (i : ClerkOp) (s : State) (x : Clerk), x = clerkOf s k →
    (issues s k 0 i = true → ∃ u, exec (.clerkNop k i 0) s = .next (cnt1 (idClerk 8 k) (Fetched k s u)) ∧ Issues k 1 s u ∧ VectorsOnly [] x (clerkOf u k) ∧
      u.draw = s.draw) ∧
    (issues s k 20 i = true → ∃ u, exec (.sets k i 0) s = .next (cnt1 (idClerk 8 k) (Fetched k s u)) ∧ Issues k 1 s u ∧ (clerkOf u k).v = x.v ∧
      (clerkOf u k).m = x.m ∧ (clerkOf u k).a = x.a ∧ sreg (clerkOf u k) i.an = BitVec.ofInt 32 (immInt i) ∧
      ∀ n, n ≠ i.an → sreg (clerkOf u k) n = sreg x n) ∧
    (issues s k 21 i = true → ∃ u, exec (.adda k i 0) s = .next (cnt1 (idClerk 8 k) (Fetched k s u)) ∧ Issues k 1 s u ∧ (clerkOf u k).v = x.v ∧
      (clerkOf u k).m = x.m ∧ (clerkOf u k).s = x.s ∧ Stepped { i with inc := true } x (clerkOf u k)) ∧
    (issues s k 22 i = true →
      (0 < (sreg x i.an).toInt → ∃ u, exec (.loop k i 0) s = .next (cnt1 (idClerk 8 k) (Fetched k s u)) ∧ Issues k 1 s u ∧
        (clerkOf u k).loops = (x.pc + 1, (sreg x i.an).toInt.toNat) :: x.loops ∧ (clerkOf u k).v = x.v ∧ (clerkOf u k).s = x.s ∧ (clerkOf u k).a = x.a) ∧
      (∀ b n, (sreg x i.an).toInt = 0 → x.bundle = some b → afterEndl ((codeAt s b.prog).drop (x.pc + 1)) (x.pc + 1) 0 = some n →
        ∃ t, exec (.loop k i 0) s = .next t ∧ (clerkOf t k).pc = n ∧ (clerkOf t k).loops = x.loops ∧ (clerkOf t k).issued = x.issued + 1) ∧
      ((sreg x i.an).toInt < 0 → ∃ t, exec (.loop k i 0) s = .next t ∧ (clerkOf t k).issued = x.issued + 1 ∧ t.draw = s.draw + 1)) ∧
    (issues s k 23 i = true →
      (x.loops = [] → exec (.endl k i 0) s = .next (setClerk (Fetched k s s) k { x with pc := x.pc + 1 })) ∧
      ∀ start left rest, x.loops = (start, left) :: rest →
        (1 < left → exec (.endl k i 0) s = .next (setClerk (Fetched k s s) k { x with pc := start, loops := (start, left - 1) :: rest })) ∧
        (left ≤ 1 → exec (.endl k i 0) s = .next (setClerk (Fetched k s s) k { x with pc := x.pc + 1, loops := rest }))) ∧
    (issues s k 25 i = true → x.outstanding = 0 →
      ∃ u, exec (.pwait k i 0) s = .next (cnt1 (idClerk 8 k) (Fetched k s u)) ∧ Issues k 1 s u ∧ VectorsOnly [] x (clerkOf u k) ∧ u.draw = s.draw) ∧
    (∀ c, (c = .pwait k i 0 ∧ issues s k 25 i = true) ∨ (c = .done k i 0 ∧ issues s k 26 i = true) → 0 < x.outstanding →
      exec c s = .next (setClerk (Fetched k s s) k { x with waiting := true, waitSince := some (x.waitSince.getD s.mer.ns) })) ∧
    (∀ b, issues s k 26 i = true → x.outstanding = 0 → x.bundle = some b → entryOf s b.group = none →
      ∃ t, exec (.done k i 0) s = .next t ∧ (clerkOf t k).state = .idle ∧ (clerkOf t k).bundle = none ∧ (clerkOf t k).queue = x.queue ∧
        t.groups = s.groups ∧ t.offices = s.offices) ∧
    (∀ b e g r p ph, issues s k 26 i = true → x.outstanding = 0 → x.bundle = some b → entryOf s b.group = some e → g = groupOf s e → g.record = some r →
      g.step = b.step → g.launched = true → g.endDue = false → g.phase = b.phase → phaseOf s g r = some (p, ph) → g.bundlesDone + 1 < ph.bundles →
      ∃ t, exec (.done k i 0) s = .next t ∧ (clerkOf t k).state = .idle ∧ (clerkOf t k).bundle = none ∧
        groupOf t e = { g with bundlesDone := g.bundlesDone + 1 }) ∧
    (clerkRuns s k = false ∨ bundleCycles s k ≤ (tget {} s.bank.off x.home).bundleLimit * 4096 → exec (.bundleLimit k) s = .next s) ∧
    (∀ b, clerkRuns s k = true → x.bundle = some b → (tget {} s.bank.off x.home).bundleLimit * 4096 < bundleCycles s k →
      ∃ t, exec (.bundleLimit k) s = .next t ∧ (clerkOf t k).state = .idle ∧ (clerkOf t k).bundle = none ∧
        (entryOf s b.group = none → t.groups = s.groups) ∧
        ∀ e r, entryOf s b.group = some e → (groupOf s e).record = some r → (groupOf s e).step = b.step → (groupOf s e).launched = true →
          (groupOf s e).endDue = false → (groupOf t e).status = .incomplete ∧ (groupOf t e).cause = 4 ∧ (groupOf t e).withheld = true ∧
          (groupOf t e).endDue = true)

/-! ### Offices, presses and groups (08, 09) -/

/-- The sequencer places the next descriptor of the group whose turn it is in the next queue with room (R212, R213, R216); an idle clerk takes the head
of its own queue, its registers set as R208 and R212 say (a descriptor bad twice goes back with RETRY set); a clerk with an empty queue takes the tail of
the office's longest queue, unless the owner reaches it in the same cycle, or after 64 empty cycles one of an office of its hemisphere that R217 lets it
choose. Where there is nothing to place, take or steal, nothing happens. -/
def Obligations.BundlesPlaced : Prop :=
  (∀ s o e left c g r p ph, officeTakes s o = true → s.tray.pull = 0 → turnOf s o = some (e, left) → queueWithRoom s o = some c → g = groupOf s e →
    g.record = some r → phaseOf s g r = some (p, ph) →
    ∃ t d, exec (.sequencerPlace o) s = .next t ∧ (clerkOf t (32 * o + c)) = { clerkOf s (32 * o + c) with queue := (clerkOf s (32 * o + c)).queue ++ [d] } ∧
      d.group = r.group ∧ d.step = g.step ∧ d.index = g.bundlesIssued ∧ d.entry = ph.entry ∧ d.retry = false ∧ d.phase = g.phase ∧
      d.inBase = (g.inBase + ph.inOff + g.bundlesIssued * ph.inStride) % 2 ^ 25 ∧ d.inSize = ph.inSize ∧
      d.outBase = (g.outBase + ph.outOff + g.bundlesIssued * ph.outStride) % 2 ^ 25 ∧ d.outSize = ph.outSize ∧
      d.s0 = ph.s0 ∧ d.s1 = ph.s1 ∧ d.s2 = ph.s2 ∧ d.s3 = ph.s3 ∧ d.noRemote = routineHasPress p ph.entry ∧
      groupOf t e = { g with bundlesIssued := g.bundlesIssued + 1 } ∧ (∀ k, k ≠ 32 * o + c → clerkOf t k = clerkOf s k) ∧
      (∀ f, f ≠ e → groupOf t f = groupOf s f) ∧ (officeOf t o).lastQueue = c ∧ (officeOf t o).sram = (officeOf s o).sram ∧
      Reports { s with clerks := t.clerks, groups := t.groups, offices := t.offices } t) ∧
  (∀ s o, officeTakes s o = false ∨ 0 < s.tray.pull ∨ turnOf s o = none ∨ queueWithRoom s o = none → exec (.sequencerPlace o) s = .next s) ∧
  (∀ s k b rest, clerkIdle s k = true → (clerkOf s k).queue = b :: rest →
    (∀ n, n ≤ 1 → ∃ t, exec (.bundleTake k n) s = .next t ∧ (clerkOf t k).queue = rest ∧ (clerkOf t k).bundle = some b ∧ (clerkOf t k).state = .own ∧
      (clerkOf t k).home = k / 32 ∧ (clerkOf t k).pc = b.entry ∧ (clerkOf t k).issued = 0 ∧ (clerkOf t k).outstanding = 0 ∧
      (∀ r n, lane (clerkOf t k) r n = 0) ∧ (∀ j, mreg (clerkOf t k) j = BitVec.allOnes 64) ∧
      areg (clerkOf t k) 0 = b.inBase ∧ areg (clerkOf t k) 1 = b.outBase ∧ areg (clerkOf t k) 2 = b.constBase ∧ (∀ j, 3 ≤ j → areg (clerkOf t k) j = 0) ∧
      sreg (clerkOf t k) 0 = b.s0 ∧ sreg (clerkOf t k) 1 = b.s1 ∧ sreg (clerkOf t k) 2 = b.s2 ∧ sreg (clerkOf t k) 3 = b.s3 ∧
      (∀ j, 4 ≤ j → sreg (clerkOf t k) j = 0) ∧ (clerkOf t k).loops = [] ∧ (clerkOf t k).draws = [] ∧ (∀ j, j ≠ k → clerkOf t j = clerkOf s j) ∧
      t.groups = s.groups) ∧
    (∀ n, 2 ≤ n → b.retry = false → b.home = k → ∃ t, exec (.bundleTake k n) s = .next t ∧ (clerkOf t k).bundle = none ∧ (clerkOf t k).state = .idle ∧
      (clerkOf t k).queue = { b with retry := true } :: rest ∧ (∀ j, j ≠ k → clerkOf t j = clerkOf s j) ∧ t.groups = s.groups)) ∧
  (∀ s k n, clerkIdle s k = false ∨ (clerkOf s k).queue = [] → exec (.bundleTake k n) s = .next s) ∧
  (∀ s k j b m n, clerkIdle s k = true → (clerkOf s k).queue = [] → (tget {} s.bank.off (k / 32)).stealScope ≠ 0 → longestQueue s (k / 32) (k % 32) = some j →
    (clerkOf s j).queue.getLast? = some b →
    (m = false ∨ ownerWins s j = false → 2 ≤ n → b.retry = false → b.home = j → ∃ t, exec (.bundleSteal k m n) s = .next t ∧ (clerkOf t k).bundle = none ∧
      (clerkOf t k).state = .idle ∧ (clerkOf t j).queue = { b with retry := true } :: (clerkOf s j).queue.dropLast ∧ t.groups = s.groups) ∧
    (m = false ∨ ownerWins s j = false → n ≤ 1 → ∃ t, exec (.bundleSteal k m n) s = .next t ∧ (clerkOf t k).bundle = some b ∧ (clerkOf t k).state = .own ∧
      (clerkOf t k).home = k / 32 ∧ (clerkOf t k).pc = b.entry ∧ clerkOf t j = { clerkOf s j with queue := (clerkOf s j).queue.dropLast } ∧
      ∀ i, i ≠ k → i ≠ j → clerkOf t i = clerkOf s i) ∧
    (m = true → ownerWins s j = true → exec (.bundleSteal k m n) s = .next (cnt1 (idOffice 5 (k / 32)) s))) ∧
  (∀ s k m n, n ≤ 1 → clerkIdle s k = true → (clerkOf s k).queue = [] → (tget {} s.bank.off (k / 32)).stealScope = 2 → longestQueue s (k / 32) (k % 32) = none →
    officeStarved s (k / 32) = true → remoteVictims s (k / 32) ≠ [] →
    ∃ t v j b, exec (.bundleSteal k m n) s = .next t ∧ v ∈ remoteVictims s (k / 32) ∧ longestQueue s v 31 = some j ∧ (clerkOf s j).queue.getLast? = some b ∧
      b.noRemote = false ∧ (clerkOf t k).bundle = some b ∧ (clerkOf t k).state = .foreign ∧ (clerkOf t k).home = v ∧
      clerkOf t j = { clerkOf s j with queue := (clerkOf s j).queue.dropLast }) ∧
  (∀ s k m n, clerkIdle s k = false ∨ (clerkOf s k).queue ≠ [] ∨ (tget {} s.bank.off (k / 32)).stealScope = 0 ∨
    (longestQueue s (k / 32) (k % 32) = none ∧ ((tget {} s.bank.off (k / 32)).stealScope ≠ 2 ∨ officeStarved s (k / 32) = false ∨
      remoteVictims s (k / 32) = [])) → exec (.bundleSteal k m n) s = .next s)

/-- The presses (R227, R229): an idle press starts the job at the head of its queue in the job's mode, and in no other; it does DUMMY work while its queue
is empty and the smoother asks for fill; PRESS puts a good job at the queue's tail, waits while 4 of the clerk's are outstanding or the queue is full, and
stops its bundle where the job is not good; a finished job's output lies in its output range, nothing else of any SRAM changes, its clerk has one
fewer outstanding, and the next job starts. A job's data bad once is read again; bad twice it stops the bundle (R214). -/
def Obligations.PressJobs : Prop :=
  (∀ s o j rest, (officeOf s o).running = none → (officeOf s o).jobs = j :: rest →
    ∀ c m, (c = .pressGemm8 o ∧ m = 0) ∨ (c = .pressGemm16 o ∧ m = 1) ∨ (c = .pressFold o ∧ m = 2) ∨ (c = .pressUnfold o ∧ m = 3) ∨
        (c = .pressQuant o ∧ m = 4) ∨ (∃ n, c = .pressDummy o n ∧ m = 5) →
      (s.pow.ladder = 0 → j.mode = m → ∃ t, exec c s = .next t ∧ Reports { s with offices := t.offices } t ∧ (∀ q, q ≠ o → officeOf t q = officeOf s q) ∧
        officeOf t o = { officeOf s o with running := some j, jobs := rest, dummyUntil := 0 }) ∧
      (s.pow.ladder ≠ 0 ∨ j.mode ≠ m → exec c s = .next s)) ∧
  (∀ s o c, c = .pressGemm8 o ∨ c = .pressGemm16 o ∨ c = .pressFold o ∨ c = .pressUnfold o ∨ c = .pressQuant o →
    (officeOf s o).running ≠ none ∨ (officeOf s o).jobs = [] → exec c s = .next s) ∧
  (∀ s o n, (officeOf s o).jobs = [] →
    (s.pow.ladder = 0 → (officeOf s o).running = none → s.pow.fillW ≠ 0 → ∃ t, exec (.pressDummy o n) s = .next t ∧
      officeOf t o = { officeOf s o with dummyUntil := s.mer.ns + (n * 16 + 24) / 25 } ∧ (∀ q, q ≠ o → officeOf t q = officeOf s q) ∧
      Reports { s with offices := t.offices } t) ∧
    (s.pow.ladder ≠ 0 ∨ (officeOf s o).running ≠ none ∨ s.pow.fillW = 0 → exec (.pressDummy o n) s = .next s)) ∧
  (∀ k i n s, issues s k 24 i = false → exec (.press k i n) s = .next s) ∧
  (∀ k i s b x l j, issues s k 24 i = true → x = clerkOf s k → x.bundle = some b → x.outstanding < 4 → (officeOf s x.home).jobs.length < 32 →
    (∀ n, n < 64 → mayRead b (areg x i.an + n) = true) → l = mread (clerkSram s k) (areg x i.an) 64 → j = jobOf l k b →
    (jobFieldsOk l j = true → jobAddrOk j = true → ∃ t, exec (.press k i 0) s = .next t ∧ (officeOf t x.home).jobs = (officeOf s x.home).jobs ++ [j] ∧
      (clerkOf t k).outstanding = x.outstanding + 1 ∧ (clerkOf t k).pc = x.pc + 1 ∧ Stepped i x (clerkOf t k) ∧ (clerkOf t k).v = x.v ∧
      ∀ o, (officeOf t o).sram = (officeOf s o).sram) ∧
    ((jobFieldsOk l j && jobAddrOk j) = false → ∃ t, exec (.press k i 0) s = .next t ∧ (clerkOf t k).bundle = none ∧ ∀ o, (officeOf t o).sram = (officeOf s o).sram)) ∧
  (∀ k i n s, issues s k 24 i = true → 4 ≤ (clerkOf s k).outstanding ∨ 32 ≤ (officeOf s (clerkOf s k).home).jobs.length →
    exec (.press k i n) s = .next (setClerk (Fetched k s s) k { clerkOf s k with waiting := true })) ∧
  (∀ s o n, (officeOf s o).running = none → exec (.pressJobDone o n) s = .next s) ∧
  (∀ s o j, (officeOf s o).running = some j → j.mode ≠ 5 →
    (∃ t u, exec (.pressJobDone o 1) s = .next t ∧ exec (.pressJobDone o 0) (cnt1 (idOffice 2 o) s) = .next u ∧ Reports u t) ∧
    ∀ n, 2 ≤ n → (clerkOf s j.clerk).bundle = some j.bundle → j.bundle.retry = false →
      ∃ t, exec (.pressJobDone o n) s = .next t ∧ (clerkOf t j.clerk).bundle = none ∧
        (clerkOf t j.bundle.home).queue = { j.bundle with retry := true } :: (clerkOf s j.bundle.home).queue ∧ t.groups = s.groups) ∧
  (∀ s o j, (officeOf s o).running = some j → (j.mode = 4 → isMx j.fmtOut = true) → (j.mode ≠ 4 → isMx j.fmtOut = false) → j.mode ≤ 5 →
    ∃ t, exec (.pressJobDone o 0) s = .next t ∧ (officeOf t o).running = (officeOf s o).jobs.head? ∧ (officeOf t o).jobs = (officeOf s o).jobs.tail ∧
      (∀ a, j.mode = 5 ∨ a < j.cAddr ∨ j.cAddr + (jobWrites j).2 ≤ a → mget (officeOf t o).sram a = mget (officeOf s o).sram a) ∧
      (∀ q, q ≠ o → officeOf t q = officeOf s q) ∧
      ((clerkOf s j.clerk).bundle = some j.bundle → clerkOf t j.clerk = { clerkOf s j.clerk with outstanding := (clerkOf s j.clerk).outstanding - 1 }) ∧
      ((clerkOf s j.clerk).bundle ≠ some j.bundle → clerkOf t j.clerk = clerkOf s j.clerk) ∧ ∀ k, k ≠ j.clerk → clerkOf t k = clerkOf s k)

/-- A group's steps (R252, R261, R262, R334): a launch makes the next step current with the members' pending entries; a wait that has lasted STEP_TIMEOUT
Rounds ends the step MEMBER_MISSING, or under the partial policy lets it go on INCOMPLETE; a step whose letters have left ends; a member's close
commits alone at a boundary, frees the entry, leaves the staged items and renews the ledger's state slots (R357). Before its condition holds, none of the four does anything. -/
def Obligations.GroupSteps : Prop :=
  (∀ s e, mayLaunch s (groupOf s e) = true →
    ∃ t, exec (.stepLaunch e) s = .next t ∧ (groupOf t e).launched = true ∧ (groupOf t e).began = true ∧ (groupOf t e).launchRound = roundNo s ∧
      (groupOf t e).step = (if (groupOf s e).began then ((groupOf s e).step + 1) % 65536 else 0) ∧ (groupOf t e).pendingMembers = [] ∧
      (groupOf t e).members = (groupOf s e).members.map (fun m => (((groupOf s e).pendingMembers.find? fun x => x.1 = m.1).getD m)) ∧
      (groupOf t e).record = (groupOf s e).record ∧ t.pow = s.pow ∧ t.mer = s.mer) ∧
  (∀ s e, mayLaunch s (groupOf s e) = false → exec (.stepLaunch e) s = .next s) ∧
  (∀ s e, (groupOf s e).record = none ∨ expired s e = none → exec (.stepTimeout e) s = .next s) ∧
  (∀ s e, (groupOf s e).launched = false ∨ (groupOf s e).endDue = false ∨ ((groupOf s e).withheld = false ∧ groupSends s e = true) →
    exec (.stepEnd e) s = .next s) ∧
  (∀ s n, entryOf s n = none ∨ (∃ e, entryOf s n = some e ∧ ((groupOf s e).state ≠ .closing ∨ (n, true) ∉ s.staging.closes ∨
    groupDrained s e = false)) ∨ s.mer.cycle ≠ 0 → exec (.memberCloseCommit n) s = .next s) ∧
  (∀ s e r, (groupOf s e).record = some r → expired s e = some none →
    ∃ t, exec (.stepTimeout e) s = .next t ∧ (groupOf t e).missing = (groupOf s e).missing + (absentMembers s (groupOf s e) r).length ∧
      (groupOf t e).inRackDone = true ∧ (groupOf t e).cause = 1 ∧
      (r.partialPolicy = false ∨ opCode r = 4 → (groupOf t e).status = .memberMissing ∧ (groupOf t e).withheld = true ∧ (groupOf t e).endDue = true) ∧
      (r.partialPolicy = true → opCode r ≠ 4 → (groupOf t e).status = .incomplete ∧ (groupOf t e).withheld = (groupOf s e).withheld)) ∧
  (∀ s e r a back, (groupOf s e).record = some r → expired s e = some (some (a, back)) →
    ∃ t, exec (.stepTimeout e) s = .next t ∧ (groupOf t e).cause = 1 ∧ (groupOf t e).missing = (groupOf s e).missing + 1 ∧
      (r.partialPolicy = false ∨ opCode r = 4 → (groupOf t e).status = .memberMissing ∧ (groupOf t e).withheld = true ∧ (groupOf t e).endDue = true) ∧
      (r.partialPolicy = true → opCode r ≠ 4 → (groupOf t e).status = .incomplete ∧ (groupOf t e).withheld = (groupOf s e).withheld)) ∧
  (∀ s e, (groupOf s e).launched = true → (groupOf s e).endDue = true → (groupOf s e).withheld = true ∨ groupSends s e = false →
    ∃ t, exec (.stepEnd e) s = .next t ∧ (∀ f, f ≠ e → groupOf t f = groupOf s f) ∧
      groupOf t e = { groupOf s e with launched := false, progress := false, level := 0, endDue := false, lateReport := (groupOf t e).lateReport } ∧
      Reports { s with groups := t.groups } t) ∧
  (∀ s n e, entryOf s n = some e → (groupOf s e).state = .closing → (n, true) ∈ s.staging.closes → groupDrained s e = true → s.mer.cycle = 0 →
    ∃ t, exec (.memberCloseCommit n) s = .next t ∧ groupOf t e = {} ∧ (∀ f, f ≠ e → groupOf t f = groupOf s f) ∧
      t.staging.closes = s.staging.closes.filter (fun x => x.1 ≠ n) ∧ t.staging.items = s.staging.items - 1 ∧
      (∀ k, ledgerSlot t k = ledgerSlot (recomputeLedger t) k) ∧ (∀ x ∈ t.sw.officeRoutes, x.2.1 ≠ groupNumber (groupOf s e)) ∧
      t.bank = removeSlots (groupNumber (groupOf s e)) s.bank)

/-! ### Host port and memory (10) -/

/-- The CXL port (R267, R269, R270, R275, R277, R383): PERST, training, which a port that RESET_UNIT holds does not start, and the loss of the link; writes of the host window reach the doorbell page and the
boxes, one to any other page is ignored, and any other size is dropped and counted; a request that completes clears its window's failures, one that fails
or lasts 1 ms counts one, and 16 in a row disable the window. What finds no reset, no training, no link or no request changes nothing. -/
def Obligations.CxlPort : Prop :=
  (∀ s, ∃ t, exec .cxlPerstAssert s = .next t ∧ t.cxl.perst = true ∧ t.cxl.training = false ∧ t.cxl.pageHeld = true ∧ t.cxl.mode = 0 ∧
    (s.cxl.mode ≠ 0 → t.cxl.uio = [] ∧ ∀ w, w < 4 → (windowOf t w).disabledLink = true) ∧ t.gmi.boxes = s.gmi.boxes ∧ t.links = s.links) ∧
  (∀ s, s.cxl.perst = false → exec .cxlPerstDeassert s = .next s) ∧
  (∀ s m, s.cxl.perst = true ∨ s.cxl.unitHeld = true ∨ s.cxl.training = false → exec (.cxlLinkUp m) s = .next s) ∧
  (∀ s m, s.cxl.perst = false → s.cxl.unitHeld = false → s.cxl.training = true → m = 0 ∨ 4 < m →
    exec (.cxlLinkUp m) s = .next { s with cxl := { s.cxl with training := false } }) ∧
  (∀ s, s.cxl.mode = 0 → exec .cxlLinkDown s = .next s) ∧
  (∀ s off data, cxlUp s = false ∨ ((data.length = 4 ∨ data.length = 8) ∧ off % data.length = 0 ∧ (off < 0x2000 ∨ 0x7000 ≤ off)) →
    exec (.hostWindowWrite off data) s = .next s) ∧
  (∀ s q e, tfind s.cxl.uio q = none → exec (.uioCompletion q e) s = .next s ∧ exec (.uioTimeout q) s = .next s) ∧
  (∀ s q u, tfind s.cxl.uio q = some u → s.mer.ns < u.startNs + 1000000 → exec (.uioTimeout q) s = .next s) ∧
  (∀ s, s.cxl.perst = true → exec .cxlPerstDeassert s = .next { s with cxl := { s.cxl with perst := false, training := !s.cxl.unitHeld } }) ∧
  (∀ s m, s.cxl.perst = false → s.cxl.unitHeld = false → s.cxl.training = true → 1 ≤ m → m ≤ 4 →
    ∃ t, exec (.cxlLinkUp m) s = .next t ∧ t.cxl.mode = m ∧ t.cxl.training = false ∧ t.cxl.pageHeld = false ∧ t.cxl.perst = false ∧
      (∀ w, w < 4 → (windowOf t w).disabledLink = false) ∧
      (1 < m → s.tray.start ≠ .keep → s.tray.start ≠ .charging → (0x0108, roundNo s) ∈ t.gmi.alerts)) ∧
  (∀ s, s.cxl.mode ≠ 0 → ∃ t, exec .cxlLinkDown s = .next t ∧ t.cxl.mode = 0 ∧ t.cxl.training = !(s.cxl.perst || s.cxl.unitHeld) ∧ t.cxl.uio = [] ∧
    ∀ w, w < 4 → (windowOf t w).disabledLink = true) ∧
  (∀ s data, cxlUp s = true → data.length = 4 →
    exec (.hostWindowWrite 0x6020 data) s = .next { s with cxl := { s.cxl with eventConsume := leNat data } } ∧
    exec (.hostWindowWrite 0x6028 data) s = .next { s with cxl := { s.cxl with teleConsume := leNat data } }) ∧
  (∀ s b k data, cxlUp s = true → data.length = 8 → b < 4 → 0x40 ≤ k → k % 8 = 0 → k < 4096 → (boxOf s b).hbState ≠ 1 → (boxOf s b).hbState ≠ 2 →
    ∃ t, exec (.hostWindowWrite (0x2000 + 4096 * b + k) data) s = .next t ∧
      boxOf t b = { boxOf s b with buffer := overlay (boxOf s b).buffer (k - 0x40) data } ∧ (∀ c, c ≠ b → boxOf t c = boxOf s c) ∧
      t = { s with gmi := { s.gmi with boxes := t.gmi.boxes } }) ∧
  (∀ s off data, cxlUp s = true → (data.length ≠ 4 ∧ data.length ≠ 8) ∨ off % data.length ≠ 0 → exec (.hostWindowWrite off data) s = .next (cnt1 8 s)) ∧
  (∀ s q u, tfind s.cxl.uio q = some u →
    (∃ t, exec (.uioCompletion q false) s = .next t ∧ (windowOf t u.window).fails = 0 ∧
      ∀ r v, tfind t.cxl.uio r = some v → v.startNs = s.mer.ns ∨ (r ≠ q ∧ tfind s.cxl.uio r = some v)) ∧
    (∃ t, exec (.uioCompletion q true) s = .next t ∧ (windowOf t u.window).fails = (windowOf s u.window).fails + 1 ∧
      (15 ≤ (windowOf s u.window).fails → (windowOf t u.window).disabledTimeout = true)) ∧
    (u.startNs + 1000000 ≤ s.mer.ns → ∃ t, exec (.uioTimeout q) s = .next t ∧ (windowOf t u.window).fails = (windowOf s u.window).fails + 1 ∧
      (15 ≤ (windowOf s u.window).fails → (windowOf t u.window).disabledTimeout = true) ∧
      ∀ r v, tfind t.cxl.uio r = some v → v.startNs = s.mer.ns ∨ (r ≠ q ∧ tfind s.cxl.uio r = some v)))

/-- The capture ring (R278, R429, R430): a unit left unfilled for a Round is completed with a PAD; the published index passes the leading records that are
done and the header is rewritten; an ADC capture claims its lane, each burst enters the queue as a record of 65,536 samples or waits for room, and one
that waits 4 Rounds is dropped. Before its time each of these changes nothing, and ADC_CAP refuses in ST2 or lower and on an ADC or a lane in use. -/
def Obligations.CaptureRing : Prop :=
  (∀ s r, s.capture.partialSince = some r → r + 1 ≤ roundNo s →
    ∃ t x, exec .capturePad s = .next t ∧ x ∈ t.capture.records ∧ x.kind = 0 ∧ x.at_ = s.capture.place ∧ x.len = max 8 (256 - s.capture.place % 256)) ∧
  (∀ s r, (s.capture.records.takeWhile (recordDone s)).getLast? = some r →
    ∃ t, exec .capturePublish s = .next t ∧ t.capture.published = r.at_ + r.len ∧
      t.capture.records = s.capture.records.drop (s.capture.records.takeWhile (recordDone s)).length ∧ t.capture.header = ringHeader t ∧
      (ringTier s = none → mread (memOf t s.bank.regs.captureHalf).mem ringBase 64 = ringHeader t ∧
        ∀ a, a < ringBase ∨ ringBase + 64 ≤ a → mget (memOf t s.bank.regs.captureHalf).mem a = mget (memOf s s.bank.regs.captureHalf).mem a)) ∧
  (∀ c s g n, Runs c 0x801 s → s.pow.ladder < 2 →
    (s.capture.adcBusy = false → (laneOf s g).claim = .none → ∃ u, exec (.adcCapStart c g n) s = .next (complete c 0x801 (okAns u)) ∧
      laneOf u g = { laneOf s g with claim := .capture, claimResult := none } ∧ (∀ h, h ≠ g → laneOf u h = laneOf s h) ∧
      u = { s with lanes := u.lanes, capture := { s.capture with
        adcLane := g, adcBursts := n, adcBusy := true, adcLeft := n + 1, adcDone := 0, adcSince := s.mer.ns, adcWait := none } }) ∧
    (s.capture.adcBusy = false → (laneOf s g).claim ≠ .none → exec (.adcCapStart c g n) s = .next (complete c 0x801 (adcBusy g s))) ∧
    (s.capture.adcBusy = true → exec (.adcCapStart c g n) s = .next (complete c 0x801 (busy 4 s.capture.adcLane s)))) ∧
  (∀ c s g n, Runs c 0x801 s → 2 ≤ s.pow.ladder → exec (.adcCapStart c g n) s = .next (complete c 0x801 (refuse .notReady s))) ∧
  (∀ s, s.capture.partialSince = none ∨ (∃ r, s.capture.partialSince = some r ∧ roundNo s < r + 1) → exec .capturePad s = .next s) ∧
  (∀ s, s.capture.records.takeWhile (recordDone s) = [] → exec .capturePublish s = .next s) ∧
  (∀ s l, s.capture.adcBusy = false ∨ s.capture.adcWait ≠ none → exec (.adcBurstDone l) s = .next s) ∧
  (∀ s, s.capture.adcWait = none ∨ (∃ r l, s.capture.adcWait = some (r, l) ∧ roundNo s < r + 4) → exec .adcBurstDrop s = .next s) ∧
  (∀ s l, s.capture.adcBusy = true → s.capture.adcWait = none →
    (65600 ≤ captureFree s → ∃ t x, exec (.adcBurstDone l) s = .next t ∧ x ∈ t.capture.records ∧ x.kind = 2 ∧ x.seq = s.capture.seq ∧ x.len = 65600 ∧
      t.capture.adcDone = min 255 (s.capture.adcDone + 1) ∧ t.capture.adcLeft = s.capture.adcLeft - 1 ∧ t.capture.written = s.capture.written + 1 ∧
      t.capture.adcBusy = decide (1 < s.capture.adcLeft)) ∧
    (captureFree s < 65600 → exec (.adcBurstDone l) s = .next { s with capture := { s.capture with adcWait := some (roundNo s, l) } })) ∧
  (∀ s r l, s.capture.adcWait = some (r, l) → r + 4 ≤ roundNo s →
    ∃ t, exec .adcBurstDrop s = .next t ∧ t.capture.dropped = s.capture.dropped + 1 ∧ t.capture.adcWait = none ∧
      t.capture.adcLeft = s.capture.adcLeft - 1 ∧ t.capture.records = s.capture.records)

/-- The GDDR7 halves (R281 to R283, R285): a half that serves its waiting requests leaves those of a class as they are while one of a higher class still
waits, and writes nothing for capture while any of them waits; a line that fails parity once is counted and read again at protection class; one that fails again has its user's outcome: a spilled
letter is given up, a mailbag's step is aborted, a capture record is marked bad, a diagnostic read is flagged; MEM_TEST claims a range of the diagnostic
scratch that no claim overlaps or, in ST1 or standing orders, a whole half that nothing uses, and refuses otherwise; its end returns the claim; MEM_READ
answers the bytes and the parity flag, which it clears, waits as a request of diagnostics class, or of capture class in the ring, and refuses a range outside ring and scratch. -/
def Obligations.MemoryHalves : Prop :=
  (∀ share f n m c, (∃ r ∈ (serveBytes share f n m).waiting, r.cls < c) →
    (serveBytes share f n m).waiting.filter (fun r => c ≤ r.cls) = m.waiting.filter (fun r => c ≤ r.cls)) ∧
  (∀ s, ringTier s = none → (∃ r ∈ (memOf s s.bank.regs.captureHalf).waiting, r.cls < 3) → writeUnit s = none) ∧
  (∀ s h u, ∃ t, exec (.gddr7ParityFail h u false) s = .next (cnt1 (idHem 9 h) t) ∧ t = { s with mem := t.mem } ∧
    memOf t h = { memOf s h with waiting := (memOf s h).waiting ++ [⟨0, 0, 256⟩] } ∧ (∀ g, g ≠ h → memOf t g = memOf s g)) ∧
  (∀ s h, ∃ t, exec (.gddr7ParityFail h .diagnosticsRead true) s = .next t ∧
    memOf t h = { memOf s h with diagParity := true, waiting := (memOf s h).waiting ++ [⟨0, 0, 256⟩] } ∧
    (∀ g, g ≠ h → memOf t g = memOf s g) ∧ Reports { s with mem := t.mem } t) ∧
  (∀ s h g e r, entryOf s g = some e → (groupOf s e).record = some r → (groupOf s e).launched = true → (groupOf s e).endDue = false →
    ∃ t, exec (.gddr7ParityFail h (.mailbagSpill g) true) s = .next t ∧ (groupOf t e).status = .incomplete ∧ (groupOf t e).cause = 3 ∧
      (groupOf t e).withheld = true ∧ (groupOf t e).endDue = true) ∧
  (∀ s h n key y x, (spilledAt s h)[n]? = some (key, y) → streamOf s h key = some x →
    ∃ t, exec (.gddr7ParityFail h (.letterSpill n) true) s = .next t ∧
      streamOf t h key = some { x with held := x.held.erase y, aside := x.aside.erase y } ∧ t.sw = s.sw) ∧
  (∀ s h n r, s.capture.records.find? (fun r => r.kind ≠ 0 && r.seq = n) = some r → ∃ t, exec (.gddr7ParityFail h (.captureRing n) true) s = .next t ∧
    ∃ x ∈ t.capture.records, x.at_ = r.at_ ∧ x.bad = true) ∧
  (∀ c s h w lo n, 2 ≤ h → Runs c 0x805 s → exec (.memTest c h w lo n) s = .next (complete c 0x805 (badArg 0 s))) ∧
  (∀ c s h lo n, h ≤ 1 → Runs c 0x805 s → lo < scratchBase s h ∨ scratchBase s h + gib ≤ lo →
    exec (.memTest c h false lo n) s = .next (complete c 0x805 (badArg 2 s))) ∧
  (∀ c s h lo n, h ≤ 1 → Runs c 0x805 s → (memOf s h).state = 1 → scratchBase s h ≤ lo → 1 ≤ n → lo + n ≤ scratchBase s h + gib →
    (∃ m ∈ (memOf s h).claims, m.whole = true ∨ (lo < m.lo + m.len ∧ m.lo < lo + n)) →
    exec (.memTest c h false lo n) s = .next (complete c 0x805 (busy 10 h s))) ∧
  (∀ c s h off n, Runs c 0x806 s → h ≤ 1 → off < ringBase ∨ scratchBase s h + gib < off + n →
    exec (.memRead c h off n) s = .next (complete c 0x806 (badArg 1 s))) ∧
  (∀ c s h lo n, h ≤ 1 → Runs c 0x805 s → (memOf s h).state = 1 →
    (scratchBase s h ≤ lo → 1 ≤ n → lo + n ≤ scratchBase s h + gib → (∀ m ∈ (memOf s h).claims, m.whole = false ∧ (lo + n ≤ m.lo ∨ m.lo + m.len ≤ lo)) →
      ∃ u, exec (.memTest c h false lo n) s = .next (complete c 0x805 (okAns u)) ∧
        memOf u h = { memOf s h with
          claims := (memOf s h).claims ++ [{ whole := false, lo := lo, len := n }], waiting := (memOf s h).waiting ++ [⟨2, 0, n⟩] } ∧ u = { s with mem := u.mem }) ∧
    (s.pm.standing = true ∨ s.pow.ladder = 1 → halfUser s h = none → (memOf s h).claims = [] →
      ∃ u, exec (.memTest c h true lo n) s = .next (complete c 0x805 (okAns u)) ∧
        memOf u h = { memOf s h with claims := [{ whole := true, lo := 0, len := 0 }] } ∧ u = { s with mem := u.mem }) ∧
    (s.pm.standing = false → s.pow.ladder ≠ 1 → exec (.memTest c h true lo n) s = .next (complete c 0x805 (refuse .notReady s)))) ∧
  (∀ s h w lo, ∃ t, exec (.memTestEnd h w lo) s = .next t ∧ ∀ m, m ∈ (memOf t h).claims ↔ m ∈ (memOf s h).claims ∧ (m.whole ≠ w ∨ (w = false ∧ m.lo ≠ lo))) ∧
  (∀ c s h off n, h ≤ 1 → Runs c 0x806 s → Fits c (n + 1) → ringBase ≤ off → off + n ≤ scratchBase s h + gib → (memOf s h).state = 1 → n ≤ 4095 →
    ∃ u a, exec (.memRead c h off n) s = .next (complete c 0x806 a) ∧ a.status = .ok ∧ a.post = u ∧
      a.response = mread (memOf s h).mem off n ++ leBytes 1 (bit (memOf s h).diagParity) ∧
      memOf u h = { memOf s h with
        diagParity := false,
        waiting := (memOf s h).waiting ++ (if n = 0 then [] else [⟨if off < scratchBase s h then 3 else 2, 0, n⟩]) } ∧
      (∀ g, g ≠ h → memOf u g = memOf s g) ∧ u = { s with mem := u.mem })

/-! ### Post boxes and the timer set (11, 12) -/

/-- Arrival of parts (R322, R323, R327 to R330): a sound command of one part waits in its box's queue, with what its signature is tested by at acceptance;
the first of several parts opens an
assembly; a TAG answered before is answered again from its
kept completion; an ill-formed part, and a later part of a command abandoned, is answered BAD_ARGUMENT; a doorbell takes the part in the buffer as one arriving, and a sideband frame its part; an
assembly with no part for 2²⁰ Rounds is abandoned. Boxes that are not open take nothing. -/
def Obligations.PartsArrive : Prop :=
  (∀ s b e frag sig src cls plot g x key, x = boxOf s (boxNo b) → key = (if isLetterBox b then src else 0) → isLetterBox b = false ∨ cls = 5 →
    isLetterBox b = false ∨ e.replyAddr % 4096 = 0 → src = (if isLetterBox b then src else 0) → (isLetterBox b = false → cls = 5 ∧ plot = 0) →
    boxesOpen s b = true → gateArrival s b e.opcode = .run → x.assembly = none →
    (partOk b e frag sig = true → x.abandoned ≠ some (e.tag, src) ∨ e.partIndex = 0 →
      (∀ k ∈ x.kept, k.1 = key → k.2.tag = e.tag → k.2.round + 4096 ≤ roundNo s) →
      x.waiting.length < queueLimit b →
      (e.partCount = 1 → opcodeLeast e.opcode ≠ none → ∃ t y, exec (.partArrival b e frag sig src cls plot g) s = .next t ∧
        (boxOf t (boxNo b)).waiting = x.waiting ++ [y] ∧ y.ctx = { box := b, tag := e.tag, src := src, auth := e.auth, signed := e.signed } ∧
        y.opcode = e.opcode ∧ y.cls = cls ∧ y.plot = plot ∧ y.replyAddr = e.replyAddr ∧ y.env = some e ∧ y.body = frag ∧ y.sig = sig ∧
        (boxOf t (boxNo b)).kept = x.kept ∧
        (∀ c, c ≠ boxNo b → boxOf t c = boxOf s c) ∧ t = { s with gmi := { s.gmi with boxes := t.gmi.boxes }, pm := t.pm }) ∧
      (1 < e.partCount → e.partIndex = 0 → ∃ t a, exec (.partArrival b e frag sig src cls plot g) s = .next t ∧
        (boxOf t (boxNo b)).assembly = some a ∧ a.tag = e.tag ∧ a.next = 1 ∧ a.count = e.partCount ∧ a.first = e ∧ a.body = frag ∧
        a.lastRound = roundNo s ∧ (boxOf t (boxNo b)).waiting = x.waiting)) ∧
    (∀ k, partOk b e frag sig = true → x.abandoned ≠ some (e.tag, src) ∨ e.partIndex = 0 → x.kept = [(key, k)] → k.tag = e.tag → roundNo s < k.round + 4096 →
      exec (.partArrival b e frag sig src cls plot g) s = .next (sendCompletion b { k with cached := true } src cls plot e.replyAddr
        (if isSb b then heard 0 s else s))) ∧
    (partOk b e frag sig = true → x.abandoned = some (e.tag, src) → e.partIndex ≠ 0 → ∃ t r, exec (.partArrival b e frag sig src cls plot g) s = .next t ∧
      (key, r) ∈ (boxOf t (boxNo b)).kept ∧ r.status = .badArgument ∧ r.tag = e.tag ∧ (boxOf t (boxNo b)).abandoned = none ∧
      (boxOf t (boxNo b)).waiting = x.waiting) ∧
    (partOk b e frag sig = false → ∃ t r, exec (.partArrival b e frag sig src cls plot g) s = .next t ∧ (key, r) ∈ (boxOf t (boxNo b)).kept ∧
      r.status = .badArgument ∧ r.tag = e.tag ∧ r.opcode = e.opcode ∧ (boxOf t (boxNo b)).waiting = x.waiting)) ∧
  (∀ s b e frag sig src cls plot g, boxesOpen s b = false → exec (.partArrival b e frag sig src cls plot g) s = .next s) ∧
  (∀ s b n e frag sig, (b ≠ 4 ∧ b ≠ 5) ∨ n ≠ 64 + frag.length + sig.length ∨ 1472 < n ∨ boxesOpen s (.sb (b - 4)) = false →
    exec (.sidebandGmiPart b n e frag sig) s = .next s) ∧
  (∀ s b v, cxlUp s = false ∨ boxesOpen s (.hb b) = false → exec (.hbDoorbell b v) s = .next s) ∧
  (∀ s b, (boxOf s (boxNo b)).assembly = none ∨ (∃ a, (boxOf s (boxNo b)).assembly = some a ∧ roundNo s < a.lastRound + 2 ^ 20) →
    exec (.assemblyTimeout b) s = .next s) ∧
  (∀ s b n e frag sig, b = 4 ∨ b = 5 → n = 64 + frag.length + sig.length → n ≤ 1472 →
    boxesOpen s (.sb (b - 4)) = true →
    exec (.sidebandGmiPart b n e frag sig) s = exec (.partArrival (.sb (b - 4)) e frag sig 0 5 0 0) s ∧
    (partOk (.sb (b - 4)) e frag sig = true → ∃ t, exec (.sidebandGmiPart b n e frag sig) s = .next t ∧ t.pm.rackHeard = s.mer.ns)) ∧
  (∀ s b v buf e n, cxlUp s = true → boxesOpen s (.hb b) = true → v = ((boxOf s b).complete + 1) % 2 ^ 32 → (boxOf s b).hbState ≠ 1 →
    (boxOf s b).hbState ≠ 2 → buf = fit 4032 (boxOf s b).buffer → e = envelopeOf buf → n = (if e.signed && e.partIndex + 1 = e.partCount then 512 else 0) →
    exec (.hbDoorbell b v) s = exec (.partArrival (.hb b) e (sliceAt buf 64 e.fragLen) (sliceAt buf (64 + e.fragLen) n) 0 5 0 0)
      { s with cxl := { s.cxl with produce := tset 0 s.cxl.produce b v } }) ∧
  (∀ s b v, cxlUp s = true → boxesOpen s (.hb b) = true → v ≠ ((boxOf s b).complete + 1) % 2 ^ 32 ∨ (boxOf s b).hbState = 1 ∨
    (boxOf s b).hbState = 2 → exec (.hbDoorbell b v) s = .next (cnt1 9 s)) ∧
  (∀ s b a, (boxOf s (boxNo b)).assembly = some a → a.lastRound + 2 ^ 20 ≤ roundNo s →
    ∃ t, exec (.assemblyTimeout b) s = .next t ∧ boxOf t (boxNo b) = { boxOf s (boxNo b) with assembly := none, abandoned := some (a.tag, a.src), hbState := 0 } ∧
      (∀ c, c ≠ boxNo b → boxOf t c = boxOf s c) ∧ t = { s with gmi := { s.gmi with boxes := t.gmi.boxes } })

/-- The timer set of 64 (R317): a claim takes a free timer; with none free it is refused naming the soonest to expire, and only a protection claim takes
the timer claimed last in the lowest class present, whose holder is told; a timer due is free again and delivered, unless a restart holds it up. -/
def Obligations.TimerSet : Prop :=
  (∀ s cls n t, (List.range 64).find? (fun t => (tfind s.pm.timers t).isNone) = some t →
    ∃ u, exec (.timerClaim cls n) s = .next u ∧ tfind u.pm.timers t = some { cls := cls, expiry := roundNo s + n, order := s.pm.timerOrder } ∧
      (∀ k, k ≠ t → tfind u.pm.timers k = tfind s.pm.timers k) ∧ u.pm.timerOrder = s.pm.timerOrder + 1 ∧
      u = { s with pm := { s.pm with timers := u.pm.timers, timerOrder := u.pm.timerOrder, timerAns := u.pm.timerAns } }) ∧
  (∀ s cls n, (∀ t, t < 64 → tfind s.pm.timers t ≠ none) → cls ≠ .protection ∨ lowestClass s = 0 →
    ∃ u k x, exec (.timerClaim cls n) s = .next u ∧ (k, x) ∈ s.pm.timers ∧ (∀ y ∈ s.pm.timers, x.expiry ≤ y.2.expiry) ∧
      u = { s with pm := { s.pm with timerAns := some (.busyClaimed, 14, timerOwner k x) } }) ∧
  (∀ s n, (∀ t, t < 64 → tfind s.pm.timers t ≠ none) → 0 < lowestClass s → lowestClass s ≤ 3 →
    ∃ u k x, exec (.timerClaim .protection n) s = .next u ∧ (k, x) ∈ s.pm.timers ∧ x.cls.ctorIdx = lowestClass s ∧
      tfind u.pm.timers k = some { cls := .protection, expiry := roundNo s + n, order := s.pm.timerOrder } ∧
      (∀ j, j ≠ k → tfind u.pm.timers j = tfind s.pm.timers j) ∧
      Reports { s with pm := { s.pm with timers := u.pm.timers, timerOrder := u.pm.timerOrder, timerAns := u.pm.timerAns, timerTold := some (.busyClaimed, 7, k) } } u) ∧
  (∀ s t, tfind s.pm.timers t = none ∨ s.pm.absent = true ∨ (∃ x, tfind s.pm.timers t = some x ∧ roundNo s < x.expiry) →
    exec (.timerExpiry t) s = .next s) ∧
  (∀ s t x, tfind s.pm.timers t = some x → x.expiry ≤ roundNo s → s.pm.absent = false →
    ∃ u, exec (.timerExpiry t) s = .next u ∧ tfind u.pm.timers t = none ∧ (∀ k, k ≠ t → tfind u.pm.timers k = tfind s.pm.timers k) ∧
      (∀ d, d ≤ 2 → chanOf u d = { chanOf s d with inputs := (chanOf s d).inputs ++ (if (chanOf s d).inService then u.pm.latch.toList else []) }) ∧
      (∃ w, u.pm.latch = some w ∧ w.what = .timer t) ∧
      u = { s with pm := { s.pm with timers := u.pm.timers, expired := s.pm.expired ++ [t], latch := u.pm.latch, chans := u.pm.chans } })

/-! ### The Triad and the tray (11) -/

/-- The voter and its channels (R290 to R295, R299): in TRIPLEX a channel that differs is masked, counted and retired; in DUPLEX the outputs are held and
both channels test themselves; in SIMPLEX, or where a voted signature is wrong, the mode is NONE, what is held is discarded and skeleton service is
due; what the other channel put out is released when one of two fails; a retired channel comes
back, one at a time, through its self-test, the copy from channels all verified, the pause at a boundary in which the voter holds outputs, and the rejoin that
releases them, and a retirement makes the copy start again; each
self-test item that is due leaves its result. What does not apply in the state changes nothing. -/
def Obligations.TriadVoting : Prop :=
  (∀ s c, c ≤ 2 → triadMode s = .triplex →
    (∃ t, exec (.voterDisagree c) s = .next t ∧ (chanOf t c).inService = false ∧ (chanOf t c).verified = false ∧ (chanOf t c).inputs = [] ∧
      (∀ d, d ≠ c → d ≤ 2 → chanOf t d = { chanOf s d with stage := if 3 ≤ (chanOf s d).stage then 2 else (chanOf s d).stage }) ∧
      triadMode t = .duplex ∧ t.pm.mismatch = min (2 ^ 32 - 1) (s.pm.mismatch + 1) ∧ t.pm.holding = s.pm.diagnosing ∧ t.pm.role = s.pm.role ∧
      (s.pm.diagnosing = false → t.gmi.held = [])) ∧
    (∃ t, exec (.channelFaultLocated c) s = .next t ∧ (chanOf t c).inService = false ∧
      (∀ d, d ≠ c → d ≤ 2 → chanOf t d = { chanOf s d with stage := if 3 ≤ (chanOf s d).stage then 2 else (chanOf s d).stage }) ∧ triadMode t = .duplex ∧
      t.pm.mismatch = s.pm.mismatch) ∧
    (testDue 0 s = true → ∃ t, exec (.coreSig [c]) s = .next t ∧ (chanOf t c).inService = false ∧ triadMode t = .duplex ∧
      tget {} t.pm.tests 0 = { last := roundNo s, result := 1, fails := min 255 ((tget {} s.pm.tests 0).fails + 1) }) ∧
    (testDue 1 s = true → ∀ n, ∃ t, exec (.ramScrub [c] n) s = .next t ∧ (chanOf t c).inService = false ∧ triadMode t = .duplex ∧
      (tget {} t.pm.tests 1).result = 1 ∧ t.pm.scrubErrors = s.pm.scrubErrors + n)) ∧
  (∀ s c, triadMode s = .duplex → s.pm.diagnosing = false → ∀ i, i = .voterDisagree c ∨ i = .duplexWordTimeout →
    exec i s = .next { s with pm := { s.pm with holding := true, diagnosing := true } }) ∧
  (∀ s c, triadMode s = .simplex → ∃ t, exec (.voterDisagree c) s = .next t ∧ triadMode t = .none ∧ t.ident.skeletonDue ≠ none ∧ t.pm.holding = false ∧
    t.gmi.held = [] ∧ t.pm.chans = s.pm.chans) ∧
  (∀ s failed, s.pm.diagnosing = true →
    ((channels s).filter failed.contains = [] → ∃ t, exec (.duplexDiagnosisDone failed) s = .next t ∧
      (∀ d, chanOf t d = { chanOf s d with verified := (chanOf s d).verified || decide (d ∈ channels s) }) ∧
      t = { s with pm := { s.pm with holding := false, diagnosing := false, restartDue := true, restartFrom := roundNo s, chans := t.pm.chans } }) ∧
    (∀ c, (channels s).filter failed.contains = [c] → ∃ t, exec (.duplexDiagnosisDone failed) s = .next t ∧ (chanOf t c).inService = false ∧
      t.pm.diagnosing = false ∧ t.pm.holding = false ∧ t.gmi.held = [] ∧
      ∀ d, d ≠ c → d ≤ 2 → chanOf t d = { chanOf s d with
        verified := (chanOf s d).verified || (chanOf s d).inService, stage := if 3 ≤ (chanOf s d).stage then 2 else (chanOf s d).stage }) ∧
    (∀ c d r, (channels s).filter failed.contains = c :: d :: r → ∃ t, exec (.duplexDiagnosisDone failed) s = .next t ∧ triadMode t = .none ∧
      t.gmi.held = [])) ∧
  (∀ s c, triadMode s = .none ∨ (triadMode s = .duplex ∧ s.pm.diagnosing = true) → exec (.voterDisagree c) s = .next s) ∧
  (∀ s, triadMode s ≠ .duplex ∨ s.pm.diagnosing = true → exec .duplexWordTimeout s = .next s) ∧
  (∀ s c, (chanOf s c).inService = false ∨ s.pm.noneMode = true → exec (.channelFaultLocated c) s = .next s) ∧
  (∀ s failed, s.pm.diagnosing = false → exec (.duplexDiagnosisDone failed) s = .next s) ∧
  (∀ s c, (chanOf s c).inService = true ∨ (chanOf s c).forGood = true ∨ (chanOf s c).stage ≠ 0 ∨ (∃ k, k ≤ 2 ∧ (chanOf s k).stage ≠ 0) ∨
    s.pm.noneMode = true ∨ s.pm.diagnosing = true ∨ roundNo s ≤ retiredAt s c → exec (.reintegrateStart c) s = .next s) ∧
  (∀ s c pass, (chanOf s c).stage ≠ 1 → exec (.reintegrateSelftestDone c pass) s = .next s) ∧
  (∀ s c, (chanOf s c).stage ≠ 2 ∨ copySource s = false → exec (.reintegrateCopyDone c) s = .next s) ∧
  (∀ s c, (chanOf s c).stage ≠ 4 ∨ copySource s = false → exec (.reintegrateRejoin c) s = .next s) ∧
  (∀ s c, (chanOf s c).inService = false → (chanOf s c).forGood = false → (∀ k, k ≤ 2 → (chanOf s k).stage = 0) → (chanOf s c).stage = 0 →
    s.pm.noneMode = false → s.pm.diagnosing = false → retiredAt s c < roundNo s → ∃ t, exec (.reintegrateStart c) s = .next t ∧
      chanOf t c = { chanOf s c with stage := 1, verified := false, stageRound := roundNo s } ∧ (∀ d, d ≠ c → chanOf t d = chanOf s d) ∧
      t = { s with pm := { s.pm with chans := t.pm.chans, rams := tdel s.pm.rams c, cores := tdel s.pm.cores c } }) ∧
  (∀ s c, (chanOf s c).stage = 1 →
    (∃ t, exec (.reintegrateSelftestDone c true) s = .next t ∧ chanOf t c = { chanOf s c with stage := 2, verified := true, stageRound := roundNo s } ∧
      ∀ d, d ≠ c → chanOf t d = chanOf s d) ∧
    (∃ t, exec (.reintegrateSelftestDone c false) s = .next t ∧ (chanOf t c).stage = 0 ∧ (chanOf t c).retires = liveRetires s c ++ [roundNo s] ∧
      (chanOf t c).inService = (chanOf s c).inService)) ∧
  (∀ s c, (chanOf s c).stage = 2 → copySource s = true → ∃ t, exec (.reintegrateCopyDone c) s = .next t ∧
    chanOf t c = { chanOf s c with stage := 3, stageRound := roundNo s } ∧ t.pm.rams = copied s c s.pm.rams ∧ ∀ d, d ≠ c → chanOf t d = chanOf s d) ∧
  (∀ s c, c ≤ 2 → (chanOf s c).stage = 3 → (∀ d, d ≠ c → d ≤ 2 → (chanOf s d).stage ≠ 3) → (chanOf s c).stageRound < roundNo s → copySource s = true →
    s.pm.absent = false → chanOf (reintegratePause s) c = { chanOf s c with stage := 4, stageRound := roundNo s } ∧
      (reintegratePause s).pm.holding = true ∧ (reintegratePause s).pm.cores = copied s c s.pm.cores) ∧
  (∀ s c, (chanOf s c).stage = 4 → copySource s = true → ∃ t, exec (.reintegrateRejoin c) s = .next t ∧
    chanOf t c = { chanOf s c with stage := 0, inService := true } ∧ (∀ d, d ≠ c → chanOf t d = chanOf s d) ∧ t.pm.healthDue = true ∧
    t.pm.holding = false ∧ t.gmi.held = []) ∧
  (∀ s l n b, (testDue 0 s = false → exec (.coreSig l) s = .next s) ∧ (testDue 1 s = false → exec (.ramScrub l n) s = .next s) ∧
    (testDue 2 s = false → exec (.voterCheck b) s = .next s) ∧ (testDue 3 s = false → exec (.rollCheck b) s = .next s)) ∧
  (∀ s, (testDue 0 s = true → ∃ t, exec (.coreSig []) s = .next t ∧ (∀ c ∈ channels s, (chanOf t c).verified = true) ∧ triadMode t = triadMode s) ∧
    (testDue 1 s = true → ∀ n, ∃ t, exec (.ramScrub [] n) s = .next t ∧ (tget {} t.pm.tests 1).result = 0 ∧ t.pm.scrubErrors = s.pm.scrubErrors + n ∧
      t.pm.chans = s.pm.chans) ∧
    (testDue 2 s = true → ∃ t, exec (.voterCheck true) s = .next t ∧ (tget {} t.pm.tests 2).result = 0 ∧ triadMode t = triadMode s) ∧
    (testDue 2 s = true → ∃ t, exec (.voterCheck false) s = .next t ∧ (tget {} t.pm.tests 2).result = 1 ∧ triadMode t = .none) ∧
    (testDue 3 s = true → ∃ t, exec (.rollCheck true) s = .next t ∧ (tget {} t.pm.tests 3).result = 0 ∧ t.pm.chans = s.pm.chans) ∧
    (testDue 3 s = true → ∃ t, exec (.rollCheck false) s = .next t ∧ (tget {} t.pm.tests 3).result = 1 ∧
      (s.tray.start ≠ .keep → s.tray.start ≠ .charging → (0x010C, roundNo s) ∈ t.gmi.alerts)))

/-- The postmaster's restart (R296 to R298): an ALIVE write holds the watchdog off, 1,024 Rounds without one make a restart due at the next boundary; a restart discards the
staged bank that no COMMIT has sealed (one sealed survives: the model's choice, notes/assumptions/130.md) and the outputs held, sets POSTMASTER_ABSENT and falls back to the
sequence floor; a fourth within 60 s is NONE; it ends once the boot chain has passed, and that clears POSTMASTER_ABSENT at the next
boundary. -/
def Obligations.PostmasterRestarts : Prop :=
  (∀ s, s.pm.absent = false → exec .aliveWrite s = .next { s with pm := { s.pm with aliveRound := roundNo s } }) ∧
  (∀ s, triadRuns s = true → 2 ≤ s.ident.boot → s.pm.aliveRound + 1024 ≤ roundNo s → exec .watchdogExpiry s =
    .next { s with pm := { s.pm with restartDue := true, restartFrom := roundNo s + (if s.mer.cycle = 0 then 0 else 1) } }) ∧
  (∀ s, triadRuns s = false ∨ s.ident.boot < 2 ∨ roundNo s < s.pm.aliveRound + 1024 → exec .watchdogExpiry s = .next s) ∧
  (∀ s, s.pm.absent = true → exec .aliveWrite s = .next s) ∧
  (∀ s, s.pm.absent = false ∨ s.pm.chainDone = false → exec .postmasterRestartDone s = .next s) ∧
  (∀ s, s.pm.restartDue = false ∨ s.pm.absent = true ∨ s.pm.noneMode = true ∨ roundNo s < s.pm.restartFrom → exec .postmasterRestart s = .next s) ∧
  (∀ s, s.pm.restartDue = true → s.pm.absent = false → s.pm.noneMode = false → s.pm.restartFrom ≤ roundNo s →
    ((recentRestarts s).length < 3 → ∃ t, exec .postmasterRestart s = .next t ∧ t.pm.absent = true ∧ t.pm.restartDue = false ∧ t.pm.holding = false ∧
      t.pm.chainDone = false ∧ t.gmi.held = [] ∧
      t.pm.restarts = min 255 (s.pm.restarts + 1) ∧ t.pm.restartRounds = recentRestarts s ++ [roundNo s] ∧ t.gmi.lastSeq = t.gmi.seqFloor ∧
      t.gmi.seqFloor = s.gmi.seqFloor ∧ t.staging = (if s.staging.sealed.isSome then s.staging else { closes := s.staging.closes.filter (·.2) }) ∧ t.bank = s.bank ∧ t.mer = s.mer) ∧
    (3 ≤ (recentRestarts s).length → ∃ t, exec .postmasterRestart s = .next t ∧ triadMode t = .none ∧ t.ident.skeletonDue ≠ none ∧
      t.staging = s.staging ∧ t.pm.absent = false ∧ t.gmi.held = [])) ∧
  (∀ s, s.pm.absent = true → s.pm.chainDone = true → exec .postmasterRestartDone s =
    .next { s with pm := { s.pm with absentClearDue := true, aliveRound := roundNo s }, trust := { s.trust with serviceSince := roundNo s } })

/-- Roll call on the links (R301 to R308): a health report is due every 64 Rounds and after a change, in ST0 and ST1; a record received on an admitted link
marks it heard; a link without one for 4 Rounds is silent, unless it is parked, as a record with LEAVING or a LADDER above 0 makes it at the boundary;
frames on the sideband are due by their intervals; a health report or a note received is kept. -/
def Obligations.RollCall : Prop :=
  (∀ s, triadRuns s = false ∨ 2 ≤ s.pow.ladder ∨ (s.pm.healthDue = false ∧ roundNo s < s.pm.healthSentRound + 64) → exec .healthSend s = .next s) ∧
  (∀ s p r, (linkOf s p).disc ≠ .admitted ∨ 2 ≤ r.kind → exec (.rollReceive p r) s = .next s) ∧
  (∀ s p, (linkOf s p).disc ≠ .admitted ∨ 2 ≤ s.pow.ladder → exec (.rollWindowEval p) s = .next s) ∧
  (∀ s, rollRuns s = false ∨ s.mer.ns < s.tray.rollNs + 500000 → exec .rollFrameSend s = .next s) ∧
  (∀ s, triadRuns s = false ∨ s.ident.skeleton = true ∨ s.ident.boot < 2 ∨ s.mer.ns < s.tray.aliveNs + 100000000 → exec .aliveFrameSend s = .next s) ∧
  (∀ s, triadRuns s = true → s.pow.ladder ≤ 1 → s.pm.healthDue = true ∨ s.pm.healthSentRound + 64 ≤ roundNo s →
    ∃ t, exec .healthSend s = .next t ∧ Sends { s with pm := { s.pm with healthDue := false, healthSentRound := roundNo s } } t) ∧
  (∀ s l, exec (.healthLetterReceive l) s = .next { s with pm := { s.pm with partnerHealth := some (fit 128 l) } }) ∧
  (∀ s k l, ∃ t, exec (.accNoteReceive k l) s = .next t ∧ tfind t.pm.accNotes k = some (l.take 256) ∧
    (∀ j, j ≠ k → tfind t.pm.accNotes j = tfind s.pm.accNotes j) ∧ t = { s with pm := { s.pm with accNotes := t.pm.accNotes } }) ∧
  (∀ s p r, (linkOf s p).disc = .admitted → r.kind ≤ 1 →
    (isPeer p = false → (linkOf s p).silent = false → ∃ t, exec (.rollReceive p r) s = .next t ∧ LinkOnly p s t ∧
      linkOf t p = { linkOf s p with rollRound := some (roundNo s), peerRoll := some r, silent := false, parkDue := true }) ∧
    (isPeer p = true → ∃ t, exec (.rollReceive p r) s = .next t ∧ t.pm.partnerRoll = some r ∧ t.pm.hb1Round = roundNo s ∧ t.pm.path1 = false ∧
      t.pm.partnerLost = false ∧ (linkOf t p).rollRound = some (roundNo s) ∧ (linkOf t p).silent = false) ∧
    ((linkOf s p).silent = true → parks r = true → (linkOf s p).parked = false → ∃ t, exec (.rollReceive p r) s = .next t ∧ (linkOf t p).parked = true ∧
      (linkOf t p).silent = false)) ∧
  (∀ s p n, (linkOf s p).disc = .admitted → s.pow.ladder ≤ 1 → (linkOf s p).rollRound = some n →
    (n + 4 ≤ roundNo s → (linkOf s p).parkDue = false → (linkOf s p).parked = false → ∃ t, exec (.rollWindowEval p) s = .next t ∧ (linkOf t p).silent = true ∧
      (∀ q, q ≠ p → linkOf t q = linkOf s q) ∧ Reports { s with links := t.links } t) ∧
    (roundNo s < n + 4 → (linkOf s p).parkDue = false → exec (.rollWindowEval p) s = .next s) ∧
    (∀ r, (linkOf s p).parkDue = true → (linkOf s p).peerRoll = some r → parks r = true → ∃ t, exec (.rollWindowEval p) s = .next t ∧
      (linkOf t p).parked = true ∧ (linkOf t p).parkDue = false ∧ ∀ q, q ≠ p → linkOf t q = linkOf s q) ∧
    (∀ r, (linkOf s p).parkDue = true → (linkOf s p).peerRoll = some r → parks r = false → ∃ t, exec (.rollWindowEval p) s = .next t ∧
      (linkOf t p).parked = false ∧ (linkOf t p).parkDue = false ∧ ∀ q, q ≠ p → linkOf t q = linkOf s q)) ∧
  (∀ s, rollRuns s = true → s.tray.rollNs + 500000 ≤ s.mer.ns → exec .rollFrameSend s = .next { s with tray := { s.tray with rollDue := true, rollNs := s.mer.ns } }) ∧
  (∀ s, triadRuns s = true → s.ident.skeleton = false → 2 ≤ s.ident.boot → s.tray.aliveNs + 100000000 ≤ s.mer.ns → ∃ t x, exec .aliveFrameSend s = .next t ∧
    t = { s with tray := { s.tray with aliveNs := s.mer.ns, frames := s.tray.frames ++ [x] } } ∧ x.kind = 3 ∧ x.box = 0 ∧
      x.body = (ownHealth s).take 32)

/-- Tray lead and standby (R309 to R316): a standby counts digests that match and differ; heartbeats on either path clear its silence; both paths silent
for 8 Rounds is the loss of the partner; a standby takes over with the next LEAD_EPOCH at the boundary after that, or as soon as the lead's roll record
yields, or after 500,000 Rounds of POSTMASTER_ABSENT; home accelerators are lost and back; standing orders follow 2 s without either manager and end after
an arrival. What does not apply in the state changes nothing. -/
def Obligations.TrayLead : Prop :=
  (∀ s n a b, s.pm.role = .standby → ∃ t, exec (.trayStepReceive n a b a b) s = .next t ∧ t.pm.mismatches = 0 ∧ t.pm.matches_ = s.pm.matches_ + 1 ∧
    t.pm.diverged = (s.pm.diverged && decide (s.pm.matches_ + 1 < 16)) ∧ t.pm.role = .standby) ∧
  (∀ s n a b x y, s.pm.role = .standby → a ≠ x ∨ b ≠ y → ∃ t, exec (.trayStepReceive n a b x y) s = .next t ∧ t.pm.mismatches = s.pm.mismatches + 1 ∧
    t.pm.matches_ = 0 ∧ t.pm.diverged = (s.pm.diverged || decide (3 ≤ s.pm.mismatches + 1)) ∧ t.pm.role = .standby) ∧
  (∀ s n a b x y l, s.pm.role ≠ .standby → exec (.trayStepReceive n a b x y) s = .next s ∧ exec (.standbyStateCopy l) s = .next s ∧
    exec .leadTakeover s = .next s ∧ exec .leadAbsentTimeout s = .next s) ∧
  (∀ s, s.ident.skeleton = true ∨ ((s.pm.takeoverDue = false ∨ roundNo s ≤ s.pm.lostRound) ∧ leadYields s = false) → exec .leadTakeover s = .next s) ∧
  (∀ s, s.ident.skeleton = true ∨ s.pm.absentSince = none ∨ (∃ r, s.pm.absentSince = some r ∧ roundNo s < r + 500000) →
    exec .leadAbsentTimeout s = .next s) ∧
  (∀ s i, i < 16 → s.pm.accLost.getLsbD i = false ∨ s.pm.accErr.getLsbD i = true ∨ accSilent s i = true ∨
    (∃ r, tfind s.pm.accBad i = some r ∧ roundNo s < r + 64) → exec (.accBack i) s = .next s) ∧
  (∀ s n, pathSilent s n = false ∨ (if n = 1 then s.pm.path1 else s.pm.path2) = true → exec (.trayPathSilent n) s = .next s) ∧
  (∀ s, s.pm.partnerLost = true ∨ pathSilent s 1 = false ∨ pathSilent s 2 = false → exec .partnerLost s = .next s) ∧
  (∀ s, s.pm.standing = true ∨ s.pm.absent = true ∨ s.mer.ns < s.pm.rackHeard + 2000000000 ∨ s.mer.ns < s.pm.fabHeard + 2000000000 →
    exec .standingOrdersEnter s = .next s) ∧
  (∀ s, s.pm.standing = false ∨ s.pm.standingExitDue = none ∨ roundNo s ≤ s.pm.standingRound → exec .standingOrdersExit s = .next s) ∧
  (∀ s l, s.pm.role = .standby → exec (.standbyStateCopy l) s = .next { s with pm := { s.pm with trayCopy := l, copyDue := none, copyAsked := false } }) ∧
  (∀ s i b, i < 16 → ∃ t, exec (.accErrAssert i b) s = .next t ∧ t.pm.accErr.getLsbD i = b ∧ (∀ j, j ≠ i → t.pm.accErr.getLsbD j = s.pm.accErr.getLsbD j) ∧
    t.pm.accBad = tput s.pm.accBad i (roundNo s) ∧
    (∀ d, d ≤ 2 → chanOf t d = { chanOf s d with inputs := (chanOf s d).inputs ++ (if (chanOf s d).inService then t.pm.latch.toList else []) }) ∧
    t = { s with pm := { s.pm with accErr := t.pm.accErr, accBad := t.pm.accBad, latch := t.pm.latch, chans := t.pm.chans } }) ∧
  (∀ s i, i < 16 → s.pm.accLost.getLsbD i = true → s.pm.accErr.getLsbD i = false → accSilent s i = false →
    (∀ r, tfind s.pm.accBad i = some r → r + 64 ≤ roundNo s) → 64 ≤ roundNo s → ∃ t, exec (.accBack i) s = .next t ∧ t.pm.accLost.getLsbD i = false ∧
    t.pm.accErr = s.pm.accErr ∧ ∀ j, j ≠ i → t.pm.accLost.getLsbD j = s.pm.accLost.getLsbD j) ∧
  (∀ s, ∃ t, exec .trayHbEdge s = .next t ∧ t.pm.hb2Round = roundNo s ∧ t.pm.path2 = false ∧ t.pm.partnerLost = false ∧ t.pm.hb1Round = s.pm.hb1Round ∧
    t.pm.path1 = s.pm.path1 ∧ t.pm.role = (if s.pm.role = .sole then .lead else s.pm.role) ∧ t = { s with pm := t.pm }) ∧
  (∀ s, s.pm.path2 = false → 2 ≤ s.ident.boot → s.pm.hb2Round + 9 ≤ roundNo s → ∃ t, exec (.trayPathSilent 2) s = .next t ∧ t.pm.path2 = true ∧ t.pm.path1 = s.pm.path1 ∧
    t.pm.healthDue = true ∧ t.pm.partnerLost = s.pm.partnerLost) ∧
  (∀ s, s.pm.path1 = false → 2 ≤ s.ident.boot → partnerParked s = false → s.pm.hb1Round + 9 ≤ roundNo s → ∃ t, exec (.trayPathSilent 1) s = .next t ∧ t.pm.path1 = true ∧
    t.pm.path2 = s.pm.path2 ∧ t.pm.healthDue = true ∧ t.pm.partnerLost = s.pm.partnerLost) ∧
  (∀ s, s.pm.partnerLost = false → pathSilent s 1 = true → pathSilent s 2 = true → ∃ t, exec .partnerLost s = .next t ∧ t.pm.partnerLost = true ∧
    t.pm.trayCaps = [] ∧ (s.pm.role = .standby → t.pm.takeoverDue = true ∧ t.pm.role = .standby) ∧ (s.pm.role ≠ .standby → t.pm.role = .sole)) ∧
  (∀ s i, s.pm.role = .standby → s.ident.skeleton = false →
    (s.pm.takeoverDue = true ∧ s.pm.lostRound < roundNo s ∧ i = .leadTakeover) ∨ (leadYields s = true ∧ i = .leadTakeover) ∨ (∃ r, s.pm.absentSince = some r ∧ r + 500000 ≤ roundNo s ∧ i = .leadAbsentTimeout) →
    ∃ t, exec i s = .next t ∧ t.pm.role = (if s.pm.partnerLost then .sole else .lead) ∧ t.pm.epoch = (s.pm.epoch + 1) % 2 ^ 32 ∧ t.pm.takeoverDue = false ∧
      t.pm.absentSince = none ∧ (∀ k, k < 16 → accOf t k = { accOf s k with due := true }) ∧
      t = { s with pm := t.pm, pow := { s.pow with acc := t.pow.acc } }) ∧
  (∀ s, s.pm.standing = false → s.pm.absent = false → s.pm.rackHeard + 2000000000 ≤ s.mer.ns → s.pm.fabHeard + 2000000000 ≤ s.mer.ns →
    ∃ t, exec .standingOrdersEnter s = .next t ∧ t.pm.standing = true ∧ t.pm.standingExitDue = none ∧
      Reports { s with pm := { s.pm with standing := true, standingExitDue := none, healthDue := true } } t) ∧
  (∀ s w, s.pm.standing = true → s.pm.standingExitDue = some w → s.pm.standingRound < roundNo s →
    ∃ t, exec .standingOrdersExit s = .next t ∧ Reports { s with pm := { s.pm with standing := false, standingExitDue := none, healthDue := true } } t)

/-! ### Reads and general commands (12) -/

/-- A read that runs, and whose response fits its box (R324), returns what it reads and changes nothing else (R272, R273, R301, R310, R336, R338, R340,
R358, R359, R400, R409, R415, R420, R464); beside the reads, NOP does nothing, RESTART makes a restart due at the next boundary (R296) and
MANAGER_SET replaces the manager list (R321).
The results of a claim that ended without them are read with NOT_READY (R74, R83). -/
def Obligations.ReadCommands : Prop :=
  (∀ c s, Completes c 0 (.nop c) (okAns s) s) ∧
  (∀ c s, Completes c 1 (.identityRead c) (okWith (identityPage s) 0 s) s) ∧
  (∀ c s, Completes c 2 (.statusRead c) (okWith (statusPage s 9) 0 s) s) ∧
  (∀ c s k, Fits c (ownHealth s).length → Completes c 3 (.healthRead c 0 k) (okWith (ownHealth s) 0 s) s) ∧
  (∀ c s k r, s.pm.partnerHealth = some r → Fits c r.length → Completes c 3 (.healthRead c 1 k) (okWith r 0 s) s) ∧
  (∀ c s k, s.pm.partnerHealth = none → Completes c 3 (.healthRead c 1 k) (refuse .notReady s) s) ∧
  (∀ c s k r, k ≤ 127 → tfind s.pm.accNotes k = some r → Fits c r.length → Completes c 3 (.healthRead c 2 k) (okWith r 0 s) s) ∧
  (∀ c s f n r, 1 ≤ n → n ≤ 62 → r = ((s.gmi.log.filter fun e => e.seq ≥ f).take n).flatMap eventBytes → Fits c r.length →
    Completes c 4 (.eventRead c f n) (okWith r 0 s) s) ∧
  (∀ c s f n, n = 0 ∨ 62 < n → Completes c 4 (.eventRead c f n) (badArg 4 s) s) ∧
  (∀ c s o n, (c.box = .pm → n ≤ 4064 → Fits c (sliceAt (Config.trayState (roundNo s)) o n).length →
      Completes c 6 (.trayStateRead c o n) (okWith (sliceAt (Config.trayState (roundNo s)) o n) 0 s) s) ∧
    (c.box ≠ .pm → Completes c 6 (.trayStateRead c o n) (refuse .notPermitted s) s)) ∧
  (∀ c s, Completes c 7 (.restart c) (okAns { s with pm := { s.pm with restartDue := true, restartFrom := roundNo s + 1 } }) s) ∧
  (∀ c s l, (l.length ≤ 16 → Completes c 0x907 (.managerSet c l) (okAns { s with gmi := { s.gmi with managers := l.map (· % 2 ^ 24) } }) s) ∧
    (16 < l.length → Completes c 0x907 (.managerSet c l) (badArg 0 s) s)) ∧
  (∀ c s b o size, blockSize b = some size → o % 4 = 0 → o + 4 ≤ size → claimCancelled s b o 1 = false →
    Completes c 0x800 (.diagRead c b o 1) (okWith (leBytes 4 (readWord s.bank s b o)) 0 (latchWord b o s)) s ∧
    Completes c 0x101 (.stageRead c b o 1)
      (okWith (leBytes 4 (readWord (if s.staging.holder.isSome then s.staging.bank else s.bank) s b o)) 0 (latchWord b o s)) s) ∧
  (∀ c s b o size, blockSize b = some size → o % 4 = 0 → o + 4 ≤ size → claimCancelled s b o 1 = true →
    Completes c 0x800 (.diagRead c b o 1) { okWith (leBytes 4 (readWord s.bank s b o)) 0 (latchWord b o s) with status := .notReady } s) ∧
  (∀ c s b o n, (blockSize b = none → Completes c 0x800 (.diagRead c b o n) (badArg 0 s) s ∧ Completes c 0x101 (.stageRead c b o n) (badArg 0 s) s) ∧
    ∀ size, blockSize b = some size → o % 4 ≠ 0 ∨ size < o + 4 * n →
      Completes c 0x800 (.diagRead c b o n) (badArg 4 s) s ∧ Completes c 0x101 (.stageRead c b o n) (badArg 4 s) s) ∧
  (∀ c s b o n size, blockSize b = some size → b ≠ 1 → b ≠ 4 → claimCancelled s b o n = false → o % 4 = 0 → o + 4 * n ≤ size → Fits c (4 * n) →
    Completes c 0x800 (.diagRead c b o n) (okWith ((List.range n).flatMap fun i => leBytes 4 (readWord s.bank s b (o + 4 * i))) 0 s) s ∧
    Completes c 0x101 (.stageRead c b o n) (okWith ((List.range n).flatMap fun i =>
      leBytes 4 (readWord (if s.staging.holder.isSome then s.staging.bank else s.bank) s b (o + 4 * i))) 0 s) s) ∧
  (∀ c s h r, (h.table = 0 ∧ h.select = 0 ∧ ReadHdr h 4096 ∧ r = rackRange (readBank h s) h.first h.count) ∨
      (h.table = 1 ∧ 1 ≤ h.select ∧ h.select ≤ 7 ∧ ReadHdr h 16 ∧ r = sprayRange (readBank h s) h.select h.first h.count) ∨
      (h.table = 2 ∧ h.select = 0 ∧ ReadHdr h 1024 ∧ r = maskRange (readBank h s) h.first h.count) →
    Fits c r.length → Completes c 0x204 (.atlasRead c h) (okWith r 0 s) s) ∧
  (∀ c s h r, h.table = 0 → h.select = 0 → ReadHdr h 4096 → r = plotRange (readBank h s) h.first h.count → Fits c r.length →
    Completes c 0x301 (.plotRead c h) (okWith r 0 s) s) ∧
  (∀ c s h r, h.table = 0 → h.select ≤ 255 → ReadHdr h 200 → r = slotRange (readBank h s) h.select h.first h.count → Fits c r.length →
    Completes c 0x401 (.slotmapRead c h) (okWith r 0 s) s) ∧
  (∀ c s h r, h.table = 0 → h.select = 0 → ReadHdr h 8 → r = copyRange (readBank h s) h.first h.count → Fits c r.length →
    Completes c 0x403 (.copyRead c h) (okWith r 0 s) s) ∧
  (∀ c s (h : TableHdr), h.bank ≤ 1 → h.table = 0 → h.select = 0 → (h.count = 0 ∨ 4096 < h.first + h.count) → h.first < 4096 →
    Completes c 0x204 (.atlasRead c h) (headerFail 2 s) s ∧ Completes c 0x301 (.plotRead c h) (headerFail 2 s) s) ∧
  (∀ c s g e r, entryOf s g = some e → openedRecord (groupOf s e) = some r →
    Completes c 0x503 (.groupRead c g) (okWith (groupRecBytes r ++ leBytes 8 (grpStatus s e)) 0 s) s) ∧
  (∀ c s g, entryOf s g = none → Completes c 0x503 (.groupRead c g) (badArg 0 s) s) ∧
  (∀ c s, Completes c 0x601 (.capRead c) (okWith (ladderBytes s 4 4 ++ ladderBytes s 0x40 32) 0 s) s ∧
    Completes c 0x601 (.capRead c true) (badArg 0 s) s) ∧
  (∀ c s, Completes c 0x605 (.powerRead c) (okWith (ladderBytes s 0 48) 0 s) s) ∧
  (∀ c s k r, k ≤ 1 → s.tele.contours[k]? = some r → Completes c 0x701 (.contourRead c k) (okWith (contourBytes r) 0 s) s) ∧
  (∀ c s k, k ≤ 1 → s.tele.contours[k]? = none → Completes c 0x701 (.contourRead c k) (refuse .notReady s) s) ∧
  (∀ c s f n, 1 ≤ n → n ≤ 507 → f + n ≤ 0x80000 → Fits c (8 + 8 * n) →
    Completes c 0x702 (.counterRead c f n 0) (okWith (leBytes 8 (roundNo s) ++ (List.range n).flatMap fun i => leBytes 8 (cntOf s (f + i))) 0 s) s ∧
    (s.tele.snapValid = true → Completes c 0x702 (.counterRead c f n 1)
      (okWith (leBytes 8 s.tele.snapRound ++ (List.range n).flatMap fun i => leBytes 8 (tget 0 s.tele.snap (f + i))) 0 s) s) ∧
    (s.tele.snapValid = false → Completes c 0x702 (.counterRead c f n 1) (refuse .notReady s) s)) ∧
  (∀ c s nonce mask, fit 32 nonce = zeros 32 → Completes c 0x903 (.attest c nonce mask) (badArg 0 s) s) ∧
  (∀ c s nonce mask body, fit 32 nonce ≠ zeros 32 → body = reportHeader nonce mask s ++ (maskSlots mask).flatMap (fun k => digestBytes (ledgerSlot s k)) →
    Fits c (body.length + 512) → Completes c 0x903 (.attest c nonce mask) (okWith (body ++ fit 512 (Config.rsaSign body)) 0 s) s) ∧
  (∀ c s w o n item, (w = 0 ∧ item = fit 2224 ownChain) ∨ (w = 1 ∧ item = authorityBytes s) ∨ (w = 2 ∧ item = anchorBytes s) ∨
      (w = 3 ∧ item = revokedBytes s) → o + n ≤ item.length → Fits c n → Completes c 0x904 (.certRead c w o n) (okWith (sliceAt item o n) 0 s) s) ∧
  (∀ c s w o n, 3 < w → Completes c 0x904 (.certRead c w o n) (badArg 0 s) s) ∧
  (∀ c s f n, 16 < f + n → Completes c 0x905 (.ledgerRead c 0 f n) (badArg 4 s) s) ∧
  (∀ c s f n, f + n ≤ 16 → Fits c (64 * n) →
    Completes c 0x905 (.ledgerRead c 0 f n) (okWith ((List.range n).flatMap fun i => digestBytes (ledgerSlot s (f + i))) 0 s) s) ∧
  (∀ c s f n r, f + n ≤ s.trust.log.length → r = ((s.trust.log.drop f).take n).flatMap logBytes → Fits c r.length →
    Completes c 0x905 (.ledgerRead c 1 f n) (okWith r 0 s) s) ∧
  (∀ c s o n, n ≤ 4064 → Fits c n →
    (o + n ≤ 0x1000000 → Completes c 0xA00 (.journalRead c o n) (okWith (mread s.tray.journal o n) 0 s) s) ∧
    (o + n ≤ 0x2000000 → Completes c 0xA01 (.blackboxRead c o n) (okWith (mread s.tray.blackbox o n) 0 s) s)) ∧
  (∀ c s o n, (0x1000000 < o + n → Completes c 0xA00 (.journalRead c o n) (badArg 0 s) s) ∧
    (0x2000000 < o + n → Completes c 0xA01 (.blackboxRead c o n) (badArg 0 s) s))

/-! ### The staging bank (12, 06, 07, 08, 09) -/

/-- Staging (R333, R336, R339): each table write changes exactly the entries it names, of the bank staged or of a copy of the committed one, and counts its
items (R140, R160, R163, R175, R179, R187, R276); standing orders bar what gives more before anything is staged (R315, R330 step 7); a staged register takes the bits in MASK; a loaded program takes its slots (R235, R236); the grid is
assigned once and takes effect whole at the boundary (R475). -/
def Obligations.StagedTables : Prop :=
  (∀ c s h l, MayStage c s → WriteHdr h 4096 l.length → h.select = 0 →
    (∀ (k : Nat) (v : BitVec 16), l[k]? = some v → bitsOf v.toNat 3 1 ≠ 7 ∧ (v.getLsbD 0 = true →
      (h.first + k = ownRack s ↔ bitsOf v.toNat 3 1 = 0) ∧ rackFits s (h.first + k) = true ∧
      ∀ a, firstAxis (h.first + k) (ownRack s) = some a → axisOfDir (bitsOf v.toNat 3 1) = a)) →
    ∃ b, Completes c 0x201 (.rackWrite c h l) (okAns (stage c l.length b s)) s ∧ b = { stagedBank s with rack := b.rack } ∧
      (∀ (k : Nat) (v : BitVec 16), l[k]? = some v → rackEntry b (h.first + k) = { valid := v.getLsbD 0, dir := bitsOf v.toNat 3 1 }) ∧
      ∀ i, i < h.first ∨ h.first + l.length ≤ i → rackEntry b i = rackEntry (stagedBank s) i) ∧
  (∀ c s h l, MayStage c s → WriteHdr h 16 l.length → 1 ≤ h.select → h.select ≤ 7 →
    ∃ b, Completes c 0x202 (.sprayWrite c h l) (okAns (stage c l.length b s)) s ∧ b = { stagedBank s with spray := b.spray } ∧
      (∀ (k : Nat) (w : BitVec 8), l[k]? = some w → sprayWeight b h.select (h.first + k) = w.toNat % 16) ∧
      ∀ d i, i < 16 → d ≠ h.select ∨ i < h.first ∨ h.first + l.length ≤ i → sprayWeight b d i = sprayWeight (stagedBank s) d i) ∧
  (∀ c s h l, MayStage c s → WriteHdr h 1024 l.length → h.select = 0 → h.first ≠ 0 →
    (s.pm.standing = true → ∀ (k : Nat) (m : BitVec 128), l[k]? = some m → gains (maskEntry s.bank (h.first + k)) m = false) →
    ∃ b, Completes c 0x203 (.maskWrite c h l) (okAns (stage c l.length b s)) s ∧ b = { stagedBank s with mask := b.mask } ∧
      (∀ (k : Nat) (m : BitVec 128), l[k]? = some m → maskEntry b (h.first + k) = m) ∧
      ∀ i, i < h.first ∨ h.first + l.length ≤ i → maskEntry b i = maskEntry (stagedBank s) i) ∧
  (∀ c s h l, MayStage c s → WriteHdr h 4096 l.length → h.select = 0 → h.first ≠ 0 →
    (s.pm.standing = true → ∀ (k : Nat) (x : PlotEntry × Bool), l[k]? = some x → (x.1.valid = true → (plotEntry s.bank (h.first + k)).valid = true) ∧
      gains (plotEntry s.bank (h.first + k)).rackMask x.1.rackMask = false ∧ gains (plotEntry s.bank (h.first + k)).slotMask x.1.slotMask = false) →
    ∃ b, Completes c 0x300 (.plotWrite c h l) (okAns (stage c l.length b s)) s ∧ b = { stagedBank s with plot := b.plot } ∧
      (∀ (k : Nat) (x : PlotEntry × Bool), l[k]? = some x → plotEntry b (h.first + k) = x.1) ∧
      ∀ i, i < h.first ∨ h.first + l.length ≤ i → plotEntry b i = plotEntry (stagedBank s) i) ∧
  (∀ c s h l m, (masksBarred h l s = true → Completes c 0x203 (.maskWrite c h l) (refuse .notReady s) s) ∧
    (plotsBarred h m s = true → Completes c 0x300 (.plotWrite c h m) (refuse .notReady s) s)) ∧
  (∀ c s h l, MayStage c s → WriteHdr h 8 l.length → h.select = 0 →
    (∀ (k : Nat) (x : CopySession), l[k]? = some x → x.kind < 3 ∧ (x.kind ≤ 1 → isMaint x.port = false) ∧ x.sampleK ≤ 16 ∧
      (x.enable = true → x.destRing = false → 240 + x.mport ∉ s.sw.testPorts)) →
    ∃ b, Completes c 0x402 (.copyWrite c h l) (okAns (stage c l.length b s)) s ∧ b = { stagedBank s with copy := b.copy } ∧
      (∀ (k : Nat) (x : CopySession), l[k]? = some x → copyOf b (h.first + k) = { x with reservedZero := true }) ∧
      ∀ i, i < h.first ∨ h.first + l.length ≤ i → copyOf b i = copyOf (stagedBank s) i) ∧
  (∀ c s h l b, MayStage c s → h.select ≤ 255 → WriteHdr h 200 l.length → applyEntries (slotEntryCheck h.select) h.first l (stagedBank s) = .ok b →
    Completes c 0x400 (.slotmapWrite c h l) (okAns (stage c l.length b s)) s) ∧
  (∀ out b b' i (e : SlotEntry), b' = { b with slot := tset ⟨false, 0, 0⟩ b.slot (200 * out + i) e } → e.source < 264 →
    (e.valid = true → i ≠ 199 ∧ validSlots b' out ≤ 160 ∧ ((slotEntry b out i).valid = true → (slotEntry b out i).route = e.route) ∧
      (e.source < 256 → sameInput b out i e.source = none)) → slotEntryCheck out b i e = .ok b' ∧ slotEntry b' out i = e) ∧
  (∀ c s h l b, MayStage c s → h.select = 0 → WriteHdr h 4 l.length → applyEntries windowEntryCheck h.first l (stagedBank s) = .ok b →
    Completes c 0x404 (.windowWrite c h l) (okAns (stage c l.length b s)) s) ∧
  (∀ b b' i (w : WindowRec), b' = { b with window := tset ⟨0, 0, false, true⟩ b.window i { w with reservedZero := true } } →
    (w.enable = true → w.base % 2 ^ 30 = 0 ∧ 1 ≤ w.sizeGib ∧ w.sizeGib ≤ 4096) → windowsOk b' = true →
    windowEntryCheck b i w = .ok b' ∧ windowRec b' i = { w with reservedZero := true }) ∧
  (∀ c s o off v m b, MayStage c s → regWriteCheck true o off m.toNat s = none →
    stageWord (stagedBank s) o off (merged (readWord (stagedBank s) s o off) v.toNat m.toNat) = some b → ringMove (stagedBank s) b s = none →
    Completes c 0x100 (.stageReg c o off v m) (okAns (stage c 1 b s)) s) ∧
  (∀ c s (v : Word), MayStage c s → v.toNat % 65536 ≠ 0 → Completes c 0x100 (.stageReg c 6 12 v 0xFFFF)
    (okAns (stage c 1 { stagedBank s with regs := { (stagedBank s).regs with slowDuration := v.toNat % 65536 } } s)) s) ∧
  (∀ c s p, MayStage c s → 32 ≤ p.slot → programFields p = none → programCode p = none →
    binder s (programsIn (stagedBank s) p.slot p.span ++ programsIn s.bank p.slot p.span) = none →
    ∃ u, Completes c 0x504 (.progLoad c p) (okAns u) s ∧ tget none u.staging.bank.prog p.slot = some p ∧
      u.staging.progDigests = s.staging.progDigests ++ [(programInfo p, sha (programBytes p))] ∧ u.staging.holder = some c.box ∧
      u = { s with staging := u.staging }) ∧
  (∀ c s k p, MayStage c s → s.staging.holder = none → k < 32 → p.slot < 32 → Completes c 0x505 (.progUnload c k) (refuse .notPermitted s) s ∧
    Completes c 0x504 (.progLoad c p) (refuse .notPermitted s) s) ∧
  (∀ c s k p, MayStage c s → 32 ≤ k → tget none (stagedBank s).prog k = some p → binder s [(k, p)] = none →
    ∃ u, Completes c 0x505 (.progUnload c k) (okAns u) s ∧ tget none u.staging.bank.prog k = none ∧
      (∀ j, j ≠ k → tget none u.staging.bank.prog j = tget none (stagedBank s).prog j) ∧
      u.staging.progDigests = s.staging.progDigests ++ [(programInfo p, sha (leBytes 1 k))] ∧ u = { s with staging := u.staging }) ∧
  (∀ c s l, s.ident.learned = false → s.gmi.gridPending = none → gridFail l = none →
    Completes c 0x200 (.gridAssign c l) (okAns { s with gmi := { s.gmi with gridPending := some l, gridRound := roundNo s } }) s) ∧
  (∀ c s l, s.ident.learned = true → Completes c 0x200 (.gridAssign c l) (refuse .notPermitted s) s) ∧
  (∀ s, s.gmi.gridPending = none ∨ roundNo s ≤ s.gmi.gridRound → exec .gridAssignEffect s = .next s) ∧
  (∀ s l, s.gmi.gridPending = some l → s.gmi.gridRound < roundNo s → ∃ t, exec .gridAssignEffect s = .next t ∧ t.gmi.gridPending = none ∧
    t.ident = { s.ident with
      learned := true, x := l.getD 0 0, y := l.getD 1 0, z := l.getD 2 0, lenX := l.getD 3 0 - 1, lenY := l.getD 4 0 - 1, lenZ := l.getD 5 0 - 1,
      dlX := l.getD 6 0, dlY := l.getD 7 0, dlZ := l.getD 8 0 } ∧ t.bank = s.bank ∧ t.trust.logCount = s.trust.logCount + 1)

/-- The bank and the groups (R200, R203, R242 to R247, R333 to R335): COMMIT seals a drained bank for its boundary and names what is not drained; FORCE
seals it all the same; the whole bank switches at the boundary; DISCARD and the expiry leave the committed bank as it is; a group that may open is
STAGED with its pages; a close begins at once and takes effect with the bank. -/
def Obligations.StagedBank : Prop :=
  (∀ c s n probe r, s.staging.sealed = none → bankEmpty s = false → newWindows s = [] ∨ (probe = true ∧ cxlUp s = true) →
    (n = 0 ∧ 128 ≤ cyclesLeft s ∧ r = roundNo s + 1) ∨ (roundNo s + 2 ≤ n ∧ s.mer.timed = true ∧ r = n) →
    (pendingRemovals s = 0 → ∃ u, Completes c 0x102 (.commit c n probe) (okWith (commitResponse r 0) 0 u) s ∧
      u.staging = { s.staging with sealed := some r, sealedTimed := decide (n ≠ 0), forced := false, lastRound := u.staging.lastRound } ∧
      u = { s with staging := u.staging }) ∧
    (pendingRemovals s ≠ 0 → ∃ u f, Completes c 0x102 (.commit c n probe)
        { status := .drainRequired, response := commitResponse f (pendingRemovals s), post := u } s ∧
      u.staging = { s.staging with lastRound := u.staging.lastRound } ∧
      u = { s with staging := u.staging, draw := s.draw + 1, route := { s.route with draining := true, drainArmed := true } }) ∧
    (3 ≤ authCode (granted s c) → ∃ u, Completes c 0x102 (.commitForce c n probe) (okWith (commitResponse r (pendingRemovals s)) 0 u) s ∧
      u.staging = { s.staging with sealed := some r, sealedTimed := decide (n ≠ 0), forced := true, lastRound := u.staging.lastRound } ∧
      u = { s with staging := u.staging }) ∧
    (authCode (granted s c) < 3 → ∃ u, Completes c 0x102 (.commitForce c n probe) (refuse .notPermitted u) s ∧
      u = { s with staging := { s.staging with lastRound := u.staging.lastRound } })) ∧
  (∀ s r, s.staging.sealed = some r → r ≤ roundNo s → s.ident.skeleton = false → ∃ t, exec .bankSwitch s = .next t ∧
    (s.staging.holder ≠ none → t.bank = { s.staging.bank with slot := t.bank.slot }) ∧ (s.staging.holder = none → t.bank = { s.bank with slot := t.bank.slot }) ∧
    t.staging = {} ∧ t.route.draining = false ∧ t.route.drainArmed = false) ∧
  (∀ s r, s.staging.sealed = some r → roundNo s < r → exec .bankSwitch s = .next s) ∧
  (∀ c s, s.staging.holder = some c.box ∨ 3 ≤ authCode (granted s c) → bankEmpty s = false →
    s.staging.sealed = none ∨ (∃ r, s.staging.sealed = some r ∧ roundNo s + 1 < r) →
    Completes c 0x103 (.discard c) (okAns (discardStaging s)) s ∧ (discardStaging s).staging = { closes := s.staging.closes.filter (·.2) } ∧
    (discardStaging s).bank = s.bank) ∧
  (∀ c s, bankEmpty s = true → Completes c 0x103 (.discard c) (okAns s) s) ∧
  (∀ c s, bankEmpty s = false → s.staging.holder ≠ some c.box → authCode (granted s c) < 3 → Completes c 0x103 (.discard c) (refuse .notPermitted s) s) ∧
  (∀ c s r, bankEmpty s = false → s.staging.holder = some c.box → s.staging.sealed = some r → (r ≤ roundNo s ∨ r = roundNo s + 1 ∧ cyclesLeft s < 128) →
    Completes c 0x103 (.discard c) (refuse .notReady { s with staging := { s.staging with lastRound := roundNo s } }) s) ∧
  (∀ s b, s.staging.holder = some b →
    (s.staging.sealed ≠ none → exec .stagingBankExpiry s = .next s) ∧
    (s.staging.sealed = none → s.staging.lastRound + 2 ^ 20 ≤ roundNo s → ∃ t, exec .stagingBankExpiry s = .next t ∧ t.bank = s.bank ∧ t.staging.holder = none ∧
      t.staging.opens = [] ∧ Reports (discardStaging s) t) ∧
    (roundNo s < s.staging.lastRound + 2 ^ 20 → exec .stagingBankExpiry s = .next s)) ∧
  (∀ c s, ∃ f g, Completes c 0x104 (.stageStatus c)
    (okWith (leBytes 8 (match s.staging.holder with | some b => boxNo b | none => f) ++ leBytes 8 s.staging.items ++ leBytes 8 (bit s.route.draining) ++
      leBytes 8 (s.staging.sealed.getD g)) 0 { s with draw := s.draw + 2 }) s) ∧
  (∀ c s r l, s.pm.standing = true → Completes c 0x500 (.groupOpen c r l) (refuse .notReady s) s) ∧
  (∀ c s r l x, MayStage c s → s.staging.holder = none → s.pm.standing = false → (groupFields s r).find? (fun x => !x.2) = some x →
    Completes c 0x500 (.groupOpen c r l) (badArg x.1 s) s) ∧
  (∀ c s b, s.staging.holder = some b → b ≠ c.box → ∀ h l o off v m p,
    Completes c 0x201 (.rackWrite c h l) (busy 13 (boxNo b) s) s ∧ Completes c 0x100 (.stageReg c o off v m) (busy 13 (boxNo b) s) s ∧
    Completes c 0x504 (.progLoad c p) (busy 13 (boxNo b) s) s) ∧
  (∀ c s r, s.staging.holder = some c.box → s.staging.sealed = some r → ∀ h l o off v m p u, u = { s with staging := { s.staging with lastRound := roundNo s } } →
    Completes c 0x201 (.rackWrite c h l) (refuse .notReady u) s ∧ Completes c 0x100 (.stageReg c o off v m) (refuse .notReady u) s ∧
    Completes c 0x504 (.progLoad c p) (refuse .notReady u) s) ∧
  (∀ c s r l o b, MayStage c s → s.pm.standing = false → (groupFields s r).find? (fun x => !x.2) = none →
    l.length = membersHere r → memberFields l = none → plotAllows s r = true → entryOf s r.group = none → (openEntries s).length < 64 →
    placeOffice s (pagesOf (regionsFor s r).1) (pagesOf (regionsFor s r).2) = some o → spillRoom s (hemOfOffice o) (regionsFor s r).1 = true →
    (r.operator = 8 → ∃ e d, dispatchGroup s r = some (e, d) ∧ (groupOf s e).office = o ∧ d.hostMask = r.hostMask) →
    placeSlots (stagedBank s) o r (routeOutputs s r) = .ok b →
    ∃ u, Completes c 0x500 (.groupOpen c r l) (okAns u) s ∧ (groupOf u (freeEntry s)).state = .staged ∧ (groupOf u (freeEntry s)).record = some (inForce s r) ∧
      openedRecord (groupOf u (freeEntry s)) = some { inForce s r with stepBytes := r.stepBytes } ∧
      (groupOf u (freeEntry s)).members = (memberSlots r).zip l ∧ (groupOf u (freeEntry s)).office = o ∧
      (∀ e, e ≠ freeEntry s → groupOf u e = groupOf s e) ∧ u.staging.bank = b ∧ u.staging.holder = some c.box ∧ u.staging.items = s.staging.items + 1 ∧
      u.bank = s.bank) ∧
  (∀ c s g e, entryOf s g = some e → 2 ≤ authCode (granted s c) ∨ senderMember s c e = true →
    ((groupOf s e).state = .running → s.staging.sealed = none → ∃ u, Completes c 0x501 (.groupClose c g) (okAns u) s ∧
      groupOf u e = { groupOf s e with state := .closing } ∧ (∀ k, k ≠ e → groupOf u k = groupOf s k) ∧
      u.staging.closes = s.staging.closes ++ [(g, decide (authCode (granted s c) < 2))] ∧ u.bank = s.bank) ∧
    ((groupOf s e).state = .staged → s.staging.sealed = none → ∃ u, Completes c 0x501 (.groupClose c g) (okAns u) s ∧ groupOf u e = {} ∧
      (∀ k, k ≠ e → groupOf u k = groupOf s k) ∧ u.staging.opens = s.staging.opens.filter (fun x => x.entry ≠ e) ∧ u.bank = s.bank) ∧
    ((groupOf s e).state = .closing ∨ (groupOf s e).state = .closed → ∃ u, Completes c 0x501 (.groupClose c g) (okAns u) s ∧ u.groups = s.groups ∧
      u.staging.closes = s.staging.closes)) ∧
  (∀ c s g m, (∀ k, c.box ≠ .ap k) → Completes c 0x502 (.groupMember c g m) (refuse .notPermitted s) s) ∧
  (∀ c s g e k m r, c.box = .ap k → entryOf s g = some e → (groupOf s e).record = some r → r.memberMask.getLsbD k = false →
    Completes c 0x502 (.groupMember c g m) (refuse .notPermitted s) s) ∧
  (∀ c s g e k m r, c.box = .ap k → entryOf s g = some e → (groupOf s e).record = some r → r.memberMask.getLsbD k = true →
    m.resultBase % 4096 = 0 → m.noticeBase % 4096 = 0 →
    ∃ u, Completes c 0x502 (.groupMember c g m) (okAns u) s ∧ GroupOnly e s u ∧ tfind (groupOf u e).pendingMembers k = some m ∧
      groupOf u e = { groupOf s e with pendingMembers := (groupOf u e).pendingMembers })

/-! ### Power (15) -/

/-- R404: RAMP_CANCEL needs operator authority; where a schedule with this SCHED_ID is held (0xFFFF_FFFF names any) every entry not yet due is dropped, a
term that moves holds its present value, and the command returns OK; where none is held it returns BAD_ARGUMENT with DETAIL 0. -/
def Obligations.RampCancelled : Prop :=
  opcodeLeast 0x603 = some .operator ∧
  ∀ (c : Ctx) (s : State) (k : Nat),
    ((s.pow.sched ≠ [] ∨ s.pow.schedMoving = true) → k = 0xFFFFFFFF ∨ k = s.pow.schedId → ∃ u, Completes c 0x603 (.rampCancel c k) (okAns u) s ∧
      u.pow.sched = [] ∧ u.pow.schedMoving = false ∧ u.pow.moveRate = 0 ∧ u.pow.ceil = s.pow.ceil ∧ u.pow.accRate = 0 ∧ accRampNow u = accRampNow s ∧
      (s.pow.moveRate = 0 → u.pow.rampMod = s.pow.rampMod) ∧ u = { s with pow := u.pow }) ∧
    ((s.pow.sched = [] ∧ s.pow.schedMoving = false) ∨ (k ≠ 0xFFFFFFFF ∧ k ≠ s.pow.schedId) →
      Completes c 0x603 (.rampCancel c k) (badArg 0 s) s)

/-- Caps and ramps (R390 to R404): CAP_SET and the partner's tray caps wait for their boundary, and for the end of standing orders, and then set their term; a cap letter carries the cap in
force and is resent until acknowledged; the governor moves one lever at a time; a ramp schedule is checked whole and replaces what it overlaps,
and its entries set the RAMP terms at their Rounds. -/
def Obligations.CapsAndRamps : Prop :=
  (∀ c s sc i v n z, capFields sc i v = none → (s.pm.standing = true → isHb c.box = false) → n = 0 ∨ (roundNo s + 2 ≤ n ∧ s.mer.timed = true) →
    ∃ k : TimedCap, k = {
      round := if n = 0 then nextSlotted s else n, timed := decide (n ≠ 0), term := if isSb c.box then 0 else if isFm c.box then 1 else 2, scope := sc,
      index := i, permille := v } ∧
    (sc = 0 ∨ s.pm.partnerLost = true → ∃ u, Completes c 0x600 (.capSet c sc i v n z) (okAns u) s ∧
      u.pow = { s.pow with timedCaps := s.pow.timedCaps ++ [k] } ∧ Reports { s with pow := u.pow } u) ∧
    (sc ≠ 0 → s.pm.partnerLost = false → Runs c 0x600 s → ∃ u x, exec (.capSet c sc i v n z) s = .next u ∧ x.2 = (roundNo s, some c) ∧
      x.1 = { scope := sc, index := i, permille := v, term := k.term, atRound := n, tag := c.tag } ∧ u.pm.trayCaps = s.pm.trayCaps ++ [x] ∧
      u.pow = { s.pow with timedCaps := s.pow.timedCaps ++ [k] } ∧
      Answers { s with pow := u.pow, pm := { s.pm with trayCaps := u.pm.trayCaps } } u)) ∧
  (∀ c s sc i v n z, s.pm.standing = true → isHb c.box = true → Completes c 0x600 (.capSet c sc i v n z) (refuse .notReady s) s) ∧
  (∀ c s sc i v n z d, capFields sc i v = some d → (s.pm.standing = true → isHb c.box = false) →
    Completes c 0x600 (.capSet c sc i v n z) (badArg d s) s) ∧
  (∀ c s sc i v n z, capFields sc i v = none → (s.pm.standing = true → isHb c.box = false) → n ≠ 0 →
    (n < roundNo s + 2 → Completes c 0x600 (.capSet c sc i v n z) (badArg 8 s) s) ∧
    (roundNo s + 2 ≤ n → s.mer.timed = false → Completes c 0x600 (.capSet c sc i v n z) (refuse .notReady s) s)) ∧
  (∀ s r, s.ident.skeleton = false → triadRuns s = true → capFields r.scope r.index r.permille = none → r.scope ≠ 0 → r.term ≤ 2 →
    (s.pm.standing = true → r.term ≠ 2) → r.atRound = 0 ∨ (roundNo s + 2 ≤ r.atRound ∧ s.mer.timed = true) →
    ∃ u k, exec (.trayCapReceive r) s = .next u ∧ u.pow = { s.pow with timedCaps := s.pow.timedCaps ++ [k] } ∧ k.term = r.term ∧ k.scope = r.scope ∧
      k.index = r.index ∧ k.permille = r.permille ∧ k.round = (if r.atRound = 0 then nextSlotted s else r.atRound) ∧
      Sends { s with pow := u.pow } u) ∧
  (∀ s r, s.ident.skeleton = false → triadRuns s = false → exec (.trayCapReceive r) s = .next s) ∧
  (∀ s r, s.ident.skeleton = true → exec (.trayCapReceive r) s = .next (sendPartner 4 (trayCapBytes r .skeleton) s)) ∧
  (∀ s r, s.ident.skeleton = false → triadRuns s = true → (capFields r.scope r.index r.permille ≠ none ∨ r.scope = 0 ∨ 2 < r.term) ∨
      (s.pm.standing = true ∧ r.term = 2) ∨ (r.atRound ≠ 0 ∧ (r.atRound < roundNo s + 2 ∨ s.mer.timed = false)) →
    ∃ u, exec (.trayCapReceive r) s = .next u ∧ Sends s u) ∧
  (∀ s r st, s.pm.trayCaps.find? (fun y => y.1 = r) = none → exec (.trayCapAckReceive r st) s = .next s) ∧
  (∀ s r st x c, s.pm.trayCaps.find? (fun y => y.1 = r) = some x → x.2.2 = some c →
    exec (.trayCapAckReceive r st) s = .next (complete c 0x600 (refuse st { s with pm := { s.pm with trayCaps := s.pm.trayCaps.erase x } }))) ∧
  (∀ s tag x, s.pm.trayCaps.find? (fun y => y.1.tag = tag && roundNo s ≥ y.2.1 + 2) = some x → ∃ u, exec (.trayCapResend tag) s = .next u ∧
    u.pm.trayCaps = s.pm.trayCaps.map (fun y => if y = x then (x.1, roundNo s, x.2.2) else y) ∧
    Sends { s with pm := { s.pm with trayCaps := u.pm.trayCaps } } u) ∧
  (∀ s tag, s.pm.trayCaps.find? (fun y => y.1.tag = tag && roundNo s ≥ y.2.1 + 2) = none → exec (.trayCapResend tag) s = .next s) ∧
  (∀ s, s.pm.standing = true → exec .timedCapDue s = .next s) ∧
  (∀ s, s.pm.standing = false → ∃ u, exec .timedCapDue s = .next u ∧ u.pow.timedCaps = s.pow.timedCaps.filter (fun k => k.round > roundNo s) ∧
    u = { s with
      mer := { s.mer with holdoverLog := u.mer.holdoverLog }, pow := { s.pow with timedCaps := u.pow.timedCaps, terms := u.pow.terms, acc := u.pow.acc } } ∧
    (∀ k, s.pow.timedCaps.filter (fun k => k.round ≤ roundNo s) = [k] →
      (k.scope = 0 → u.pow.terms = setTerm k.term k.permille s.pow.terms ∧ u.pow.acc = s.pow.acc) ∧
      (k.scope = 1 → (accOf u k.index).terms = setTerm k.term k.permille (accOf s k.index).terms ∧ u.pow.terms = s.pow.terms ∧
        ∀ j, j ≠ k.index → accOf u j = accOf s j) ∧
      (k.scope = 2 → (∀ j, j < 16 → (accOf u j).terms = setTerm k.term k.permille (accOf s j).terms) ∧ u.pow.terms = s.pow.terms))) ∧
  (∀ s i, sendsCaps s = true → i ≤ 15 → admitted s (homeBase s + i) = true →
    ((accOf s i).due = true ∨ (accOf s i).known ≠ capToTell s i →
      ((((accOf s i).capSeq + 1) % 65536 + 65536 - (accOf s i).ackedSeq) % 65536 < 32768) → ∃ u, exec (.capLetterSend i) s = .next u ∧
      (accOf u i).capSeq = ((accOf s i).capSeq + 1) % 65536 ∧ (accOf u i).known = capToTell s i ∧ (accOf u i).acked = false ∧ (accOf u i).due = false ∧
      (accOf u i).resends = 0 ∧ (accOf u i).sentRound = roundNo s ∧
      (accOf u i).letter = capLetterBytes (accOf u i).capSeq (capToTell s i) (capCause s i).2 (capCause s i).1
        (if (capCause s i).1 then 0 else s.bank.regs.accRamp) 0 s.pm.epoch ∧
      (∀ j, j ≠ i → accOf u j = accOf s j) ∧ Sends { s with pow := { s.pow with acc := u.pow.acc } } u) ∧
    ((accOf s i).due = false → (accOf s i).known = capToTell s i → entryToAnnounce s i = none → exec (.capLetterSend i) s = .next s) ∧
    (∀ e, (accOf s i).due = false → (accOf s i).known = capToTell s i → entryToAnnounce s i = some e →
      (((accOf s i).capSeq + 1) % 65536 + 65536 - (accOf s i).ackedSeq) % 65536 < 32768 → ∃ u, exec (.capLetterSend i) s = .next u ∧
      (accOf u i).announced = e.atRound ∧ (accOf u i).known = (accOf s i).known ∧
      (accOf u i).pendingCap = effAccWith s i e.accPermille s.pow.protect ∧
      (accOf u i).letter = capLetterBytes (((accOf s i).capSeq + 1) % 65536) (effAccWith s i e.accPermille s.pow.protect) 1 false e.accRate e.atRound s.pm.epoch ∧
      (∀ j, j ≠ i → accOf u j = accOf s j) ∧ Sends { s with pow := { s.pow with acc := u.pow.acc } } u)) ∧
  (∀ s i, sendsCaps s = false ∨ 15 < i ∨ admitted s (homeBase s + i) = false → exec (.capLetterSend i) s = .next s) ∧
  (∀ s i, sendsCaps s = true → (accOf s i).acked = false → (accOf s i).letter ≠ [] →
    ((accOf s i).resends < 3 → (accOf s i).sentRound + s.bank.regs.capAckTimeout ≤ roundNo s → ∃ u, exec (.capAckTimeout i) s = .next u ∧
      accOf u i = { accOf s i with resends := (accOf s i).resends + 1, sentRound := roundNo s } ∧ Sends { s with pow := { s.pow with acc := u.pow.acc } } u) ∧
    (3 ≤ (accOf s i).resends → (accOf s i).unacked = false → (accOf s i).sentRound + s.bank.regs.capAckTimeout ≤ roundNo s →
      ∃ u, exec (.capAckTimeout i) s = .next u ∧ accOf u i = { accOf s i with unacked := true, sentRound := roundNo s } ∧
      Reports { s with pow := { s.pow with acc := u.pow.acc } } u)) ∧
  (∀ s i, sendsCaps s = true → (accOf s i).acked = false → (accOf s i).letter ≠ [] → 3 ≤ (accOf s i).resends → (accOf s i).unacked = true →
    (accOf s i).sentRound + max 1024 s.bank.regs.capAckTimeout ≤ roundNo s → ∃ u, exec (.capAckTimeout i) s = .next u ∧
      accOf u i = { accOf s i with sentRound := roundNo s } ∧ Sends { s with pow := { s.pow with acc := u.pow.acc } } u) ∧
  (∀ s i, sendsCaps s = false ∨ (accOf s i).letter = [] → exec (.capAckTimeout i) s = .next s ∧ exec (.capRefresh i) s = .next s) ∧
  (∀ s i, (accOf s i).acked = true → exec (.capAckTimeout i) s = .next s) ∧
  (∀ s i, roundNo s < (accOf s i).refreshRound + 16384 → exec (.capRefresh i) s = .next s) ∧
  (∀ s i, sendsCaps s = true → (accOf s i).letter ≠ [] → (accOf s i).refreshRound + 16384 ≤ roundNo s → ∃ u, exec (.capRefresh i) s = .next u ∧
    (accOf u i).refreshRound = roundNo s ∧ (accOf u i).capSeq = (accOf s i).capSeq ∧
    (5 ≤ (accOf s i).letter.length → ((accOf u i).letter.getD 4 0).toNat % 16 = 5) ∧ Sends { s with pow := { s.pow with acc := u.pow.acc } } u) ∧
  (∀ c s k q e w, c.box = .ap k → homeBase s ≤ k → k < homeBase s + 16 → ∃ u, Completes c 0x601 (.capReadAck c q e w)
      (okWith (fit 32 (accOf s (k - homeBase s)).letter) 0 u) s ∧ (accOf u (k - homeBase s)).drawW = w ∧
    (q = (accOf s (k - homeBase s)).capSeq ∧ e = s.pm.epoch → (accOf u (k - homeBase s)).acked = true ∧ (accOf u (k - homeBase s)).ackedSeq = q % 65536 ∧
      (accOf u (k - homeBase s)).unacked = false) ∧
    (e ≠ s.pm.epoch → accOf u (k - homeBase s) = { accOf s (k - homeBase s) with drawW := w }) ∧
    (q ≠ (accOf s (k - homeBase s)).capSeq → accOf u (k - homeBase s) = { accOf s (k - homeBase s) with
      drawW := w, ackedSeq := (accOf u (k - homeBase s)).ackedSeq }) ∧
    (∀ j, j ≠ k - homeBase s → accOf u j = accOf s j) ∧ u = { s with pow := { s.pow with acc := u.pow.acc } }) ∧
  (∀ c s q e w, (∀ k, c.box ≠ .ap k) → Completes c 0x601 (.capReadAck c q e w) (badArg 0 s) s) ∧
  (∀ s w t, ((w * 1000000 + 26000000 : Nat) : Int) ≤ s.pow.hi → s.pow.belowSince = some t → t + 1024 ≤ s.mer.ns →
    (0 < s.pow.suppress → exec (.governorAdjust w) s = .next { s with pow := { s.pow with belowSince := some s.mer.ns, suppress := s.pow.suppress - 1 } }) ∧
    (s.pow.suppress = 0 → 0 < s.pow.duty →
      exec (.governorAdjust w) s = .next { s with pow := { s.pow with belowSince := some s.mer.ns, duty := s.pow.duty - 1 } })) ∧
  (∀ s w, ((w * 1000000 + 26000000 : Nat) : Int) ≤ s.pow.hi →
    (s.pow.belowSince = none → exec (.governorAdjust w) s = .next { s with pow := { s.pow with belowSince := some s.mer.ns } }) ∧
    (∀ t, s.pow.belowSince = some t → s.mer.ns < t + 1024 → exec (.governorAdjust w) s = .next s)) ∧
  (∀ s w, ((w * 1000000 : Nat) : Int) ≤ s.pow.hi → s.pow.hi < ((w * 1000000 + 26000000 : Nat) : Int) →
    exec (.governorAdjust w) s = .next { s with pow := { s.pow with belowSince := none } }) ∧
  (∀ s w, s.pow.hi < ((w * 1000000 : Nat) : Int) →
    (0 < s.pow.fillW → exec (.governorAdjust w) s = .next { s with pow := { s.pow with belowSince := none, fillW := 0, smooth := false } }) ∧
    (s.pow.fillW = 0 → s.pow.duty < 15 → exec (.governorAdjust w) s = .next { s with pow := { s.pow with belowSince := none, duty := s.pow.duty + 1 } }) ∧
    (s.pow.fillW = 0 → 15 ≤ s.pow.duty → s.pow.suppress < 12 →
      exec (.governorAdjust w) s = .next { s with pow := { s.pow with belowSince := none, suppress := s.pow.suppress + 1 } })) ∧
  (∀ s r, s.pow.overSince = some r → r + 16 ≤ roundNo s → s.pow.unmet = false → ∃ u, exec .capUnmet s = .next u ∧ u.pow.unmet = true ∧
    Reports { s with pow := { s.pow with unmet := true } } u) ∧
  (∀ s, s.pow.overSince = none ∨ s.pow.unmet = true → exec .capUnmet s = .next s) ∧
  (∀ c s k es, s.pm.standing = false → k ≠ 0xFFFFFFFF → es ≠ [] → es.length ≤ 64 → rampBad s 0 0 es = none → s.mer.timed = true →
    Completes c 0x602 (.rampPost c k es) (okAns { s with pow := { s.pow with
      schedId := k, sched := s.pow.sched.filter (fun e => e.atRound < (es.map (·.atRound)).headD 0) ++ es, schedIndex := 0 } }) s) ∧
  (∀ c s k es, s.pm.standing = true → Completes c 0x602 (.rampPost c k es) (refuse .notReady s) s) ∧
  (∀ c s es, s.pm.standing = false → Completes c 0x602 (.rampPost c 0xFFFFFFFF es) (badArg 0 s) s) ∧
  (∀ c s k es, s.pm.standing = false → k ≠ 0xFFFFFFFF → (es = [] ∨ 64 < es.length) → Completes c 0x602 (.rampPost c k es) (badArg 4 s) s) ∧
  (∀ c s k es n, s.pm.standing = false → k ≠ 0xFFFFFFFF → es ≠ [] → es.length ≤ 64 → rampBad s 0 0 es = some n →
    Completes c 0x602 (.rampPost c k es) (badArg n s) s) ∧
  (∀ c s k es, s.pm.standing = false → k ≠ 0xFFFFFFFF → es ≠ [] → es.length ≤ 64 → rampBad s 0 0 es = none → s.mer.timed = false →
    Completes c 0x602 (.rampPost c k es) (refuse .notReady s) s) ∧
  (∀ s, s.pow.sched = [] → exec .rampEntryDue s = .next s) ∧
  (∀ s, s.pow.sched ≠ [] ∨ s.pow.schedMoving = false ∨ s.pow.ceil ≠ ceilTarget s → exec .rampMovementEnd s = .next s) ∧
  (∀ s e es, s.pow.sched = e :: es → e.atRound ≤ roundNo s → ∃ u, exec .rampEntryDue s = .next u ∧ u.pow.sched = es ∧ u.pow.schedMoving = true ∧
    u.pow.schedIndex = s.pow.schedIndex + 1 ∧ u.pow.rampMod = (if e.modPermille = 0xFFFF then s.pow.rampMod else e.modPermille) ∧
    u.pow.rampAcc = (if e.accPermille = 0xFFFF then s.pow.rampAcc else e.accPermille) ∧
    (e.modPermille ≠ 0xFFFF → u.pow.moveRate = e.modRate) ∧
    (e.modPermille ≠ 0xFFFF → e.modRate = 0 → u.pow.ceil = ceilTarget u ∧ u.pow.stepWindowEnd = roundNo s + 64) ∧
    (e.modPermille ≠ 0xFFFF → e.modRate ≠ 0 → u.pow.ceil = s.pow.ceil) ∧
    (∀ i, i < 16 → accOf u i = (if e.accPermille ≠ 0xFFFF ∧ (accOf s i).pends e.atRound = true then { accOf s i with known := (accOf s i).pendingCap }
      else accOf s i)) ∧
    Reports { s with pow := u.pow, mer := { s.mer with holdoverLog := u.mer.holdoverLog } } u) ∧
  (∀ s e es, s.pow.sched = e :: es → roundNo s < e.atRound → exec .rampEntryDue s = .next s) ∧
  (∀ s, s.pow.sched = [] → s.pow.schedMoving = true → s.pow.ceil = ceilTarget s → accRampNow s = s.pow.rampAcc →
    ∃ u, exec .rampMovementEnd s = .next u ∧ u.pow.schedMoving = false ∧ Reports { s with pow := { s.pow with schedMoving := false, accRate := 0 } } u)

/-- The ladder and protection (R386 to R389, R405 to R408, R442 to R446, R459, R460): a LADDER_SET is checked and begins, LEAVING precedes an entry, an entry
and an exit change the state with what sleeps and wakes there; droop, coolant, leak and thermal conditions act at their thresholds and release
after their holds; skeleton service freezes the cap at 400 with FAULT_N asserted. -/
def Obligations.LadderAndProtection : Prop :=
  (∀ c s, s.pow.ladder ≤ 4 → Completes c 0x604 (.ladderSet c s.pow.ladder 0) (okAns s) s) ∧
  (∀ c s t n, t ≤ 4 → t ≠ s.pow.ladder → (s.pow.ladder < t → groupInProgress s = none) → (t < s.pow.ladder → exitBarred c t s = false) →
    (n = 0 → ∃ u, Completes c 0x604 (.ladderSet c t n) (okAns u) s ∧ u.pow.ladder = s.pow.ladder ∧
      u.pow.move = some { target := t, atRound := nextSlotted s, leavingRound := none, protective := false } ∧ u.pow.timedLadder = s.pow.timedLadder) ∧
    (roundNo s + 2 ≤ n → s.mer.timed = true → Completes c 0x604 (.ladderSet c t n) (okAns { s with pow := { s.pow with timedLadder := some (t, n) } }) s)) ∧
  (∀ c s t n, 4 < t → Completes c 0x604 (.ladderSet c t n) (badArg 0 s) s) ∧
  (∀ c s t n, t ≤ 4 → n ≠ 0 → n < roundNo s + 2 → Completes c 0x604 (.ladderSet c t n) (badArg 8 s) s) ∧
  (∀ c s t g, t ≤ 4 → s.pow.ladder < t → groupInProgress s = some g → Completes c 0x604 (.ladderSet c t 0) (busy 11 g s) s) ∧
  (∀ c s t, t < s.pow.ladder → t ≤ 4 → exitBarred c t s = true → Completes c 0x604 (.ladderSet c t 0) (refuse .notReady s) s) ∧
  (∀ s t r, s.pow.timedLadder = some (t, r) → r ≤ roundNo s → t ≠ s.pow.ladder → (∀ m, s.pow.move = some m → m.protective = true → m.target ≤ t) →
    ∃ u, exec .timedLadderDue s = .next u ∧ u.pow.timedLadder = none ∧ u.pow.ladder = s.pow.ladder ∧
      u.pow.move = some { target := t, atRound := r, leavingRound := none, protective := false } ∧
      (s.mer.timed = true → u.mer = s.mer) ∧ (s.mer.timed = false → (0x0604, roundNo s) ∈ u.mer.holdoverLog)) ∧
  (∀ s, s.pow.timedLadder = none → exec .timedLadderDue s = .next s) ∧
  (∀ s t r, s.pow.timedLadder = some (t, r) → roundNo s < r → exec .timedLadderDue s = .next s) ∧
  (∀ s, s.pow.move = none → exec .leavingSend s = .next s ∧ exec .ladderEntry s = .next s ∧ exec .ladderExit s = .next s) ∧
  (∀ s m, s.pow.move = some m → m.leavingRound ≠ none ∨ (m.protective = false ∧ ladderLimit m.target < s.pow.ceil) → exec .leavingSend s = .next s) ∧
  (∀ s m, s.pow.move = some m → s.pow.ladder < m.target → m.leavingRound = none →
    m.protective = true ∨ (m.atRound ≤ roundNo s ∧ s.pow.ceil ≤ ladderLimit m.target) → ∃ u, exec .leavingSend s = .next u ∧
    u.pow.move = some { m with leavingRound := some (roundNo s) } ∧ (s.pow.ladder ≤ 1 → ∀ p ∈ admittedPorts s, (linkOf u p).tx.leaving = true ∧ (linkOf u p).tx.rollDue = true) ∧
    (2 ≤ s.pow.ladder → u.links = s.links) ∧ leavingNow u = true ∧
    u = { s with links := u.links, pow := { s.pow with move := u.pow.move } }) ∧
  (∀ s m r, s.pow.move = some m → s.pow.ladder < m.target → m.leavingRound = some r → r + 2 ≤ roundNo s → ∃ u, exec .ladderEntry s = .next u ∧
    u.pow.ladder = m.target ∧ u.pow.move = none ∧
    (2 ≤ m.target → ∀ h, h ≤ 1 → (memOf u h).state = (if 4 ≤ m.target then 3 else 2) ∧ (memOf u h).claims = []) ∧
    (3 ≤ m.target → u.mer.state = .keeper ∧ u.clerks = []) ∧ (4 ≤ m.target → u.cxl.mode = 0 ∧ ∀ p, (linkOf u p).disc = .dark)) ∧
  (∀ s m, s.pow.move = some m → s.pow.ladder < m.target → m.leavingRound = none → exec .ladderEntry s = .next s) ∧
  (∀ s m, s.pow.move = some m → m.target < s.pow.ladder → m.atRound ≤ roundNo s → exitHeld m.target s = true →
    exec .ladderExit s = .next { s with pow := { s.pow with move := none } }) ∧
  (∀ s m, s.pow.move = some m → m.target < s.pow.ladder → m.atRound ≤ roundNo s → exitHeld m.target s = false → ∃ u,
    exec .ladderExit s = .next u ∧ u.pow.ladder = m.target ∧ u.pow.move = none ∧ u.pow.tripped = false ∧ u.pow.stopping = false ∧
    (s.pow.stopByEn = true → s.ident.boot = 2 → s.ident.skeleton = false → s.clk.halt = false → u.ident.fault = false) ∧ (m.target ≤ 1 → 2 ≤ s.pow.ladder → ∀ h, h ≤ 1 → (memOf u h).state = 1)) ∧
  (∀ s v, v < 52000 → ∃ u, exec (.vinDroop52 v) s = .next u ∧ u.pow.droop52 = true ∧
    Reports { s with sens := { s.sens with vinMv := v }, pow := { s.pow with droop52 := true, droopRound := roundNo s } } u) ∧
  (∀ s v, v < 48000 → s.pow.droop48 = false → ∃ u, exec (.vinDroop48 v) s = .next u ∧ u.pow.droop52 = true ∧ u.pow.droop48 = true ∧
    u.pow.priorLadder = s.pow.ladder ∧ (s.pow.ladder = 0 → ∃ m, u.pow.move = some m ∧ 1 ≤ m.target ∧ m.protective = true) ∧
    (s.pow.ladder = 0 → s.pow.move = none →
      u.pow.move = some { target := 1, atRound := roundNo s, leavingRound := some (roundNo s), protective := true } ∧
      ∀ p ∈ admittedPorts s, (linkOf u p).tx.leaving = true ∧ (linkOf u p).tx.rollDue = true) ∧
    (holdupOk { s with sens := { s.sens with vinMv := v } } 8192 = true →
      u.tray.journalPending = s.tray.journalPending ++ [(1, roundNo s, s.pow.ladder)])) ∧
  (∀ s v, v < 44000 → s.pow.stopping = false → s.pow.ladder < 4 → ∃ u m, exec (.vinDroop44 v) s = .next u ∧ u.pow.stopping = true ∧ u.pow.move = some m ∧
    4 ≤ m.target ∧ m.protective = true) ∧
  (∀ s v, 52000 ≤ v → ∀ i, i = .vinDroop52 v ∨ i = .vinDroop48 v ∨ i = .vinDroop44 v → exec i s = .next s) ∧
  (∀ s, s.pow.droop52 = true ∨ s.pow.droop48 = true → s.pow.stopping = false → s.pow.droopRound + 1024 ≤ roundNo s → ∃ u, exec .droopRelease s = .next u ∧
    u.pow.droop52 = false ∧ 53000 ≤ u.sens.vinMv ∧ u.pow.droop48 = (s.pow.droop48 && decide (roundNo s < s.pow.droopRound + 2 ^ 20)) ∧
    u.pow.ladder = s.pow.ladder) ∧
  (∀ s k, k ≤ 3 → ∃ u, exec (.coolantFault k) s = .next u ∧ u.pow.coolant.getLsbD k = true ∧ u.pow.coolRound = roundNo s ∧
    (∀ j, j ≠ k → u.pow.coolant.getLsbD j = s.pow.coolant.getLsbD j) ∧
    Reports { s with pow := { s.pow with coolant := u.pow.coolant, coolRound := roundNo s } } u) ∧
  (∀ s, s.pow.coolant ≠ 0 → s.pow.leak ≠ 1 → s.pow.coolRound + 2 ^ 20 ≤ roundNo s →
    exec .coolantRelease s = .next { s with
      pow := { s.pow with coolant := 0 }, sens := { s.sens with flowOk := true, coolT := min s.sens.coolT s.bank.regs.coolTMax } }) ∧
  (∀ s, s.pow.coolant = 0 ∨ s.pow.leak = 1 ∨ roundNo s < s.pow.coolRound + 2 ^ 20 → exec .coolantRelease s = .next s) ∧
  (∀ s k, 3 < k → exec (.coolantFault k) s = .next s) ∧
  (∀ s, (s.pow.droop52 = false ∧ s.pow.droop48 = false) ∨ s.pow.stopping = true ∨ roundNo s < s.pow.droopRound + 1024 → exec .droopRelease s = .next s) ∧
  (∀ s, s.pow.thermal = false ∨ roundNo s < s.pow.thermRound + 2 ^ 20 → exec .thermalRelease s = .next s) ∧
  (∀ s v, v ≤ 4000 ∨ s.pow.leak = 2 → exec (.leakSensorFault v) s = .next { s with sens := { s.sens with leakMv := v } }) ∧
  (∀ s v, v < 1000 ∨ 4000 < v → exec (.leakLineDry v) s = .next s) ∧
  (∀ s (t : Int), -10 ≤ t → t ≤ 100 → t ≤ (s.bank.regs.coolTMax : Int) →
    exec (.coolTOutOfRange t) s = .next { s with sens := { s.sens with coolT := t } }) ∧
  (∀ s h n (r e : Int), 1 < h ∨ 2 < n ∨ (h, n) ∈ s.sens.stuck ∨ e - 10 ≤ r → exec (.sensorStuck h n r e) s = .next s) ∧
  (∀ s h l e, votedTemp s h l e ≤ 115 ∨ s.pow.tripped = true → exec (.thermalTrip h l e) s = .next (noteDie h (votedTemp s h l e) s)) ∧
  (∀ s v, 54000 ≤ v → exec (.vinBelow54V v) s = .next s) ∧
  (∀ s v, v < 1000 → ∃ u, exec (.leakWet v) s = .next u ∧ u.sens.leakMv = v ∧ u.pow.leak = 1 ∧ u.pow.leakHold = true ∧ u.pow.coolant.getLsbD 3 = true ∧
    (s.pow.ladder < 2 → ∃ m, u.pow.move = some m ∧ 2 ≤ m.target ∧ m.protective = true)) ∧
  (∀ s v, 1000 ≤ v → exec (.leakWet v) s = .next { s with sens := { s.sens with leakMv := v } }) ∧
  (∀ s v, 4000 < v → s.pow.leak ≠ 2 → ∃ u, exec (.leakSensorFault v) s = .next u ∧ u.pow.leakBlock = true ∧
    Reports { s with
      sens := { s.sens with leakMv := v },
      pow := { s.pow with leak := 2, leakBlock := true, coolRound := if s.pow.leak = 1 then roundNo s else s.pow.coolRound } } u) ∧
  (∀ s v, 1000 ≤ v → v ≤ 4000 → ∃ u, exec (.leakLineDry v) s = .next u ∧ u.pow.leak = 0 ∧ u.pow.leakBlock = false ∧ u.sens.leakMv = v ∧
    u.pow.coolant = s.pow.coolant) ∧
  (∀ s r a b, s.sens.flowOk = true → 8 ≤ r → 10 * (max a b - min a b) < b → exec (.flowOkTest r a b) s = exec (.coolantFault 2) s) ∧
  (∀ s r a b, s.sens.flowOk = false ∨ r < 8 ∨ b ≤ 10 * (max a b - min a b) → exec (.flowOkTest r a b) s = .next s) ∧
  (∀ s, exec .flowOkDeassert s = exec (.coolantFault 0) { s with sens := { s.sens with flowOk := false } }) ∧
  (∀ s (t : Int), t < -10 ∨ 100 < t ∨ (s.bank.regs.coolTMax : Int) < t →
    exec (.coolTOutOfRange t) s = exec (.coolantFault 1) { s with sens := { s.sens with coolT := t } }) ∧
  (∀ s h n (r e : Int), h ≤ 1 → n ≤ 2 → (h, n) ∉ s.sens.stuck → r < e - 10 → ∃ u, exec (.sensorStuck h n r e) s = .next u ∧ (h, n) ∈ u.sens.stuck ∧
    Reports { s with sens := { s.sens with stuck := s.sens.stuck ++ [(h, n)] } } u) ∧
  (∀ s h l e, 105 < votedTemp s h l e → ∃ u, exec (.thermalSt2 h l e) s = .next u ∧ u.pow.thermal = true ∧ u.pow.thermRound = roundNo s ∧
    u.pow.ladder = s.pow.ladder ∧ (s.pow.ladder < 2 → ∃ m, u.pow.move = some m ∧ 2 ≤ m.target ∧ m.protective = true)) ∧
  (∀ s h l e, votedTemp s h l e ≤ 105 → exec (.thermalSt2 h l e) s = .next (noteDie h (votedTemp s h l e) s)) ∧
  (∀ s, s.pow.thermal = true → s.pow.thermRound + 2 ^ 20 ≤ roundNo s → ∃ u, exec .thermalRelease s = .next u ∧ u.pow.thermal = false ∧
    u.sens.dieWest ≤ 95 ∧ u.sens.dieEast ≤ 95 ∧ u.pow.ladder = s.pow.ladder) ∧
  (∀ s h l e, 115 < votedTemp s h l e → s.pow.tripped = false → s.pow.ladder < 4 → ∃ u, exec (.thermalTrip h l e) s = .next u ∧ u.pow.tripped = true ∧
    u.pow.ladder = 4 ∧ u.cxl.mode = 0) ∧
  (∀ s k, s.ident.skeletonDue = some k → s.ident.skeleton = false → ∃ u, exec .skeletonEnter s = .next u ∧ u.ident.skeleton = true ∧
    u.ident.skeletonCause = k ∧ u.ident.skeletonDue = none ∧ u.ident.fault = true ∧ u.pow.frozen = true ∧ effModule u ≤ 400 ∧
    u.staging.holder = none ∧ u.bank = s.bank) ∧
  (∀ s, s.ident.skeletonDue = none → exec .skeletonEnter s = .next s) ∧
  (∀ s v, v < 54000 → s.tray.start ≠ .charging → exec (.vinBelow54V v) s = .next { s with sens := { s.sens with vinMv := v } }) ∧
  (∀ s v, v < 54000 → s.tray.start = .charging → ∃ u, exec (.vinBelow54V v) s = .next u ∧ u.tray.start = .keep ∧ u.sens.vinMv = v)

/-! ### Telemetry and diagnostics (16, 12) -/

/-- Settings and measurements (R168, R339, R415 to R428, R431): a setting is checked and takes effect at the boundary; a snapshot copies every counter at
its boundary; the capture writer's commands each complete (R429, R430); programmable counters are written at the boundary and flag their wrap; detail engines and samples run and end as set; contour and counter
records are built at their Rounds; a diagnostics write changes the field it names; TEST claims a maintenance port that no session holds. -/
def Obligations.TelemetryAndDiagnostics : Prop :=
  (∀ c s (t : TeleCfg), t.fillMark ≤ 62 → t.snapPeriod = 0 ∨ (64 ≤ t.snapPeriod ∧ t.snapPeriod ≤ 65535) → unitPart t.contourDest ≠ 31 →
    t.contourBase % 4096 = 0 → (∀ i ∈ t.snapIds, i < 0x80000) → Completes c 0x700 (.teleCfg c t) (okAns { s with tele := { s.tele with cfgNext := some { t with reservedZero := true } } }) s) ∧
  (∀ c s (t : TeleCfg), 62 < t.fillMark → Completes c 0x700 (.teleCfg c t) (badArg 1 s) s) ∧
  (∀ c s (t : TeleCfg), t.fillMark ≤ 62 → (1 ≤ t.snapPeriod ∧ t.snapPeriod < 64) ∨ 65535 < t.snapPeriod → Completes c 0x700 (.teleCfg c t) (badArg 2 s) s) ∧
  (∀ c s f n r, 2 ≤ authCode (granted s c) → 1 ≤ n → n ≤ 507 → f + n ≤ 0x80000 → roundNo s + 2 ≤ r → s.mer.timed = true →
    Completes c 0x702 (.counterReadArm c f n r) (okAns { s with tele := { s.tele with snapArmed := some r } }) s) ∧
  (∀ c s f n, 2 ≤ authCode (granted s c) → 1 ≤ n → n ≤ 507 → f + n ≤ 0x80000 → ∃ u, Completes c 0x702 (.counterReadArm c f n 0) (okAns u) s ∧
    u.tele.snapArmed = some (nextSlotted s) ∧ u.tele.snap = s.tele.snap) ∧
  (∀ c s f n r, authCode (granted s c) < 2 → Completes c 0x702 (.counterReadArm c f n r) (refuse .notPermitted s) s) ∧
  (∀ c s f n r, 2 ≤ authCode (granted s c) → n = 0 ∨ 507 < n → Completes c 0x702 (.counterReadArm c f n r) (badArg 4 s) s) ∧
  (∀ s r, s.capture.partialSince = some r → r + 1 ≤ roundNo s → ∃ t, exec .capturePad s = .next t ∧ s.capture.place + 8 ≤ t.capture.place ∧
    ∃ x ∈ t.capture.records, x.kind = 0 ∧ x.at_ = s.capture.place) ∧
  (∀ s r rs, s.capture.records = r :: rs → recordDone s r = true → ∃ t, exec .capturePublish s = .next t ∧
    t.capture.records.length < s.capture.records.length ∧ t.capture.seq = s.capture.seq) ∧
  (∀ c s g n, Runs c 0x801 s → s.pow.ladder < 2 → s.capture.adcBusy = false → (laneOf s g).claim = .none → ∃ t u,
    exec (.adcCapStart c g n) s = .next t ∧ t = complete c 0x801 (okAns u) ∧ u.capture.adcBusy = true ∧ u.capture.adcLane = g ∧ u.capture.adcLeft = n + 1) ∧
  (∀ s l, s.capture.adcBusy = true → s.capture.adcWait = none → 65600 ≤ captureFree s → ∃ t, exec (.adcBurstDone l) s = .next t ∧
    ∃ x ∈ t.capture.records, x.kind = 2 ∧ x.len = 65600) ∧
  (∀ s r l, s.capture.adcWait = some (r, l) → r + 4 ≤ roundNo s → ∃ t, exec .adcBurstDrop s = .next t ∧
    t.capture.dropped = s.capture.dropped + 1 ∧ t.capture.adcWait = none) ∧
  (∀ s, s.tele.snapArmed = none → exec .snapshotTake s = .next s) ∧
  (∀ s n, s.tele.snapArmed = some n → n ≤ roundNo s + 1 → cyclesLeft s ≤ 1 → ∃ u, exec .snapshotTake s = .next u ∧
    u.tele.snap = (countCycles (cyclesLeft s) s).tele.cnt ∧ u.tele.snapPcnt = (countCycles (cyclesLeft s) s).tele.pcnt ∧
    u.tele.snapArmed = none ∧ u.tele.snapValid = true ∧ u.tele.snapRound = n ∧
    Reports { s with tele := u.tele, mer := { s.mer with holdoverLog := u.mer.holdoverLog } } u) ∧
  (∀ s n, s.tele.snapArmed = some n → roundNo s + 1 < n ∨ 1 < cyclesLeft s → exec .snapshotTake s = .next s) ∧
  (∀ c s p d ph e, p ≤ 255 → detailPhase s p = some ph → s.tele.details.any (fun x => detailTaken x.2 && x.2.port = p) = false →
    (List.range 16).find? (fun e => !detailTaken (detailOf s e)) = some e → ∃ u, Completes c 0x703 (.detailStart c p d) (okWith (leBytes 1 e) 0 u) s ∧
    detailOf u e = { port := p, startDue := true, phase := ph, duration := d, order := s.tele.detailOrder } ∧
    (∀ k, k ≠ e → detailOf u k = detailOf s k) ∧ u = { s with tele := { s.tele with details := u.tele.details, detailOrder := s.tele.detailOrder + 1 } }) ∧
  (∀ c s p d, p ≤ 255 → detailPhase s p = none → Completes c 0x703 (.detailStart c p d) (refuse .notReady s) s) ∧
  (∀ c s p d, 255 < p → Completes c 0x703 (.detailStart c p d) (badArg 2 s) s) ∧
  (∀ c s p d, p ≤ 255 → detailPhase s p ≠ none → s.tele.details.any (fun x => detailTaken x.2 && x.2.port = p) = true →
    Completes c 0x703 (.detailStart c p d) (busy 6 p s) s) ∧
  (∀ c s e, 15 < e → Completes c 0x703 (.detailStop c e) (badArg 1 s) s) ∧
  (∀ s e, (detailOf s e).running = false → exec (.detailEngineEnd e) s = .next s) ∧
  (∀ c s e, e ≤ 15 → detailTaken (detailOf s e) = true → ∃ u, Completes c 0x703 (.detailStop c e) (okAns u) s ∧
    detailOf u e = { detailOf s e with stopDue := true } ∧ (∀ k, k ≠ e → detailOf u k = detailOf s k)) ∧
  (∀ c s e, e ≤ 15 → detailTaken (detailOf s e) = false → Completes c 0x703 (.detailStop c e) (okAns s) s) ∧
  (∀ s e, (detailOf s e).running = true → (detailOf s e).stopDue = true ∨ ((detailOf s e).duration ≠ 0 ∧ (detailOf s e).started + (detailOf s e).duration ≤ roundNo s) ∨
      detailPhase s (detailOf s e).port = none → ∃ u, exec (.detailEngineEnd e) s = .next u ∧
    detailOf u e = { detailOf s e with running := false, startDue := false, stopDue := false } ∧
    Reports { s with tele := { s.tele with details := u.tele.details } } u) ∧
  (∀ c s m e (o : BitVec 8) b p, m ≤ 2 → e ≤ 4 → 1024 ≤ p → p ≤ 16777216 →
    Completes c 0x704 (.sampleCfg c m e o b p) (okAns { s with tele := { s.tele with sampleNext := some (m, e, o, b, p) } }) s) ∧
  (∀ c s m e (o : BitVec 8) b p, 2 < m → Completes c 0x704 (.sampleCfg c m e o b p) (badArg 0 s) s) ∧
  (∀ c s m e (o : BitVec 8) b p, m ≤ 2 → e ≤ 4 → p < 1024 ∨ 16777216 < p → Completes c 0x704 (.sampleCfg c m e o b p) (badArg 4 s) s) ∧
  (∀ s k skid fin ins b pc f, sampleDue s k = true → (clerkOf s k).last = some (b, pc, f) → ∃ u,
    exec (.clerkSample k skid fin ins) s = .next u ∧ (∀ j, j ≠ k → clerkOf u j = clerkOf s j) ∧
    (s.tele.sampleMode = 1 → (clerkOf u k).sinceSample = 0) ∧ (s.tele.sampleMode = 2 → (officeOf u (k / 32)).eventCount = 0 ∧ clerkOf u k = clerkOf s k) ∧
    (sampleAllowed s (k / 32) = true → s.tele.sampleCapture = false → (officeOf u (k / 32)).sampleNs = some s.mer.ns ∧
      (cxlUp s = true → teleUnread s < 63 → ∃ r ∈ u.tele.ring, r.kind = 1 ∧ r.round = roundNo s ∧
        r.data = fit 48 (sampleBytes k (if s.tele.sampleMode = 1 then 0 else skid) (decide (s.tele.sampleMode = 2) && fin) ins b pc f s))) ∧
    (sampleAllowed s (k / 32) = false → u.tele.ring = s.tele.ring ∧ (s.tele.sampleMode = 1 → u.offices = s.offices))) ∧
  (∀ s k skid fin ins, sampleDue s k = false → exec (.clerkSample k skid fin ins) s = .next s) ∧
  (∀ c s k (v : Word), Completes c 0x801 (.pcntWrite c k v) (okAns (setPcnt s k { pcntOf s k with pendingValue := some v.toNat })) s) ∧
  (∀ c s k (v : Word64), bitsOf v.toNat 7 4 ≤ 8 ∨ bitsOf v.toNat 7 4 = 15 → bitsOf v.toNat 15 8 ≤ argMax (bitsOf v.toNat 7 4) → bitsOf v.toNat 51 32 < 0x80000 →
    Completes c 0x801 (.pcntCtlWrite c k v) (okAns (setPcnt s k { pcntOf s k with
      pendingCtl := some ((v &&& (if k % 2 = 1 then 0x000FFFFF0007FFFF else 0x000FFFFF0007FFFD)) ||| ((pcntOf s k).pendingCtl.getD 0 &&& 4)) })) s) ∧
  (∀ c s k (v : Word64), (9 ≤ bitsOf v.toNat 7 4 ∧ bitsOf v.toNat 7 4 ≤ 14) ∨ argMax (bitsOf v.toNat 7 4) < bitsOf v.toNat 15 8 ∨ 0x80000 ≤ bitsOf v.toNat 51 32 →
    Completes c 0x801 (.pcntCtlWrite c k v) (badArg 8 s) s) ∧
  (∀ s k, pcEn (pcntOf s k) = false ∨ pcOddChained k (pcntOf s k) = true → exec (.pcntWrap k) s = .next s) ∧
  (∀ s k x, x = pcntOf s k → pcEn x = true → pcOddChained k x = false → x.value ≤ 2 ^ 32 →
    (k % 2 = 0 → pcChain (pcntOf s (k + 1)) = false) → ∃ u, exec (.pcntWrap k) s = .next u ∧ (pcntOf u k).ovf = true ∧
    (pcOvfEvent x = false → u = setPcnt s k { x with value := 0, ovf := true, wraps := x.wraps + 1 }) ∧ Reports s u) ∧
  (∀ s, roundNo s % 64 = 0 → s.tele.periodRounds ≠ 0 → s.pow.ladder ≤ 2 → ∃ u r, exec .contourPeriodClose s = .next u ∧
    u.tele.contours = (r :: s.tele.contours).take 2 ∧ r.round = roundNo s ∧ r.seq = s.tele.contourSeq ∧ r.rounds = min 65535 s.tele.periodRounds ∧
    (tblRising s.tele.peaks = true → ∀ k, tget 0 r.levels k = contourLevel (tget 0 s.tele.peaks k)) ∧
    u.tele.contourSeq = (s.tele.contourSeq + 1) % 2 ^ 32 ∧ u.tele.peaks = [] ∧ u.tele.periodRounds = 0 ∧ Sends { s with tele := u.tele } u) ∧
  (∀ s, roundNo s % 64 ≠ 0 → exec .contourPeriodClose s = .next s) ∧
  (∀ s, s.tele.cfg.snapEn = true → roundNo s % snapPeriod s = 0 → s.pow.ladder ≤ 2 → s.tele.ring.any (fun r => r.kind = 0 && r.round = roundNo s) = false →
    cxlUp s = true → teleUnread s < 63 → ∃ u r, exec .counterSnapRecord s = .next u ∧ r ∈ u.tele.ring ∧ r.kind = 0 ∧ r.round = roundNo s ∧
    r.seq = s.tele.seq ∧ r.data = fit 48 (s.tele.cfg.snapIds.flatMap fun i => leBytes 8 (cntOf s i)) ∧ Reports { s with tele := u.tele } u) ∧
  (∀ c s b o (v m : Word) a, regWriteCheck false b o m.toNat s = some a → Completes c 0x801 (.diagWrite c b o v m) a s) ∧
  (∀ c s g (v : Word), g < 1024 → Completes c 0x801 (.diagWrite c 1 (256 * g + 0xC4) v 0x7FFFFFFF)
    (okAns (modLane s g fun x => { x with seed := v.toNat % 2 ^ 31 })) s) ∧
  (∀ old v i, (cleared old v).testBit i = (old.testBit i && !v.testBit i)) ∧
  (∀ c s (v m : Word), Completes c 0x801 (.diagWrite c 4 0x14 v m) (okAns { s with mer := { s.mer with deferred := cleared s.mer.deferred (v.toNat &&& m.toNat) } }) s) ∧
  (∀ c s (v m : Word), Completes c 0x801 (.diagWrite c 0xA 4 v m) (okAns { s with pm := { s.pm with mismatch := cleared s.pm.mismatch (v.toNat &&& m.toNat) } }) s) ∧
  (∀ c s k (v : Word), k < 64 → Completes c 0x801 (.diagWrite c 0xD (0x400000 + 4 * k) v 0xFFFFFFFF)
    (okAns (setPcnt s k { pcntOf s k with pendingValue := some v.toNat })) s) ∧
  (∀ c s k, k ≤ 15 → copyHolder s.bank k = none → copyHolder s.staging.bank k = none → 240 + k ∉ s.sw.testPorts →
    Completes c 0x804 (.portTestClaim c k) (okAns { s with sw := { s.sw with testPorts := s.sw.testPorts ++ [240 + k] } }) s) ∧
  (∀ c s k, k ≤ 15 → copyHolder s.bank k = none → copyHolder s.staging.bank k = none → 240 + k ∈ s.sw.testPorts →
    Completes c 0x804 (.portTestClaim c k) (busy 6 (240 + k) s) s) ∧
  (∀ c s k n, k ≤ 15 → copyHolder s.bank k = some n → Completes c 0x804 (.portTestClaim c k) (busy 5 n s) s) ∧
  (∀ c s k, 15 < k → Completes c 0x804 (.portTestClaim c k) (badArg 0 s) s ∧ Completes c 0x804 (.portTestRelease c k) (badArg 0 s) s) ∧
  (∀ c s k, k ≤ 15 → Completes c 0x804 (.portTestRelease c k) (okAns { s with sw := { s.sw with testPorts := s.sw.testPorts.filter (· ≠ 240 + k) } }) s)

/-! ### The Seal (13) -/

/-- R351: the store holds two slots, and FW_WRITE writes only the slot that is not ACTIVE; a write at OFFSET 0 first erases it and sets it WRITTEN; a write
to a VERIFIED slot returns it to WRITTEN; a write while any slot is TRIAL is refused with NOT_READY. -/
def Obligations.FirmwareWritten : Prop :=
  ∀ (c : Ctx) (s : State) (o : Nat) (l : List Byte), o % 64 = 0 → o + l.length ≤ 33554432 → o < 33554432 →
    (s.trust.slot0.state ≠ .trial → s.trust.slot1.state ≠ .trial → holdupOk s fwRecordBytes = true → ∃ k u, Completes c 0x900 (.fwWrite c o l) (okAns u) s ∧
      k ≤ 1 ∧ (s.trust.slot0.state ≠ .active ∨ s.trust.slot1.state ≠ .active → (fwSlot s k).state ≠ .active) ∧
      (o = 0 → (fwSlot u k).bytes = mwrite [] 0 l ∧ (fwSlot u k).state = .written) ∧
      (o ≠ 0 → (fwSlot u k).bytes = mwrite (fwSlot s k).bytes o l ∧
        (fwSlot u k).state = (if (fwSlot s k).state = .verified then .written else (fwSlot s k).state)) ∧
      (∀ a, o ≤ a → a < o + l.length → fwByte (fwSlot u k) a = l.getD (a - o) 0) ∧
      fwSlot u (1 - k) = fwSlot s (1 - k) ∧
      u = { s with trust := { s.trust with slot0 := u.trust.slot0, slot1 := u.trust.slot1, copies := u.trust.copies } }) ∧
    (s.trust.slot0.state = .trial ∨ s.trust.slot1.state = .trial → Completes c 0x900 (.fwWrite c o l) (refuse .notReady s) s)

/-- Firmware and trust (R348 to R367): the inactive slot is verified, activated, tried and confirmed; fuses are blown up to the STEP of the active
image, one at a boundary while the supply holds, and never back; the boot chain runs the first slot that passes, its firmware in every channel, or halts the Seal; boot
completion opens the boxes, unless REFCLK was late (R379); enrolments and
revocations replace what the Seal keeps, each after its hold-up check, and a KIND out of range is BAD_ARGUMENT; the runtime checks that are due (every 2²² Rounds) and the test access port act by
their rules. -/
def Obligations.FirmwareAndTrust : Prop :=
  (∀ c s, imageFails s (fwSlot s (inactiveSlot s)) = none →
    ((fwSlot s (inactiveSlot s)).state = .written ∨ (fwSlot s (inactiveSlot s)).state = .empty → holdupOk s fwRecordBytes = true →
      ∃ u, Completes c 0x901 (.fwVerify c) (okAns u) s ∧ (fwSlot u (inactiveSlot s)).state = .verified ∧
      (fwSlot u (inactiveSlot s)).bytes = (fwSlot s (inactiveSlot s)).bytes ∧
      Reports { s with trust := { s.trust with slot0 := u.trust.slot0, slot1 := u.trust.slot1, copies := u.trust.copies } } u) ∧
    ((fwSlot s (inactiveSlot s)).state = .written ∨ (fwSlot s (inactiveSlot s)).state = .empty → holdupOk s fwRecordBytes = false →
      ∃ u, Completes c 0x901 (.fwVerify c) (refuse .noHoldup u) s ∧ Reports s u) ∧
    ((fwSlot s (inactiveSlot s)).state = .verified → ∃ u, Completes c 0x901 (.fwVerify c) (okAns u) s ∧ Reports s u)) ∧
  (∀ c s st, imageFails s (fwSlot s (inactiveSlot s)) = some st → ∃ u, Completes c 0x901 (.fwVerify c) (refuse st u) s ∧ Reports s u) ∧
  (∀ c s, (fwSlot s (inactiveSlot s)).state = .verified → holdupOk s fwRecordBytes = true → ∃ u, Completes c 0x902 (.fwActivate c) (okAns u) s ∧
    (fwSlot u (inactiveSlot s)).state = .trial ∧ (fwSlot u (inactiveSlot s)).tries = 0 ∧ u.pm.restartDue = true ∧ u.pm.restartFrom = roundNo s + 1) ∧
  (∀ c s, (fwSlot s (inactiveSlot s)).state = .verified → holdupOk s fwRecordBytes = false → ∃ u, Completes c 0x902 (.fwActivate c) (refuse .noHoldup u) s ∧
    Reports s u) ∧
  (∀ c s, (fwSlot s (inactiveSlot s)).state ≠ .verified → ∃ u, Completes c 0x902 (.fwActivate c) (refuse .notReady u) s ∧ Reports s u) ∧
  (∀ s n, s.trust.bootSlot ≤ 1 → (fwSlot s s.trust.bootSlot).state = .trial → s.pm.absent = false → 2 ≤ s.ident.boot →
    s.trust.serviceSince + 2 ^ 22 ≤ roundNo s → holdupOk s (2 * fwRecordBytes) = true → n = min 63 (fwStep (fwSlot s s.trust.bootSlot)) →
    ∃ u, exec .trialConfirm s = .next u ∧
    (fwSlot u s.trust.bootSlot).state = .active ∧ (fwSlot u (1 - s.trust.bootSlot)).state ≠ .active ∧
    (n ≤ s.trust.fuses → u.trust.fuses = s.trust.fuses ∧ u.trust.burnDue = false) ∧
    (s.trust.fuses < n → 54000 ≤ s.sens.vinMv → u.trust.fuses = s.trust.fuses + 1 ∧ tget 0 u.trust.cells s.trust.fuses = 3 ∧
      u.trust.burning = (if n ≤ s.trust.fuses + 1 then none else some n)) ∧
    (s.trust.fuses < n → s.sens.vinMv < 54000 → u.trust.fuses = s.trust.fuses ∧ u.trust.burnDue = true ∧ u.trust.burning = none ∧
      u.trust.burnRound = roundNo s) ∧ u = { s with trust := u.trust }) ∧
  (∀ s, s.trust.burnDue = false ∨ s.trust.burning ≠ none ∨ roundNo s < s.trust.burnRound + 2 ^ 22 → exec .fuseBurnRetry s = .next s) ∧
  (∀ s, s.trust.burnDue = true → s.trust.burning = none → s.trust.burnRound + 2 ^ 22 ≤ roundNo s → ∀ k n, activeSlot s = some k → n = min 63 (fwStep (fwSlot s k)) →
    s.trust.fuses < n →
    (54000 ≤ s.sens.vinMv → exec .fuseBurnRetry s = .next { s with trust := { s.trust with
      cells := tset 0 s.trust.cells s.trust.fuses 3, fuses := s.trust.fuses + 1, burning := (if n ≤ s.trust.fuses + 1 then none else some n),
      burnDue := !decide (n ≤ s.trust.fuses + 1) } }) ∧
    (s.sens.vinMv < 54000 → exec .fuseBurnRetry s = .next { s with trust := { s.trust with burnRound := roundNo s } })) ∧
  (∀ s, bootDue s = true → ∀ a b d, ¬(a = true ∧ b = true ∧ d = true) → ∃ u, exec (.bootChain a b d false) s = .next u ∧ u.trust.halt = true ∧
    u.trust.keysPresent = false ∧ u.trust.wrapKey = none ∧ u.trust.storeKey = none ∧ u.ident.dark = true ∧ u.ident.fault = true) ∧
  (∀ s, bootDue s = true → s.ident.boot = 0 → s.trust.slot0.state ≠ .trial → s.trust.slot1.state ≠ .trial → ∀ k, activeSlot s = some k →
    fusedCount s.trust.cells = s.trust.fuses → (imageFails s (fwSlot s k) = none → ∃ u, exec (.bootChain true true true false) s = .next u ∧ u.trust.bootSlot = k ∧
      u.trust.fwVersion = fwVersionOf (fwSlot s k) ∧ u.trust.step = fwStep (fwSlot s k) ∧ u.trust.keysPresent = true ∧ u.trust.wrapKey = some (Config.pufKey 0) ∧ u.ident.boot = 1 ∧ u.pm.chainDone = true ∧
      (∀ c, c ≤ 2 → tfind u.pm.rams c = some (mwrite [] 0 (fwSectionBytes 0 (fwSlot s k)))) ∧
      u.gmi.lastSeq = s.gmi.seqFloor ∧ u.trust.halt = s.trust.halt)) ∧
  (∀ s, s.ident.boot ≠ 1 ∨ s.trust.halt = true ∨ s.clk.halt = true ∨ s.clk.refTimeout = true → ∀ lead, exec (.bootComplete lead) s = .next s) ∧
  (∀ s, s.ident.boot = 1 → s.trust.halt = false → s.clk.halt = false → s.clk.refTimeout = false → ∀ lead, ∃ u, exec (.bootComplete lead) s = .next u ∧ u.ident.boot = 2 ∧
    u.pm.role = (if lead then .standby else s.pm.role) ∧ u.tray.deferredEvents = [] ∧ (memOf u 0).state = 1 ∧ (memOf u 1).state = 1 ∧
    (s.ident.skeleton = false → s.pow.stopping = false → s.tray.pull < 3 → u.ident.fault = false)) ∧
  (∀ c s e m q, s.trust.authority = none → isHb c.box = true ∨ isSb c.box = true → e % 2 = 1 → 65537 ≤ e → e < 2 ^ 32 → m.length = 512 →
    128 ≤ beNat (m.take 1) → holdupOk s 560 = true → ∃ u, Completes c 0x906 (.authorityEnrolKey c e m q) (okAns u) s ∧ u.trust.authority = some (e, m) ∧
    u.gmi.lastSeq = q ∧ u.gmi.seqFloor = q + 2 ^ 24 ∧ u.trust.anchors = s.trust.anchors ∧ u.trust.revoked = s.trust.revoked) ∧
  (∀ c s e m q, s.trust.authority = none → isHb c.box = false → isSb c.box = false →
    Completes c 0x906 (.authorityEnrolKey c e m q) (refuse .notPermitted s) s) ∧
  (∀ c s l, s.trust.authority ≠ none → enrolOk c s = true → l.length ≤ 8 → (∀ a ∈ l, (a.kind = 1 ∨ a.kind = 2) ∧ a.modulus.length = 512) →
    holdupOk s (520 * l.length) = true → ∃ u, Completes c 0x906 (.authorityEnrolAnchors c l) (okAns u) s ∧ u.trust.anchors = l ∧
    u.trust.authority = s.trust.authority ∧ u.trust.revoked = s.trust.revoked ∧ u.links = s.links) ∧
  (∀ c s l, s.trust.authority ≠ none → enrolOk c s = true → l.length ≤ 256 → holdupOk s (32 * l.length) = true →
    ∃ u, Completes c 0x906 (.authorityEnrolRevocation c l) (okAns u) s ∧ u.trust.revoked = l.map (fit 32) ∧ u.trust.anchors = s.trust.anchors) ∧
  (∀ c s e m q l d i, i = .authorityEnrolKey c e m q true ∨ i = .authorityEnrolAnchors c l true ∨ i = .authorityEnrolRevocation c d true →
    ((if s.trust.authority = none then isHb c.box || isSb c.box else enrolOk c s) = true → Completes c 0x906 i (badArg 0 s) s) ∧
    ((if s.trust.authority = none then isHb c.box || isSb c.box else enrolOk c s) = false → Completes c 0x906 i (refuse .notPermitted s) s)) ∧
  (∀ c s d, d = fit 32 d → d ≠ fit 32 Config.idDigest → d ∉ s.trust.revoked → s.trust.revoked.length < 256 →
    holdupOk s (32 * (s.trust.revoked.length + 1)) = true → ∃ u, Completes c 0x908 (.linkRevoke c d) (okAns u) s ∧
    u.trust.revoked = s.trust.revoked ++ [d] ∧ u.trust.authority = s.trust.authority) ∧
  (∀ c s d, d = fit 32 d → d ≠ fit 32 Config.idDigest → d ∈ s.trust.revoked → Completes c 0x908 (.linkRevoke c d) (okAns s) s) ∧
  (∀ s, (sealRuns 0 s = false → ∀ b, exec (.sealKatCheck b) s = .next s) ∧ (sealRuns 1 s = false → ∀ l, exec (.sealCodeCheck l) s = .next s) ∧
    (sealRuns 2 s = false → ∀ l, exec (.sealProgramCheck l) s = .next s)) ∧
  (∀ s, sealRuns 0 s = true →
    exec (.sealKatCheck true) s = .next (sealRan 0 s) ∧
    (s.ident.skeleton = false → s.ident.skeletonDue = none →
      exec (.sealKatCheck false) s = .next { sealRan 0 s with ident := { s.ident with skeletonDue := some 2 } })) ∧
  (∀ s, sealRuns 1 s = true →
    exec (.sealCodeCheck []) s = .next (if channels s = [] then skeletonCauseDue 3 (sealRan 1 s) else sealRan 1 s) ∧
    (∀ c, c ≤ 2 → triadMode s = .triplex → ∃ u, exec (.sealCodeCheck [c]) s = .next u ∧ (chanOf u c).inService = false ∧
      triadMode u = .duplex ∧ tfind u.trust.checks 1 = some (roundNo s))) ∧
  (∀ s, sealRuns 2 s = true →
    (∀ l h, majority (l.take 8) = some h → ∃ u, exec (.sealProgramCheck l) s = .next u ∧ u = { s with offices := u.offices, trust := (sealRan 2 s).trust } ∧
      ∀ o, o < 8 → officeOf u o = { officeOf s o with reloading := (officeOf s o).reloading || decide (l[o]? ≠ some h) }) ∧
    (∀ l, majority (l.take 8) = none → s.ident.skeleton = false → s.ident.skeletonDue = none →
      exec (.sealProgramCheck l) s = .next { sealRan 2 s with ident := { s.ident with skeletonDue := some 4 } })) ∧
  (∀ s o, o < 8 → (officeOf s o).reloading = true → ∃ u, exec (.officeProgramReloadDone o) s = .next u ∧ OfficeOnly o s u ∧
    officeOf u o = { officeOf s o with reloading := false, state := .ready }) ∧
  (∀ s, exec (.jtagInstructionLoad true) s = .next { s with clk := { s.clk with tapReset := false } }) ∧
  (∀ s, ∃ u, exec (.jtagInstructionLoad false) s = .next u ∧ u.trust.halt = true ∧ u.trust.keysPresent = false ∧ u.ident.dark = true ∧
    u.ident.fault = true ∧ u.clk.tapReset = false) ∧
  (∀ s, exec .trstNAssert s = .next { s with clk := { s.clk with tapReset := true } })

/-! ### Clocks and resets (14) -/

/-- Clock sources and resets (R368 to R384): a source without edges fails at once, and a domain on it takes its first ready fallback, the event going to the
Triad; with none the clocks halt, the crystal domain on the FBO; the monitors judge
each window, and a source off frequency fails at the second window in a row that names it (the model's reading: notes/assumptions/145.md); readiness and CLK_SEL choose a source; a cold reset puts everything but the persistent store, fuses and pins at its reset value, at
the moment RST_N has been low 1 ms or as power comes up, a warm
one keeps the counter, the grid, the ledger and the upper GDDR7 as well; a unit reset touches its unit. -/
def Obligations.ClocksAndResets : Prop :=
  (∀ s i, i ≤ 3 → ∃ u, exec (.clockEdgeLoss i) s = .next u ∧ (srcOf u i).lostEdges = true ∧ (srcOf u i).failed = true ∧ (srcOf u i).ready = false ∧
    (∀ j, j ≠ i → srcOf u j = srcOf s j) ∧
    ((srcOf s i).failed = false → i < 2 → coreSource s = i → (srcOf s 2).ready = true → u.clk.coreSrc = 1 ∧
      ∃ w, u.pm.latch = some w ∧ w.what = .nmi i) ∧
    (s.clk.halt = false → (srcOf s i).failed = false → i < 2 → coreSource s = i → (srcOf s 2).ready = false → (srcOf s (1 - i)).ready = false →
      u.clk.halt = true ∧ u.clk.xtalSrc = 1 ∧ u.ident.fault = true ∧ u.ident.dark = true) ∧
    ((srcOf s i).failed = false → i < 2 → xtalSource s = i → (srcOf s 2).ready = true → u.clk.xtalSrc = 1) ∧
    (coreSource s ≠ i → u.clk.coreSrc = s.clk.coreSrc) ∧ (xtalSource s ≠ i → u.clk.halt = s.clk.halt → u.clk.xtalSrc = s.clk.xtalSrc)) ∧
  (∀ s l, ∃ u, exec (.clockMonitorWindow l) s = .next u ∧ (∀ k, k < 5 → (monOf u k).count = l.getD k 0 % 65536 ∧ (monOf u k).pass = inBand k (l.getD k 0) ∧
      (inBand k (l.getD k 0) = true → (monOf u k).fails = (monOf s k).fails)) ∧
    ((∀ k, k < 5 → inBand k (l.getD k 0) = true) → (∀ i, i ≤ 3 → (srcOf s i).lostEdges = false) → s.clk.xtalFailed = false →
      u.clk.ambiguous = false ∧ u.clk.halt = s.clk.halt ∧ u.clk.coreSrc = s.clk.coreSrc ∧
      ∀ i, i ≤ 3 → i ≠ 1 ∨ s.clk.xtalOk = true → (srcOf u i).failed = false ∧ (srcOf u i).good = min 16 ((srcOf s i).good + 1))) ∧
  (∀ s i, i ≤ 3 → (srcOf s i).ready = false → (srcOf s i).failed = false → (srcOf s i).lostEdges = false → 16 ≤ (srcOf s i).good → ∃ u,
    exec (.clockSrcReady i) s = .next u ∧ srcOf u i = { srcOf s i with ready := true } ∧
    (i = 0 → s.clk.coreChosen = false → u.clk.coreSrc = 0 ∧ u.clk.coreChosen = true) ∧
    (i = 1 → s.clk.xtalChosen = false → u.clk.xtalSrc = 0 ∧ u.clk.xtalChosen = true) ∧
    (2 ≤ i ∨ s.clk.coreChosen = true → u.clk.coreSrc = s.clk.coreSrc)) ∧
  (∀ s i, (srcOf s i).good < 16 → exec (.clockSrcReady i) s = .next s) ∧
  (∀ s l, (∀ i, i ≤ 3 → (srcOf s i).lostEdges = false) → s.clk.xtalFailed = false → inBand 2 (l.getD 2 0) = false → inBand 1 (l.getD 1 0) = true →
    ∃ u, exec (.clockMonitorWindow l) s = .next u ∧ u.clk.suspects = [0] ∧ (0 ∈ s.clk.suspects → (srcOf u 0).failed = true ∧ (srcOf u 0).ready = false) ∧
      (0 ∉ s.clk.suspects → (srcOf u 0).failed = (srcOf s 0).failed ∧ (srcOf u 0).ready = (srcOf s 0).ready ∧ u.clk.coreSrc = s.clk.coreSrc)) ∧
  (∀ s i, 3 < i → exec (.clockEdgeLoss i) s = .next s ∧ exec (.clockSrcReady i) s = .next s) ∧
  (∀ s, s.clk.xtalFailed = true → exec .crystalAmplitudeOk s = .next s) ∧
  (∀ s, s.clk.xtalOk = true ∨ s.clk.xtalFailed = true → exec .crystalStartFail s = .next s) ∧
  (∀ s, (srcOf s 0).ready = true ∨ s.clk.coreChosen = true ∨ 2 ≤ s.ident.boot → exec .refclkStartTimeout s = .next s) ∧
  (∀ s, s.clk.pwrReset = true → exec .pwrOkDeassert s = .next s) ∧
  (∀ s, s.clk.rstLow = true → exec .rstNLow s = .next s) ∧
  (∀ s p, s.clk.rstLow = false → exec .rstNCold s = .next s ∧ exec (.rstNRise p) s = .next s) ∧
  (∀ s p, s.clk.pwrReset = false ∨ s.tray.pwrOk = false ∨ s.tray.start ≠ .running → exec (.resetRelease p) s = .next s) ∧
  (∀ c s n, 15 < n → Completes c 0x801 (.resetTile c n) (badArg 8 s) s) ∧
  (∀ c s n, 1 < n → Completes c 0x801 (.resetGddr7Half c n) (badArg 8 s) s) ∧
  (∀ c s n x, s.clk.unitReset = some x → (n ≤ 15 → Completes c 0x801 (.resetTile c n) (refuse .notReady s) s) ∧
    (n ≤ 1 → Completes c 0x801 (.resetGddr7Half c n) (refuse .notReady s) s) ∧
    (isHb c.box = false → Completes c 0x801 (.resetCxlPort c) (refuse .notReady s) s)) ∧
  (∀ c s t g, t ≤ 15 → s.clk.unitReset = none → heldLane s t = some g → Completes c 0x801 (.resetTile c t) (adcBusy g s) s) ∧
  (∀ s, s.clk.xtalFailed = false → exec .crystalAmplitudeOk s = .next { s with clk := { s.clk with xtalOk := true } }) ∧
  (∀ s, s.clk.xtalOk = false → s.clk.xtalFailed = false → ∃ u, exec .crystalStartFail s = .next u ∧ u.clk.xtalFailed = true ∧ (srcOf u 1).failed = true ∧
    (srcOf u 1).ready = false) ∧
  (∀ c s t, t < 3 → t ≠ s.clk.coreSrc → selRefused s s.clk.holdCore (if t = 0 then 0 else if t = 1 then 2 else 1) 1 = false → ∃ u,
    Completes c 0x801 (.clkSelCore c t) (okAns u) s ∧ u.clk.coreSrc = t ∧ Reports { s with clk := { s.clk with coreSrc := t } } u) ∧
  (∀ c s, s.clk.coreSrc < 3 → Completes c 0x801 (.clkSelCore c s.clk.coreSrc) (okAns s) s) ∧
  (∀ c s, s.clk.xtalSrc < 3 → Completes c 0x801 (.clkSelXtalDomain c s.clk.xtalSrc) (okAns s) s) ∧
  (∀ c s t, t < 3 → t ≠ s.clk.xtalSrc → selRefused s s.clk.holdXtal (if t = 0 then 1 else if t = 1 then 2 else 0) 0 = true →
    Completes c 0x801 (.clkSelXtalDomain c t) (refuse .notReady s) s) ∧
  (∀ c s t, t < 3 → t ≠ s.clk.coreSrc → selRefused s s.clk.holdCore (if t = 0 then 0 else if t = 1 then 2 else 1) 1 = true →
    Completes c 0x801 (.clkSelCore c t) (refuse .notReady s) s) ∧
  (∀ c s t, t < 3 → t ≠ s.clk.xtalSrc → selRefused s s.clk.holdXtal (if t = 0 then 1 else if t = 1 then 2 else 0) 0 = false → ∃ u,
    Completes c 0x801 (.clkSelXtalDomain c t) (okAns u) s ∧ u.clk.xtalSrc = t ∧ Reports { s with clk := { s.clk with xtalSrc := t } } u) ∧
  (∀ c s t, 3 ≤ t → Completes c 0x801 (.clkSelCore c t) (badArg 8 s) s ∧ Completes c 0x801 (.clkSelXtalDomain c t) (badArg 8 s) s) ∧
  (∀ s, (srcOf s 0).ready = false → s.clk.coreChosen = false → s.ident.boot < 2 → ∃ u, exec .refclkStartTimeout s = .next u ∧ u.clk.refTimeout = true ∧
    u.ident.dark = true ∧ u.ident.fault = true ∧ u.ident.boot = s.ident.boot) ∧
  (∀ s, s.clk.pwrReset = false → ∃ u, exec .pwrOkDeassert s = .next u ∧ u.clk.pwrReset = true ∧ u.tray.pwrOk = false ∧ u.ident.dark = true ∧
    u.ident.fault = true ∧ u.ident.boot = 0 ∧ (memOf u 0).state = 2 ∧ (memOf u 1).state = 2) ∧
  (∀ s, s.clk.rstLow = false → ∃ u, exec .rstNLow s = .next u ∧ u.clk.rstLow = true ∧ u.clk.rstCold = false ∧ u.ident.dark = true ∧ u.ident.fault = true ∧
    u.ident.boot = 0 ∧ u.mer = s.mer) ∧
  (∀ s, s.clk.rstLow = true → s.clk.rstCold = true → exec .rstNCold s = .next s) ∧
  (∀ s, s.clk.rstLow = true → s.clk.rstCold = false → s.clk.pwrReset = true → exec .rstNCold s = .next { s with clk := { s.clk with rstCold := true } }) ∧
  (∀ s p, s.clk.rstLow = true → s.clk.pwrReset = true → exec (.rstNRise p) s = .next { s with clk := { s.clk with rstLow := false, rstCold := false } }) ∧
  (∀ s p, s.clk.rstLow = true → s.clk.pwrReset = false → s.clk.rstCold = true → exec (.rstNRise p) s =
    .next { s with clk := { s.clk with rstLow := false, rstCold := false, posId := p, posBad := strapBad p }, pm := { s.pm with role := defaultRole p } }) ∧
  (∀ s p q n i, (n = 0 ∧ q = p ∧ i = .resetRelease p ∧ s.clk.pwrReset = true ∧ s.tray.pwrOk = true ∧ s.tray.start = .running) ∨
      (n = 1 ∧ q = s.clk.posId ∧ i = .rstNCold ∧ s.clk.rstLow = true ∧ s.clk.pwrReset = false ∧ s.clk.rstCold = false) → ∃ u, exec i s = .next u ∧
    u.clk.cause = n ∧ u.clk.posId = q ∧ u.clk.posBad = strapBad q ∧ u.clk.rstLow = s.clk.rstLow ∧ u.mer = State.reset.mer ∧ u.pow = State.reset.pow ∧ u.bank = State.reset.bank ∧
    u.staging = State.reset.staging ∧ u.links = State.reset.links ∧ u.groups = State.reset.groups ∧
    (s.clk.rstLow = false → u.mem = State.reset.mem) ∧
    (s.clk.rstLow = true → u.clk.rstCold = true ∧ u.ident.dark = true ∧ u.ident.fault = true ∧ u.ident.boot = 0 ∧ (memOf u 0).state = 2 ∧
      (memOf u 1).state = 2) ∧
    u.trust.cells = s.trust.cells ∧ u.trust.floorLog = s.trust.floorLog ∧ u.trust.slot0 = s.trust.slot0 ∧ u.trust.slot1 = s.trust.slot1 ∧ u.trust.fuses = s.trust.fuses ∧ u.trust.authority = s.trust.authority ∧
    u.trust.revoked = s.trust.revoked ∧ u.gmi.seqFloor = s.gmi.seqFloor ∧ u.tray.journal = s.tray.journal ∧ u.tray.blackbox = s.tray.blackbox) ∧
  (∀ s p, s.clk.rstLow = true → s.clk.pwrReset = false → s.clk.rstCold = false → ∃ u, exec (.rstNRise p) s = .next u ∧ u.clk.cause = 2 ∧
    u.clk.warmCount = min 255 (s.clk.warmCount + 1) ∧ u.clk.posId = s.clk.posId ∧ u.mer.ns = s.mer.ns ∧ u.mer.frac = s.mer.frac ∧ u.mer.state = .keeper ∧
    u.ident.learned = s.ident.learned ∧ u.ident.x = s.ident.x ∧ u.gmi.managers = s.gmi.managers ∧ u.gmi.log = s.gmi.log ∧
    u.gmi.eventSeq = s.gmi.eventSeq ∧ u.trust.ledger = s.trust.ledger ∧ u.trust.slot0 = s.trust.slot0 ∧ u.trust.slot1 = s.trust.slot1 ∧
    u.pm.epoch = s.pm.epoch ∧ u.tele.cnt = s.tele.cnt ∧ (s.pow.tripped = false → u.pow = State.reset.pow) ∧
    (s.pow.tripped = true → u.pow.tripped = true ∧ u.pow.ladder = 4) ∧ u.bank = State.reset.bank ∧ u.links = State.reset.links ∧ u.groups = State.reset.groups ∧
    ∀ h, h ≤ 1 → (memOf u h).state = 2 ∧ ∀ a, 5 * 2 ^ 30 ≤ a → mget (memOf u h).mem a = mget (memOf s h).mem a) ∧
  (∀ c s t, t ≤ 15 → s.clk.unitReset = none → heldLane s t = none → ∃ u, Completes c 0x801 (.resetTile c t) (okAns u) s ∧
    u.clk.unitReset = some (1, t) ∧ (tileOf u t).corr = [] ∧ ∀ p ∈ tilePorts t, (linkOf u p).disc = .dark) ∧
  (∀ c s h, h ≤ 1 → s.clk.unitReset = none → wholeHalf h s = none → ∃ u, Completes c 0x801 (.resetGddr7Half c h) (okAns u) s ∧
    u.clk.unitReset = some (2, h) ∧ (memOf u h).state = 0 ∧ (memOf u h).mem = [] ∧ memOf u (1 - h) = memOf s (1 - h)) ∧
  (∀ c s, isHb c.box = false → s.clk.unitReset = none → ∃ u, Completes c 0x801 (.resetCxlPort c) (okAns u) s ∧
    u.clk.unitReset = some (3, 0) ∧ u.cxl.mode = 0 ∧ u.cxl.unitHeld = true ∧ u.cxl.training = false ∧
    u.cxl.perst = s.cxl.perst) ∧
  (∀ c s, isHb c.box = true → Completes c 0x801 (.resetCxlPort c) (busy 13 (boxNo c.box) s) s) ∧
  (∀ s, s.clk.unitReset = none → exec .resetUnitDone s = .next s) ∧
  (∀ s, (∀ h, s.clk.unitReset = some (2, h) → ∃ u, exec .resetUnitDone s = .next u ∧ u.clk.unitReset = none ∧ (memOf u h).state = 1) ∧
    (∀ x, s.clk.unitReset = some (3, x) → exec .resetUnitDone s =
      .next { s with clk := { s.clk with unitReset := none }, cxl := { s.cxl with unitHeld := false, training := !s.cxl.perst } }) ∧
    (∀ t, s.clk.unitReset = some (1, t) → exec .resetUnitDone s = .next { s with clk := { s.clk with unitReset := none } }))

/-! ### The tray, the pull and the sideband (17, 18) -/

/-- Pull, start and sideband (R439, R440, R447, R450 to R458, R463 to R466): PULL_WARN_N stops bundles and credits at once and darkens the module at the
second boundary; the start states follow the input, the permit and the charge; a module that loses its input keeps only what no reset touches;
frames leave in order, a due roll frame first; journal and black box take their blocks in turn. -/
def Obligations.TrayAndSideband : Prop :=
  (∀ s, pullActs s = true → ∃ u, exec .pullWarn s = .next u ∧ u.tray.pullWarn = true ∧ u.tray.pull = 1 ∧ u.tray.pullRound = roundNo s ∧
    (0x0131, roundNo s) ∈ u.gmi.alerts ∧ (∀ p, p < 256 → (linkOf s p).disc ≠ .dark → (linkOf u p).creditStop = true) ∧
    (∀ p, p < 256 → (linkOf s p).disc = .admitted → (linkOf u p).tx.leaving = true ∧ (linkOf u p).tx.rollDue = true) ∧ u.bank = s.bank) ∧
  (∀ s, s.tray.start = .charging → exec .pullWarn s = .next { s with tray := { s.tray with pullWarn := true, start := .keep } }) ∧
  (∀ s, pullActs s = false → s.tray.start ≠ .charging → exec .pullWarn s = .next { s with tray := { s.tray with pullWarn := true } }) ∧
  (∀ s, s.tray.pull ≠ 2 ∨ roundNo s ≤ s.tray.pullRound + 1 → exec .pullWarnSecondBoundary s = .next s) ∧
  (∀ s, s.tray.journalPending = [] → exec .journalSummaryWrite s = .next s) ∧
  (∀ s, s.tray.bbGathered = [] → exec .blackboxBlockWrite s = .next s) ∧
  (∀ s v, s.tray.start ≠ .absent ∨ v < 36000 → exec (.keepAliveOn v) s = .next s) ∧
  (∀ s v, s.tray.start = .absent → exec (.inputOver v) s = .next s ∧ exec (.inputDisconnect v) s = .next s) ∧
  (∀ s v, 68000 < v → s.tray.start = .keep →
    exec (.inputDisconnect v) s = .next { s with sens := { s.sens with vinMv := v }, tray := { s.tray with switchOpen := true } }) ∧
  (∀ s v, 68000 < v → s.tray.start = .charging → ∃ u, exec (.inputDisconnect v) s = .next u ∧ u.tray.start = .keep ∧ u.tray.switchOpen = true) ∧
  (∀ s, s.tray.start = .keep ∨ s.tray.start = .starting ∨ s.tray.start = .absent →
    exec .pwrEnFall s = .next { s with tray := { s.tray with pwrEn := false } }) ∧
  (∀ s, s.tray.permitWait = none → exec .permitTimeout s = .next s) ∧
  (∀ s k t, s.tray.permitWait = some (k, t) → s.mer.ns < t → exec .permitTimeout s = .next s) ∧
  (∀ s v, s.tray.start ≠ .charging → exec (.holdupMeasure v) s = .next s ∧ exec .chargeComplete s = .next s) ∧
  (∀ s, s.tray.start = .running → s.clk.pwrReset = true → exec .pwrOkAssert s = .next { s with tray := { s.tray with pwrOk := true } }) ∧
  (∀ s, s.tray.start = .absent ∨ s.tray.start = .keep ∨ s.tray.start = .charging → exec .pwrOkAssert s = .next s) ∧
  (∀ s t k n z, s.tray.start = .absent → exec (.permitGrant t k n z) s = .next s) ∧
  (∀ s r, s.tray.start ≠ .running ∨ sidebandRuns s = false ∨ s.ident.boot = 0 → exec (.sidebandRollReceive r) s = .next s) ∧
  (∀ s n, s.tray.start ≠ .running ∨ sidebandRuns s = false → exec (.sidebandAliveReceive n) s = .next s) ∧
  (∀ s, sidebandRuns s = false → exec .plcaTransmitOpportunity s = .next s) ∧
  (∀ s k v, 3 < k → exec (.laserUnitPoll k v) s = .next s) ∧
  (∀ s, s.tray.pull = 1 → s.tray.pullRound < roundNo s → ∃ u, exec .pullWarnFirstBoundary s = .next u ∧ u.tray.pull = 2 ∧ u.staging.holder = none ∧
    u.pow.timedLadder = none ∧ u.tele.snapArmed = none ∧ u.capture.adcBusy = false ∧ u.sw.testPorts = [] ∧
    (∀ g ∈ liveGroups s, ¬((groupOf u g).launched = true ∧ (groupOf u g).progress = true))) ∧
  (∀ s, s.tray.pull ≠ 1 ∨ roundNo s ≤ s.tray.pullRound → exec .pullWarnFirstBoundary s = .next s) ∧
  (∀ s, s.tray.pull = 2 → s.tray.pullRound + 1 < roundNo s → ∃ u, exec .pullWarnSecondBoundary s = .next u ∧ u.tray.pull = 3 ∧ u.ident.dark = true ∧
    u.ident.fault = true ∧ u.pow.ceil = 260000 ∧ (∀ p, (linkOf u p).disc = .dark) ∧ u.sw.letters = [] ∧
    (holdupOk s 8192 = true → u.tray.journalPending = s.tray.journalPending ++ [(0, s.tray.pullRound, s.pow.ladder)])) ∧
  (∀ s k r l rest b, s.tray.journalPending = (k, r, l) :: rest → b = journalBytes k r l s → ∃ u, exec .journalSummaryWrite s = .next u ∧
    u.tray.journal = mwrite s.tray.journal (8192 * (s.tray.jseq % 2048)) b ∧ b.length = 8192 ∧ u.tray.jseq = (s.tray.jseq + 1) % 2 ^ 32 ∧
    u.tray.journalPending = rest ∧ u.tray.blackbox = s.tray.blackbox) ∧
  (∀ s, 63 ≤ s.tray.bbGathered.length ∨ (s.tray.bbGathered ≠ [] ∧ s.tray.bbSince + 2 ^ 20 ≤ roundNo s) → ∃ u b, exec .blackboxBlockWrite s = .next u ∧
    b.length = 4096 ∧ u = { s with tray := { s.tray with
      blackbox := mwrite s.tray.blackbox (4096 * (s.tray.bbSeq % 8192)) b, bbSeq := (s.tray.bbSeq + 1) % 2 ^ 32, bbGathered := s.tray.bbGathered.drop 63,
      bbSince := roundNo s } }) ∧
  (∀ s, s.tray.bbGathered.length < 63 → roundNo s < s.tray.bbSince + 2 ^ 20 → exec .blackboxBlockWrite s = .next s) ∧
  (∀ s v, s.tray.start = .absent → 36000 ≤ v → exec (.keepAliveOn v) s =
    .next { s with tray := { s.tray with start := .keep, pullWarn := false }, sens := { s.sens with vinMv := v } }) ∧
  (∀ s, ∃ u, exec .vinLoss s = .next u ∧ u.tray.start = .absent ∧ u.sens.vinMv < 36000 ∧ u.tray.permitWait = none ∧ u.clk.pwrReset = true ∧
    u.trust.slot0 = s.trust.slot0 ∧ u.trust.slot1 = s.trust.slot1 ∧ u.trust.fuses = s.trust.fuses ∧ u.gmi.seqFloor = s.gmi.seqFloor ∧
    u.tray.journal = s.tray.journal ∧ u.tray.blackbox = s.tray.blackbox ∧ u.links = State.reset.links ∧ u.mem = State.reset.mem) ∧
  (∀ s v, 66000 < v → s.tray.start ≠ .absent → ∃ u, exec (.inputOver v) s = .next u ∧ u.sens.vinMv = v ∧
    Reports { s with sens := { s.sens with vinMv := v } } u) ∧
  (∀ s v, v ≤ 66000 → exec (.inputOver v) s = .next s ∧ exec (.inputDisconnect v) s = .next s) ∧
  (∀ s v, 68000 < v → s.tray.start = .running ∨ s.tray.start = .starting → ∃ u, exec (.inputDisconnect v) s = .next u ∧ u.tray.start = .keep ∧
    u.tray.switchOpen = true ∧ u.ident.dark = true ∧ u.ident.fault = true ∧ u.clk.pwrReset = true ∧ u.sens.vinMv = v) ∧
  (∀ s, s.tray.permitWait = none → exec .pwrEnRise s = .next { s with tray := { s.tray with pwrEn := true } }) ∧
  (∀ s k t, s.tray.permitWait = some (k, t) → s.tray.start = .keep → s.mer.ns ≤ t → 54000 ≤ s.sens.vinMv → s.tray.pullWarn = false → ∃ u,
    exec .pwrEnRise s = .next u ∧ u.tray.start = .charging ∧ u.tray.permitId = k ∧ u.tray.permitWait = none ∧ u.tray.pwrEn = true ∧ u.tray.switchOpen = false) ∧
  (∀ s, s.tray.start = .charging → ∃ u, exec .pwrEnFall s = .next u ∧ u.tray.start = .keep ∧ u.tray.pwrEn = false) ∧
  (∀ s, s.tray.start = .running → s.pow.stopping = false → s.pow.ladder < 4 → ∃ u m, exec .pwrEnFall s = .next u ∧ u.tray.pwrEn = false ∧
    u.pow.stopping = true ∧ u.pow.stopByEn = true ∧ u.pow.move = some m ∧ 4 ≤ m.target ∧ u.tray.start = .running) ∧
  (∀ s k n z, s.tray.start = .keep → 54000 ≤ s.sens.vinMv → s.tray.pullWarn = false → 1 ≤ n → n ≤ 10000 →
    (s.tray.pwrEn = true → ∃ u, exec (.permitGrant (s.clk.posId.toNat % 16 / 2) k n z) s = .next u ∧ u.tray.start = .charging ∧ u.tray.permitId = k ∧
      u.tray.switchOpen = false ∧ u.pm.rackHeard = s.mer.ns) ∧
    (s.tray.pwrEn = false → ∃ u, exec (.permitGrant (s.clk.posId.toNat % 16 / 2) k n z) s = .next u ∧ u.tray.start = .keep ∧
      u.tray.permitWait = some (k, s.mer.ns + n * 1000000))) ∧
  (∀ s t k n z, s.tray.start ≠ .absent → t ≠ s.clk.posId.toNat % 16 / 2 → ∃ u f, exec (.permitGrant t k n z) s = .next u ∧ u.tray.start = s.tray.start ∧
    u.tray.frames = s.tray.frames ++ [f] ∧ f.kind = 5 ∧ f.body.getD 0 0 = 6) ∧
  (∀ s k t, s.tray.permitWait = some (k, t) → t ≤ s.mer.ns → ∃ u f, exec .permitTimeout s = .next u ∧ u.tray.permitWait = none ∧
    u.tray.frames = s.tray.frames ++ [f] ∧ f.kind = 5 ∧ f.body.getD 0 0 = 3 ∧ u.tray.start = s.tray.start) ∧
  (∀ s v, s.tray.start = .charging →
    (160 ≤ v → exec (.holdupMeasure v) s = .next { s with tray := { s.tray with holdup := v } }) ∧
    (v < 160 → ∃ u, exec (.holdupMeasure v) s = .next u ∧ u.tray.holdup = v ∧ Reports { s with tray := { s.tray with holdup := v } } u)) ∧
  (∀ s, s.tray.start = .charging → ∃ u, exec .chargeComplete s = .next u ∧ u.tray.start = .starting) ∧
  (∀ s, s.tray.start = .starting → ∃ u, exec .pwrOkAssert s = .next u ∧ u.tray.start = .running ∧ u.tray.pwrOk = true) ∧
  (∀ s r, s.tray.start = .running → sidebandRuns s = true → 1 ≤ s.ident.boot → ∃ u, exec (.sidebandRollReceive r) s = .next u ∧
    u.pm.partnerSideRoll = some r ∧ (u.pm.absentSince = none ↔ (r.lead && r.postmasterAbsent) = false) ∧ u = { s with pm := u.pm }) ∧
  (∀ s, s.tray.start = .running → sidebandRuns s = true → exec (.sidebandAliveReceive 0) s = .next (heard 0 s) ∧ (heard 0 s).pm.rackHeard = s.mer.ns) ∧
  (∀ s n, n ≠ 0 → exec (.sidebandAliveReceive n) s = .next s) ∧
  (∀ s, sidebandRuns s = true →
    (s.tray.rollDue = false → s.tray.frames = [] → exec .plcaTransmitOpportunity s = .next { s with tray := { s.tray with sentFrames := [] } }) ∧
    (∀ f rest, s.tray.rollDue = false → s.tray.frames = f :: rest → f.body.length ≤ 82 → ∃ u, exec .plcaTransmitOpportunity s = .next u ∧
      u.tray.sentFrames = [frameBytes f.kind f.box f.body s] ∧ u.tray.frames = rest ∧ u.tray.frameSeq = (s.tray.frameSeq + 1) % 2 ^ 32) ∧
    (s.tray.rollDue = true → rollRuns s = true → ∃ u b, exec .plcaTransmitOpportunity s = .next u ∧ u.tray.rollDue = false ∧
      u.tray.sentFrames.head? = some b ∧ b.head? = some 2)) ∧
  (∀ s k, k ≤ 3 → ∃ u, exec (.laserUnitPoll k none) s = .next u ∧ (unitOf u k).nacks = (unitOf s k).nacks + 1 ∧
    (unitOf u k).fault = ((unitOf s k).fault || decide (8 ≤ (unitOf s k).nacks + 1)) ∧ ∀ j, j ≠ k → unitOf u j = unitOf s j) ∧
  (∀ s k (v : BitVec 16), k ≤ 3 → ∃ u, exec (.laserUnitPoll k (some v)) s = .next u ∧
    unitOf u k = { unitOf s k with nacks := 0, status := v, fault := v.getLsbD 8 } ∧ ∀ j, j ≠ k → unitOf u j = unitOf s j)
end

