-- ==== Sys2Proof/Laws/Memory.lean ====
section
/-! SUPPORT. The requests of a GDDR7 half (R283): what a request and the service of a half change, and what they leave. -/

namespace Sys2Proof.Machine

/-- A request changes the memory halves alone. -/
theorem memRequest_only (h cls owner bytes : Nat) (s : State) :
    memRequest h cls owner bytes s = { s with mem := (memRequest h cls owner bytes s).mem } := by
  unfold memRequest; split <;> rfl

/-- Serving a half changes the memory halves alone. -/
theorem serveHalf_only (cycles h : Nat) (s : State) : serveHalf cycles h s = { s with mem := (serveHalf cycles h s).mem } := by
  unfold serveHalf; dsimp only; split <;> rfl

/-- A choice of unit leaves everything of the half but the turns. -/
theorem nextUnit_rest (share : Nat → Nat) (m : MemHalf) :
    nextUnit share m = { m with unit := (nextUnit share m).unit, mailTurn := (nextUnit share m).mailTurn } := by
  unfold nextUnit; dsimp only; split_ifs <;> rfl

/-- One service leaves state, claims, contents, spill and parity mark of the half. -/
theorem serveOne_rest (share : Nat → Nat) (n : Nat) (m : MemHalf) :
    (serveOne share n m).2 = { m with
      waiting := (serveOne share n m).2.waiting, unit := (serveOne share n m).2.unit, mailTurn := (serveOne share n m).2.mailTurn } := by
  unfold serveOne
  split
  · rfl
  · rename_i c _
    have hu : (if c = 1 then nextUnit share m else m) = { m with
        waiting := (if c = 1 then nextUnit share m else m).waiting, unit := (if c = 1 then nextUnit share m else m).unit,
        mailTurn := (if c = 1 then nextUnit share m else m).mailTurn } := by
      split
      · rw [nextUnit_rest share m]
      · rfl
    dsimp only
    split
    · exact hu
    · rw [hu]

/-- So does the service of many. -/
theorem serveBytes_rest (share : Nat → Nat) (f n : Nat) (m : MemHalf) :
    serveBytes share f n m = { m with
      waiting := (serveBytes share f n m).waiting, unit := (serveBytes share f n m).unit, mailTurn := (serveBytes share f n m).mailTurn } := by
  induction f generalizing n m with
  | zero => rfl
  | succ f ih =>
    unfold serveBytes
    split
    · rfl
    · dsimp only
      rw [ih, serveOne_rest share n m]

end Sys2Proof.Machine
end

