-- ==== Sys2Proof/Laws/Tables.lean ====
section
/-! SUPPORT. What the table and memory operations of Machine/Ops.lean do: read after write, other entries kept, canonical form kept. -/

namespace Sys2Proof.Machine

variable {α : Type}

@[simp] theorem tfind_tdel_self (t : Tbl α) (k : Nat) : tfind (tdel t k) k = none := by
  induction t with
  | nil => rfl
  | cons x r ih =>
    obtain ⟨i, w⟩ := x
    by_cases h : i = k <;> simp [tdel, tfind, h, ih]

theorem tfind_tdel_ne (t : Tbl α) {j k : Nat} (h : j ≠ k) : tfind (tdel t k) j = tfind t j := by
  induction t with
  | nil => rfl
  | cons x r ih =>
    obtain ⟨i, w⟩ := x
    by_cases e : i = k
    · subst e; rw [tdel, if_pos rfl, ih, tfind, if_neg (Ne.symm h)]
    · rw [tdel, if_neg e, tfind, ih, tfind]

@[simp] theorem tfind_tput_self (t : Tbl α) (k : Nat) (v : α) : tfind (tput t k v) k = some v := by
  induction t with
  | nil => simp [tput, tfind]
  | cons x r ih =>
    obtain ⟨i, w⟩ := x
    by_cases h : k < i
    · simp [tput, tfind, h]
    · by_cases e : k = i
      · simp [tput, tfind, e]
      · rw [tput, if_neg h, if_neg e, tfind, if_neg (Ne.symm e), ih]

theorem tfind_tput_ne (t : Tbl α) {j k : Nat} (v : α) (h : j ≠ k) : tfind (tput t k v) j = tfind t j := by
  induction t with
  | nil => simp [tput, tfind, Ne.symm h]
  | cons x r ih =>
    obtain ⟨i, w⟩ := x
    by_cases l : k < i
    · rw [tput, if_pos l, tfind, if_neg (Ne.symm h)]
    · by_cases e : k = i
      · subst e; rw [tput, if_neg l, if_pos rfl, tfind, if_neg (Ne.symm h), tfind, if_neg (Ne.symm h)]
      · rw [tput, if_neg l, if_neg e, tfind, ih, tfind]

/-- A table reads back what was set. -/
@[simp] theorem tget_tset_self [DecidableEq α] (d : α) (t : Tbl α) (k : Nat) (v : α) : tget d (tset d t k v) k = v := by
  unfold tget tset
  split <;> simp_all

/-- Setting one index leaves every other as it was. -/
theorem tget_tset_ne [DecidableEq α] (d : α) (t : Tbl α) {j k : Nat} (v : α) (h : j ≠ k) : tget d (tset d t k v) j = tget d t j := by
  unfold tget tset
  split
  · rw [tfind_tdel_ne t h]
  · rw [tfind_tput_ne t v h]

theorem tget_tset [DecidableEq α] (d : α) (t : Tbl α) (j k : Nat) (v : α) :
    tget d (tset d t k v) j = if j = k then v else tget d t j := by
  split
  · next h => rw [h, tget_tset_self]
  · next h => exact tget_tset_ne d t v h

@[simp] theorem tget_nil (d : α) (k : Nat) : tget d ([] : Tbl α) k = d := rfl

/-! ### Canonical form -/

/-- The canonical form as a statement about the whole list: no default listed, indexes pairwise rising. -/
theorem tblWf_iff [DecidableEq α] (d : α) (t : Tbl α) :
    tblWf d t = true ↔ (∀ x ∈ t, x.2 ≠ d) ∧ t.Pairwise (fun a b => a.1 < b.1) := by
  induction t with
  | nil => simp [tblWf]
  | cons x r ih =>
    obtain ⟨i, v⟩ := x
    cases r with
    | nil => simp [tblWf]
    | cons y r =>
      obtain ⟨j, w⟩ := y
      simp only [tblWf, Bool.and_eq_true, decide_eq_true_eq, ih, List.pairwise_cons, List.mem_cons, forall_eq_or_imp]
      constructor
      · rintro ⟨⟨hv, hij⟩, ⟨hw, hr⟩, hj, hp⟩
        exact ⟨⟨hv, hw, hr⟩, ⟨hij, fun a ha => Nat.lt_trans hij (hj a ha)⟩, hj, hp⟩
      · rintro ⟨⟨hv, hw, hr⟩, ⟨hij, -⟩, hj, hp⟩
        exact ⟨⟨hv, hij⟩, ⟨hw, hr⟩, hj, hp⟩

theorem mem_tdel {t : Tbl α} {k : Nat} {x : Nat × α} (h : x ∈ tdel t k) : x ∈ t := by
  induction t with
  | nil => simp [tdel] at h
  | cons y r ih =>
    obtain ⟨i, w⟩ := y
    by_cases e : i = k
    · rw [tdel, if_pos e] at h; exact List.mem_cons_of_mem _ (ih h)
    · rw [tdel, if_neg e, List.mem_cons] at h
      rcases h with h | h
      · exact h ▸ List.mem_cons_self
      · exact List.mem_cons_of_mem _ (ih h)

theorem mem_tput {t : Tbl α} {k : Nat} {v : α} {x : Nat × α} (h : x ∈ tput t k v) : x = (k, v) ∨ x ∈ t := by
  induction t with
  | nil => simpa [tput] using h
  | cons y r ih =>
    obtain ⟨i, w⟩ := y
    unfold tput at h
    split at h
    · simpa using h
    · split at h
      · rw [List.mem_cons] at h
        rcases h with h | h
        · exact .inl h
        · exact .inr (List.mem_cons_of_mem _ h)
      · rw [List.mem_cons] at h
        rcases h with h | h
        · exact .inr (h ▸ List.mem_cons_self)
        · rcases ih h with h | h
          · exact .inl h
          · exact .inr (List.mem_cons_of_mem _ h)

theorem pairwise_tdel {t : Tbl α} {k : Nat} (h : t.Pairwise (fun a b => a.1 < b.1)) : (tdel t k).Pairwise (fun a b => a.1 < b.1) := by
  induction t with
  | nil => exact h
  | cons y r ih =>
    obtain ⟨i, w⟩ := y
    rw [List.pairwise_cons] at h
    by_cases e : i = k
    · rw [tdel, if_pos e]; exact ih h.2
    · rw [tdel, if_neg e, List.pairwise_cons]; exact ⟨fun x hx => h.1 x (mem_tdel hx), ih h.2⟩

theorem pairwise_tput {t : Tbl α} {k : Nat} {v : α} (h : t.Pairwise (fun a b => a.1 < b.1)) :
    (tput t k v).Pairwise (fun a b => a.1 < b.1) := by
  induction t with
  | nil => simp [tput]
  | cons y r ih =>
    obtain ⟨i, w⟩ := y
    have h' := List.pairwise_cons.mp h
    unfold tput
    split
    · next l =>
      refine List.pairwise_cons.mpr ⟨fun x hx => ?_, h⟩
      rcases List.mem_cons.mp hx with rfl | hx
      · exact l
      · exact Nat.lt_trans l (h'.1 x hx)
    · split
      · next e => subst e; exact List.pairwise_cons.mpr ⟨h'.1, h'.2⟩
      · next l e =>
        refine List.pairwise_cons.mpr ⟨fun x hx => ?_, ih h'.2⟩
        rcases mem_tput hx with rfl | hx
        · show i < k; omega
        · exact h'.1 x hx

/-- Every table operation keeps the canonical form. -/
theorem tblWf_tset [DecidableEq α] {d : α} {t : Tbl α} (k : Nat) (v : α) (h : tblWf d t = true) : tblWf d (tset d t k v) = true := by
  rw [tblWf_iff] at h ⊢
  unfold tset
  split
  · exact ⟨fun x hx => h.1 x (mem_tdel hx), pairwise_tdel h.2⟩
  · next hv =>
    refine ⟨fun x hx => ?_, pairwise_tput h.2⟩
    rcases mem_tput hx with rfl | hx
    · exact hv
    · exact h.1 x hx

/-! ### Memories -/

@[simp] theorem mget_mset_self (m : Memory) (a : Nat) (v : Byte) : mget (mset m a v) a = v := tget_tset_self 0 m a v

theorem mget_mset_ne (m : Memory) {a b : Nat} (v : Byte) (h : b ≠ a) : mget (mset m a v) b = mget m b := tget_tset_ne 0 m v h

theorem mset_wf {m : Memory} (a : Nat) (v : Byte) (h : m.wf = true) : Memory.wf (mset m a v) = true := tblWf_tset a v h

/-- A write keeps the canonical form. -/
theorem mwrite_wf {m : Memory} (a : Nat) (l : List Byte) (h : m.wf = true) : Memory.wf (mwrite m a l) = true := by
  induction l generalizing m a with
  | nil => exact h
  | cons b r ih => exact ih (a + 1) (mset_wf a b h)

/-- Bytes outside a write are kept. -/
theorem mget_mwrite_out (m : Memory) (a b : Nat) (l : List Byte) (h : b < a ∨ a + l.length ≤ b) : mget (mwrite m a l) b = mget m b := by
  induction l generalizing m a with
  | nil => rfl
  | cons x r ih =>
    simp only [List.length_cons] at h
    rw [mwrite, ih _ _ (by omega), mget_mset_ne _ _ (by omega)]

/-- Bytes inside a write are the bytes written. -/
theorem mget_mwrite_in (m : Memory) (a i : Nat) (l : List Byte) (h : i < l.length) : mget (mwrite m a l) (a + i) = l[i] := by
  induction l generalizing m a i with
  | nil => simp at h
  | cons x r ih =>
    cases i with
    | zero => rw [mwrite, mget_mwrite_out _ _ _ _ (.inl (by omega))]; simp
    | succ i =>
      have := ih (mset m a x) (a + 1) i (by simpa using h)
      rw [mwrite, show a + (i + 1) = a + 1 + i by omega, this]; simp

@[simp] theorem length_mread (m : Memory) (a n : Nat) : (mread m a n).length = n := by simp [mread]

@[simp] theorem length_leBytes (n v : Nat) : (leBytes n v).length = n := by
  induction n generalizing v with
  | zero => rfl
  | succ n ih => simp [leBytes, ih]

@[simp] theorem length_zeros (n : Nat) : (zeros n).length = n := by simp [zeros]

@[simp] theorem length_fit (n : Nat) (l : List Byte) : (fit n l).length = n := by
  simp [fit]; omega

end Sys2Proof.Machine
end

