-- ==== Sys2Proof/Laws/State.lean ====
section
/-! SUPPORT. The named updates of one unit: what each leaves unchanged, field by field, and what the unit reads as afterwards. -/

namespace Sys2Proof.Machine

variable (s : State)

@[simp] theorem setLane_mer (l : Nat) (v : Lane) : (setLane s l v).mer = s.mer := rfl
@[simp] theorem setLane_tiles (l : Nat) (v : Lane) : (setLane s l v).tiles = s.tiles := rfl
@[simp] theorem setLane_links (l : Nat) (v : Lane) : (setLane s l v).links = s.links := rfl
@[simp] theorem setLane_sw (l : Nat) (v : Lane) : (setLane s l v).sw = s.sw := rfl
@[simp] theorem setLane_route (l : Nat) (v : Lane) : (setLane s l v).route = s.route := rfl
@[simp] theorem setLane_bank (l : Nat) (v : Lane) : (setLane s l v).bank = s.bank := rfl
@[simp] theorem setLane_staging (l : Nat) (v : Lane) : (setLane s l v).staging = s.staging := rfl
@[simp] theorem setLane_offices (l : Nat) (v : Lane) : (setLane s l v).offices = s.offices := rfl
@[simp] theorem setLane_clerks (l : Nat) (v : Lane) : (setLane s l v).clerks = s.clerks := rfl
@[simp] theorem setLane_groups (l : Nat) (v : Lane) : (setLane s l v).groups = s.groups := rfl
@[simp] theorem setLane_cxl (l : Nat) (v : Lane) : (setLane s l v).cxl = s.cxl := rfl
@[simp] theorem setLane_mem (l : Nat) (v : Lane) : (setLane s l v).mem = s.mem := rfl
@[simp] theorem setLane_capture (l : Nat) (v : Lane) : (setLane s l v).capture = s.capture := rfl
@[simp] theorem setLane_pm (l : Nat) (v : Lane) : (setLane s l v).pm = s.pm := rfl
@[simp] theorem setLane_gmi (l : Nat) (v : Lane) : (setLane s l v).gmi = s.gmi := rfl
@[simp] theorem setLane_trust (l : Nat) (v : Lane) : (setLane s l v).trust = s.trust := rfl
@[simp] theorem setLane_clk (l : Nat) (v : Lane) : (setLane s l v).clk = s.clk := rfl
@[simp] theorem setLane_pow (l : Nat) (v : Lane) : (setLane s l v).pow = s.pow := rfl
@[simp] theorem setLane_sens (l : Nat) (v : Lane) : (setLane s l v).sens = s.sens := rfl
@[simp] theorem setLane_tele (l : Nat) (v : Lane) : (setLane s l v).tele = s.tele := rfl
@[simp] theorem setLane_tray (l : Nat) (v : Lane) : (setLane s l v).tray = s.tray := rfl
@[simp] theorem setLane_ident (l : Nat) (v : Lane) : (setLane s l v).ident = s.ident := rfl
@[simp] theorem setLane_draw (l : Nat) (v : Lane) : (setLane s l v).draw = s.draw := rfl
@[simp] theorem setLane_pending (l : Nat) (v : Lane) : (setLane s l v).pending = s.pending := rfl

@[simp] theorem modLane_mer (l : Nat) (f : Lane → Lane) : (modLane s l f).mer = s.mer := rfl
@[simp] theorem modLane_tiles (l : Nat) (f : Lane → Lane) : (modLane s l f).tiles = s.tiles := rfl
@[simp] theorem modLane_links (l : Nat) (f : Lane → Lane) : (modLane s l f).links = s.links := rfl
@[simp] theorem modLane_sw (l : Nat) (f : Lane → Lane) : (modLane s l f).sw = s.sw := rfl
@[simp] theorem modLane_route (l : Nat) (f : Lane → Lane) : (modLane s l f).route = s.route := rfl
@[simp] theorem modLane_bank (l : Nat) (f : Lane → Lane) : (modLane s l f).bank = s.bank := rfl
@[simp] theorem modLane_staging (l : Nat) (f : Lane → Lane) : (modLane s l f).staging = s.staging := rfl
@[simp] theorem modLane_offices (l : Nat) (f : Lane → Lane) : (modLane s l f).offices = s.offices := rfl
@[simp] theorem modLane_clerks (l : Nat) (f : Lane → Lane) : (modLane s l f).clerks = s.clerks := rfl
@[simp] theorem modLane_groups (l : Nat) (f : Lane → Lane) : (modLane s l f).groups = s.groups := rfl
@[simp] theorem modLane_cxl (l : Nat) (f : Lane → Lane) : (modLane s l f).cxl = s.cxl := rfl
@[simp] theorem modLane_mem (l : Nat) (f : Lane → Lane) : (modLane s l f).mem = s.mem := rfl
@[simp] theorem modLane_capture (l : Nat) (f : Lane → Lane) : (modLane s l f).capture = s.capture := rfl
@[simp] theorem modLane_pm (l : Nat) (f : Lane → Lane) : (modLane s l f).pm = s.pm := rfl
@[simp] theorem modLane_gmi (l : Nat) (f : Lane → Lane) : (modLane s l f).gmi = s.gmi := rfl
@[simp] theorem modLane_trust (l : Nat) (f : Lane → Lane) : (modLane s l f).trust = s.trust := rfl
@[simp] theorem modLane_clk (l : Nat) (f : Lane → Lane) : (modLane s l f).clk = s.clk := rfl
@[simp] theorem modLane_pow (l : Nat) (f : Lane → Lane) : (modLane s l f).pow = s.pow := rfl
@[simp] theorem modLane_sens (l : Nat) (f : Lane → Lane) : (modLane s l f).sens = s.sens := rfl
@[simp] theorem modLane_tele (l : Nat) (f : Lane → Lane) : (modLane s l f).tele = s.tele := rfl
@[simp] theorem modLane_tray (l : Nat) (f : Lane → Lane) : (modLane s l f).tray = s.tray := rfl
@[simp] theorem modLane_ident (l : Nat) (f : Lane → Lane) : (modLane s l f).ident = s.ident := rfl
@[simp] theorem modLane_draw (l : Nat) (f : Lane → Lane) : (modLane s l f).draw = s.draw := rfl
@[simp] theorem modLane_pending (l : Nat) (f : Lane → Lane) : (modLane s l f).pending = s.pending := rfl

@[simp] theorem modTile_mer (t : Nat) (f : Tile → Tile) : (modTile s t f).mer = s.mer := rfl
@[simp] theorem modTile_lanes (t : Nat) (f : Tile → Tile) : (modTile s t f).lanes = s.lanes := rfl
@[simp] theorem modTile_links (t : Nat) (f : Tile → Tile) : (modTile s t f).links = s.links := rfl
@[simp] theorem modTile_sw (t : Nat) (f : Tile → Tile) : (modTile s t f).sw = s.sw := rfl
@[simp] theorem modTile_route (t : Nat) (f : Tile → Tile) : (modTile s t f).route = s.route := rfl
@[simp] theorem modTile_bank (t : Nat) (f : Tile → Tile) : (modTile s t f).bank = s.bank := rfl
@[simp] theorem modTile_staging (t : Nat) (f : Tile → Tile) : (modTile s t f).staging = s.staging := rfl
@[simp] theorem modTile_offices (t : Nat) (f : Tile → Tile) : (modTile s t f).offices = s.offices := rfl
@[simp] theorem modTile_clerks (t : Nat) (f : Tile → Tile) : (modTile s t f).clerks = s.clerks := rfl
@[simp] theorem modTile_groups (t : Nat) (f : Tile → Tile) : (modTile s t f).groups = s.groups := rfl
@[simp] theorem modTile_cxl (t : Nat) (f : Tile → Tile) : (modTile s t f).cxl = s.cxl := rfl
@[simp] theorem modTile_mem (t : Nat) (f : Tile → Tile) : (modTile s t f).mem = s.mem := rfl
@[simp] theorem modTile_capture (t : Nat) (f : Tile → Tile) : (modTile s t f).capture = s.capture := rfl
@[simp] theorem modTile_pm (t : Nat) (f : Tile → Tile) : (modTile s t f).pm = s.pm := rfl
@[simp] theorem modTile_gmi (t : Nat) (f : Tile → Tile) : (modTile s t f).gmi = s.gmi := rfl
@[simp] theorem modTile_trust (t : Nat) (f : Tile → Tile) : (modTile s t f).trust = s.trust := rfl
@[simp] theorem modTile_clk (t : Nat) (f : Tile → Tile) : (modTile s t f).clk = s.clk := rfl
@[simp] theorem modTile_pow (t : Nat) (f : Tile → Tile) : (modTile s t f).pow = s.pow := rfl
@[simp] theorem modTile_sens (t : Nat) (f : Tile → Tile) : (modTile s t f).sens = s.sens := rfl
@[simp] theorem modTile_tele (t : Nat) (f : Tile → Tile) : (modTile s t f).tele = s.tele := rfl
@[simp] theorem modTile_tray (t : Nat) (f : Tile → Tile) : (modTile s t f).tray = s.tray := rfl
@[simp] theorem modTile_ident (t : Nat) (f : Tile → Tile) : (modTile s t f).ident = s.ident := rfl
@[simp] theorem modTile_draw (t : Nat) (f : Tile → Tile) : (modTile s t f).draw = s.draw := rfl
@[simp] theorem modTile_pending (t : Nat) (f : Tile → Tile) : (modTile s t f).pending = s.pending := rfl

@[simp] theorem setLink_mer (p : Nat) (v : Link) : (setLink s p v).mer = s.mer := rfl
@[simp] theorem setLink_lanes (p : Nat) (v : Link) : (setLink s p v).lanes = s.lanes := rfl
@[simp] theorem setLink_tiles (p : Nat) (v : Link) : (setLink s p v).tiles = s.tiles := rfl
@[simp] theorem setLink_sw (p : Nat) (v : Link) : (setLink s p v).sw = s.sw := rfl
@[simp] theorem setLink_route (p : Nat) (v : Link) : (setLink s p v).route = s.route := rfl
@[simp] theorem setLink_bank (p : Nat) (v : Link) : (setLink s p v).bank = s.bank := rfl
@[simp] theorem setLink_staging (p : Nat) (v : Link) : (setLink s p v).staging = s.staging := rfl
@[simp] theorem setLink_offices (p : Nat) (v : Link) : (setLink s p v).offices = s.offices := rfl
@[simp] theorem setLink_clerks (p : Nat) (v : Link) : (setLink s p v).clerks = s.clerks := rfl
@[simp] theorem setLink_groups (p : Nat) (v : Link) : (setLink s p v).groups = s.groups := rfl
@[simp] theorem setLink_cxl (p : Nat) (v : Link) : (setLink s p v).cxl = s.cxl := rfl
@[simp] theorem setLink_mem (p : Nat) (v : Link) : (setLink s p v).mem = s.mem := rfl
@[simp] theorem setLink_capture (p : Nat) (v : Link) : (setLink s p v).capture = s.capture := rfl
@[simp] theorem setLink_pm (p : Nat) (v : Link) : (setLink s p v).pm = s.pm := rfl
@[simp] theorem setLink_gmi (p : Nat) (v : Link) : (setLink s p v).gmi = s.gmi := rfl
@[simp] theorem setLink_trust (p : Nat) (v : Link) : (setLink s p v).trust = s.trust := rfl
@[simp] theorem setLink_clk (p : Nat) (v : Link) : (setLink s p v).clk = s.clk := rfl
@[simp] theorem setLink_pow (p : Nat) (v : Link) : (setLink s p v).pow = s.pow := rfl
@[simp] theorem setLink_sens (p : Nat) (v : Link) : (setLink s p v).sens = s.sens := rfl
@[simp] theorem setLink_tele (p : Nat) (v : Link) : (setLink s p v).tele = s.tele := rfl
@[simp] theorem setLink_tray (p : Nat) (v : Link) : (setLink s p v).tray = s.tray := rfl
@[simp] theorem setLink_ident (p : Nat) (v : Link) : (setLink s p v).ident = s.ident := rfl
@[simp] theorem setLink_draw (p : Nat) (v : Link) : (setLink s p v).draw = s.draw := rfl
@[simp] theorem setLink_pending (p : Nat) (v : Link) : (setLink s p v).pending = s.pending := rfl

@[simp] theorem modLink_mer (p : Nat) (f : Link → Link) : (modLink s p f).mer = s.mer := rfl
@[simp] theorem modLink_lanes (p : Nat) (f : Link → Link) : (modLink s p f).lanes = s.lanes := rfl
@[simp] theorem modLink_tiles (p : Nat) (f : Link → Link) : (modLink s p f).tiles = s.tiles := rfl
@[simp] theorem modLink_sw (p : Nat) (f : Link → Link) : (modLink s p f).sw = s.sw := rfl
@[simp] theorem modLink_route (p : Nat) (f : Link → Link) : (modLink s p f).route = s.route := rfl
@[simp] theorem modLink_bank (p : Nat) (f : Link → Link) : (modLink s p f).bank = s.bank := rfl
@[simp] theorem modLink_staging (p : Nat) (f : Link → Link) : (modLink s p f).staging = s.staging := rfl
@[simp] theorem modLink_offices (p : Nat) (f : Link → Link) : (modLink s p f).offices = s.offices := rfl
@[simp] theorem modLink_clerks (p : Nat) (f : Link → Link) : (modLink s p f).clerks = s.clerks := rfl
@[simp] theorem modLink_groups (p : Nat) (f : Link → Link) : (modLink s p f).groups = s.groups := rfl
@[simp] theorem modLink_cxl (p : Nat) (f : Link → Link) : (modLink s p f).cxl = s.cxl := rfl
@[simp] theorem modLink_mem (p : Nat) (f : Link → Link) : (modLink s p f).mem = s.mem := rfl
@[simp] theorem modLink_capture (p : Nat) (f : Link → Link) : (modLink s p f).capture = s.capture := rfl
@[simp] theorem modLink_pm (p : Nat) (f : Link → Link) : (modLink s p f).pm = s.pm := rfl
@[simp] theorem modLink_gmi (p : Nat) (f : Link → Link) : (modLink s p f).gmi = s.gmi := rfl
@[simp] theorem modLink_trust (p : Nat) (f : Link → Link) : (modLink s p f).trust = s.trust := rfl
@[simp] theorem modLink_clk (p : Nat) (f : Link → Link) : (modLink s p f).clk = s.clk := rfl
@[simp] theorem modLink_pow (p : Nat) (f : Link → Link) : (modLink s p f).pow = s.pow := rfl
@[simp] theorem modLink_sens (p : Nat) (f : Link → Link) : (modLink s p f).sens = s.sens := rfl
@[simp] theorem modLink_tele (p : Nat) (f : Link → Link) : (modLink s p f).tele = s.tele := rfl
@[simp] theorem modLink_tray (p : Nat) (f : Link → Link) : (modLink s p f).tray = s.tray := rfl
@[simp] theorem modLink_ident (p : Nat) (f : Link → Link) : (modLink s p f).ident = s.ident := rfl
@[simp] theorem modLink_draw (p : Nat) (f : Link → Link) : (modLink s p f).draw = s.draw := rfl
@[simp] theorem modLink_pending (p : Nat) (f : Link → Link) : (modLink s p f).pending = s.pending := rfl

@[simp] theorem modTx_mer (p : Nat) (f : LinkTx → LinkTx) : (modTx s p f).mer = s.mer := rfl
@[simp] theorem modTx_lanes (p : Nat) (f : LinkTx → LinkTx) : (modTx s p f).lanes = s.lanes := rfl
@[simp] theorem modTx_tiles (p : Nat) (f : LinkTx → LinkTx) : (modTx s p f).tiles = s.tiles := rfl
@[simp] theorem modTx_sw (p : Nat) (f : LinkTx → LinkTx) : (modTx s p f).sw = s.sw := rfl
@[simp] theorem modTx_route (p : Nat) (f : LinkTx → LinkTx) : (modTx s p f).route = s.route := rfl
@[simp] theorem modTx_bank (p : Nat) (f : LinkTx → LinkTx) : (modTx s p f).bank = s.bank := rfl
@[simp] theorem modTx_staging (p : Nat) (f : LinkTx → LinkTx) : (modTx s p f).staging = s.staging := rfl
@[simp] theorem modTx_offices (p : Nat) (f : LinkTx → LinkTx) : (modTx s p f).offices = s.offices := rfl
@[simp] theorem modTx_clerks (p : Nat) (f : LinkTx → LinkTx) : (modTx s p f).clerks = s.clerks := rfl
@[simp] theorem modTx_groups (p : Nat) (f : LinkTx → LinkTx) : (modTx s p f).groups = s.groups := rfl
@[simp] theorem modTx_cxl (p : Nat) (f : LinkTx → LinkTx) : (modTx s p f).cxl = s.cxl := rfl
@[simp] theorem modTx_mem (p : Nat) (f : LinkTx → LinkTx) : (modTx s p f).mem = s.mem := rfl
@[simp] theorem modTx_capture (p : Nat) (f : LinkTx → LinkTx) : (modTx s p f).capture = s.capture := rfl
@[simp] theorem modTx_pm (p : Nat) (f : LinkTx → LinkTx) : (modTx s p f).pm = s.pm := rfl
@[simp] theorem modTx_gmi (p : Nat) (f : LinkTx → LinkTx) : (modTx s p f).gmi = s.gmi := rfl
@[simp] theorem modTx_trust (p : Nat) (f : LinkTx → LinkTx) : (modTx s p f).trust = s.trust := rfl
@[simp] theorem modTx_clk (p : Nat) (f : LinkTx → LinkTx) : (modTx s p f).clk = s.clk := rfl
@[simp] theorem modTx_pow (p : Nat) (f : LinkTx → LinkTx) : (modTx s p f).pow = s.pow := rfl
@[simp] theorem modTx_sens (p : Nat) (f : LinkTx → LinkTx) : (modTx s p f).sens = s.sens := rfl
@[simp] theorem modTx_tele (p : Nat) (f : LinkTx → LinkTx) : (modTx s p f).tele = s.tele := rfl
@[simp] theorem modTx_tray (p : Nat) (f : LinkTx → LinkTx) : (modTx s p f).tray = s.tray := rfl
@[simp] theorem modTx_ident (p : Nat) (f : LinkTx → LinkTx) : (modTx s p f).ident = s.ident := rfl
@[simp] theorem modTx_draw (p : Nat) (f : LinkTx → LinkTx) : (modTx s p f).draw = s.draw := rfl
@[simp] theorem modTx_pending (p : Nat) (f : LinkTx → LinkTx) : (modTx s p f).pending = s.pending := rfl

@[simp] theorem modRx_mer (p : Nat) (f : LinkRx → LinkRx) : (modRx s p f).mer = s.mer := rfl
@[simp] theorem modRx_lanes (p : Nat) (f : LinkRx → LinkRx) : (modRx s p f).lanes = s.lanes := rfl
@[simp] theorem modRx_tiles (p : Nat) (f : LinkRx → LinkRx) : (modRx s p f).tiles = s.tiles := rfl
@[simp] theorem modRx_sw (p : Nat) (f : LinkRx → LinkRx) : (modRx s p f).sw = s.sw := rfl
@[simp] theorem modRx_route (p : Nat) (f : LinkRx → LinkRx) : (modRx s p f).route = s.route := rfl
@[simp] theorem modRx_bank (p : Nat) (f : LinkRx → LinkRx) : (modRx s p f).bank = s.bank := rfl
@[simp] theorem modRx_staging (p : Nat) (f : LinkRx → LinkRx) : (modRx s p f).staging = s.staging := rfl
@[simp] theorem modRx_offices (p : Nat) (f : LinkRx → LinkRx) : (modRx s p f).offices = s.offices := rfl
@[simp] theorem modRx_clerks (p : Nat) (f : LinkRx → LinkRx) : (modRx s p f).clerks = s.clerks := rfl
@[simp] theorem modRx_groups (p : Nat) (f : LinkRx → LinkRx) : (modRx s p f).groups = s.groups := rfl
@[simp] theorem modRx_cxl (p : Nat) (f : LinkRx → LinkRx) : (modRx s p f).cxl = s.cxl := rfl
@[simp] theorem modRx_mem (p : Nat) (f : LinkRx → LinkRx) : (modRx s p f).mem = s.mem := rfl
@[simp] theorem modRx_capture (p : Nat) (f : LinkRx → LinkRx) : (modRx s p f).capture = s.capture := rfl
@[simp] theorem modRx_pm (p : Nat) (f : LinkRx → LinkRx) : (modRx s p f).pm = s.pm := rfl
@[simp] theorem modRx_gmi (p : Nat) (f : LinkRx → LinkRx) : (modRx s p f).gmi = s.gmi := rfl
@[simp] theorem modRx_trust (p : Nat) (f : LinkRx → LinkRx) : (modRx s p f).trust = s.trust := rfl
@[simp] theorem modRx_clk (p : Nat) (f : LinkRx → LinkRx) : (modRx s p f).clk = s.clk := rfl
@[simp] theorem modRx_pow (p : Nat) (f : LinkRx → LinkRx) : (modRx s p f).pow = s.pow := rfl
@[simp] theorem modRx_sens (p : Nat) (f : LinkRx → LinkRx) : (modRx s p f).sens = s.sens := rfl
@[simp] theorem modRx_tele (p : Nat) (f : LinkRx → LinkRx) : (modRx s p f).tele = s.tele := rfl
@[simp] theorem modRx_tray (p : Nat) (f : LinkRx → LinkRx) : (modRx s p f).tray = s.tray := rfl
@[simp] theorem modRx_ident (p : Nat) (f : LinkRx → LinkRx) : (modRx s p f).ident = s.ident := rfl
@[simp] theorem modRx_draw (p : Nat) (f : LinkRx → LinkRx) : (modRx s p f).draw = s.draw := rfl
@[simp] theorem modRx_pending (p : Nat) (f : LinkRx → LinkRx) : (modRx s p f).pending = s.pending := rfl

@[simp] theorem modEgress_mer (p : Nat) (f : Egress → Egress) : (modEgress s p f).mer = s.mer := rfl
@[simp] theorem modEgress_lanes (p : Nat) (f : Egress → Egress) : (modEgress s p f).lanes = s.lanes := rfl
@[simp] theorem modEgress_tiles (p : Nat) (f : Egress → Egress) : (modEgress s p f).tiles = s.tiles := rfl
@[simp] theorem modEgress_links (p : Nat) (f : Egress → Egress) : (modEgress s p f).links = s.links := rfl
@[simp] theorem modEgress_route (p : Nat) (f : Egress → Egress) : (modEgress s p f).route = s.route := rfl
@[simp] theorem modEgress_bank (p : Nat) (f : Egress → Egress) : (modEgress s p f).bank = s.bank := rfl
@[simp] theorem modEgress_staging (p : Nat) (f : Egress → Egress) : (modEgress s p f).staging = s.staging := rfl
@[simp] theorem modEgress_offices (p : Nat) (f : Egress → Egress) : (modEgress s p f).offices = s.offices := rfl
@[simp] theorem modEgress_clerks (p : Nat) (f : Egress → Egress) : (modEgress s p f).clerks = s.clerks := rfl
@[simp] theorem modEgress_groups (p : Nat) (f : Egress → Egress) : (modEgress s p f).groups = s.groups := rfl
@[simp] theorem modEgress_cxl (p : Nat) (f : Egress → Egress) : (modEgress s p f).cxl = s.cxl := rfl
@[simp] theorem modEgress_mem (p : Nat) (f : Egress → Egress) : (modEgress s p f).mem = s.mem := rfl
@[simp] theorem modEgress_capture (p : Nat) (f : Egress → Egress) : (modEgress s p f).capture = s.capture := rfl
@[simp] theorem modEgress_pm (p : Nat) (f : Egress → Egress) : (modEgress s p f).pm = s.pm := rfl
@[simp] theorem modEgress_gmi (p : Nat) (f : Egress → Egress) : (modEgress s p f).gmi = s.gmi := rfl
@[simp] theorem modEgress_trust (p : Nat) (f : Egress → Egress) : (modEgress s p f).trust = s.trust := rfl
@[simp] theorem modEgress_clk (p : Nat) (f : Egress → Egress) : (modEgress s p f).clk = s.clk := rfl
@[simp] theorem modEgress_pow (p : Nat) (f : Egress → Egress) : (modEgress s p f).pow = s.pow := rfl
@[simp] theorem modEgress_sens (p : Nat) (f : Egress → Egress) : (modEgress s p f).sens = s.sens := rfl
@[simp] theorem modEgress_tele (p : Nat) (f : Egress → Egress) : (modEgress s p f).tele = s.tele := rfl
@[simp] theorem modEgress_tray (p : Nat) (f : Egress → Egress) : (modEgress s p f).tray = s.tray := rfl
@[simp] theorem modEgress_ident (p : Nat) (f : Egress → Egress) : (modEgress s p f).ident = s.ident := rfl
@[simp] theorem modEgress_draw (p : Nat) (f : Egress → Egress) : (modEgress s p f).draw = s.draw := rfl
@[simp] theorem modEgress_pending (p : Nat) (f : Egress → Egress) : (modEgress s p f).pending = s.pending := rfl

@[simp] theorem modDisp_mer (c : Nat) (f : DispCh → DispCh) : (modDisp s c f).mer = s.mer := rfl
@[simp] theorem modDisp_lanes (c : Nat) (f : DispCh → DispCh) : (modDisp s c f).lanes = s.lanes := rfl
@[simp] theorem modDisp_tiles (c : Nat) (f : DispCh → DispCh) : (modDisp s c f).tiles = s.tiles := rfl
@[simp] theorem modDisp_links (c : Nat) (f : DispCh → DispCh) : (modDisp s c f).links = s.links := rfl
@[simp] theorem modDisp_route (c : Nat) (f : DispCh → DispCh) : (modDisp s c f).route = s.route := rfl
@[simp] theorem modDisp_bank (c : Nat) (f : DispCh → DispCh) : (modDisp s c f).bank = s.bank := rfl
@[simp] theorem modDisp_staging (c : Nat) (f : DispCh → DispCh) : (modDisp s c f).staging = s.staging := rfl
@[simp] theorem modDisp_offices (c : Nat) (f : DispCh → DispCh) : (modDisp s c f).offices = s.offices := rfl
@[simp] theorem modDisp_clerks (c : Nat) (f : DispCh → DispCh) : (modDisp s c f).clerks = s.clerks := rfl
@[simp] theorem modDisp_groups (c : Nat) (f : DispCh → DispCh) : (modDisp s c f).groups = s.groups := rfl
@[simp] theorem modDisp_cxl (c : Nat) (f : DispCh → DispCh) : (modDisp s c f).cxl = s.cxl := rfl
@[simp] theorem modDisp_mem (c : Nat) (f : DispCh → DispCh) : (modDisp s c f).mem = s.mem := rfl
@[simp] theorem modDisp_capture (c : Nat) (f : DispCh → DispCh) : (modDisp s c f).capture = s.capture := rfl
@[simp] theorem modDisp_pm (c : Nat) (f : DispCh → DispCh) : (modDisp s c f).pm = s.pm := rfl
@[simp] theorem modDisp_gmi (c : Nat) (f : DispCh → DispCh) : (modDisp s c f).gmi = s.gmi := rfl
@[simp] theorem modDisp_trust (c : Nat) (f : DispCh → DispCh) : (modDisp s c f).trust = s.trust := rfl
@[simp] theorem modDisp_clk (c : Nat) (f : DispCh → DispCh) : (modDisp s c f).clk = s.clk := rfl
@[simp] theorem modDisp_pow (c : Nat) (f : DispCh → DispCh) : (modDisp s c f).pow = s.pow := rfl
@[simp] theorem modDisp_sens (c : Nat) (f : DispCh → DispCh) : (modDisp s c f).sens = s.sens := rfl
@[simp] theorem modDisp_tele (c : Nat) (f : DispCh → DispCh) : (modDisp s c f).tele = s.tele := rfl
@[simp] theorem modDisp_tray (c : Nat) (f : DispCh → DispCh) : (modDisp s c f).tray = s.tray := rfl
@[simp] theorem modDisp_ident (c : Nat) (f : DispCh → DispCh) : (modDisp s c f).ident = s.ident := rfl
@[simp] theorem modDisp_draw (c : Nat) (f : DispCh → DispCh) : (modDisp s c f).draw = s.draw := rfl
@[simp] theorem modDisp_pending (c : Nat) (f : DispCh → DispCh) : (modDisp s c f).pending = s.pending := rfl

@[simp] theorem modChron_lanes (p : Nat) (f : ChronPort → ChronPort) : (modChron s p f).lanes = s.lanes := rfl
@[simp] theorem modChron_tiles (p : Nat) (f : ChronPort → ChronPort) : (modChron s p f).tiles = s.tiles := rfl
@[simp] theorem modChron_links (p : Nat) (f : ChronPort → ChronPort) : (modChron s p f).links = s.links := rfl
@[simp] theorem modChron_sw (p : Nat) (f : ChronPort → ChronPort) : (modChron s p f).sw = s.sw := rfl
@[simp] theorem modChron_route (p : Nat) (f : ChronPort → ChronPort) : (modChron s p f).route = s.route := rfl
@[simp] theorem modChron_bank (p : Nat) (f : ChronPort → ChronPort) : (modChron s p f).bank = s.bank := rfl
@[simp] theorem modChron_staging (p : Nat) (f : ChronPort → ChronPort) : (modChron s p f).staging = s.staging := rfl
@[simp] theorem modChron_offices (p : Nat) (f : ChronPort → ChronPort) : (modChron s p f).offices = s.offices := rfl
@[simp] theorem modChron_clerks (p : Nat) (f : ChronPort → ChronPort) : (modChron s p f).clerks = s.clerks := rfl
@[simp] theorem modChron_groups (p : Nat) (f : ChronPort → ChronPort) : (modChron s p f).groups = s.groups := rfl
@[simp] theorem modChron_cxl (p : Nat) (f : ChronPort → ChronPort) : (modChron s p f).cxl = s.cxl := rfl
@[simp] theorem modChron_mem (p : Nat) (f : ChronPort → ChronPort) : (modChron s p f).mem = s.mem := rfl
@[simp] theorem modChron_capture (p : Nat) (f : ChronPort → ChronPort) : (modChron s p f).capture = s.capture := rfl
@[simp] theorem modChron_pm (p : Nat) (f : ChronPort → ChronPort) : (modChron s p f).pm = s.pm := rfl
@[simp] theorem modChron_gmi (p : Nat) (f : ChronPort → ChronPort) : (modChron s p f).gmi = s.gmi := rfl
@[simp] theorem modChron_trust (p : Nat) (f : ChronPort → ChronPort) : (modChron s p f).trust = s.trust := rfl
@[simp] theorem modChron_clk (p : Nat) (f : ChronPort → ChronPort) : (modChron s p f).clk = s.clk := rfl
@[simp] theorem modChron_pow (p : Nat) (f : ChronPort → ChronPort) : (modChron s p f).pow = s.pow := rfl
@[simp] theorem modChron_sens (p : Nat) (f : ChronPort → ChronPort) : (modChron s p f).sens = s.sens := rfl
@[simp] theorem modChron_tele (p : Nat) (f : ChronPort → ChronPort) : (modChron s p f).tele = s.tele := rfl
@[simp] theorem modChron_tray (p : Nat) (f : ChronPort → ChronPort) : (modChron s p f).tray = s.tray := rfl
@[simp] theorem modChron_ident (p : Nat) (f : ChronPort → ChronPort) : (modChron s p f).ident = s.ident := rfl
@[simp] theorem modChron_draw (p : Nat) (f : ChronPort → ChronPort) : (modChron s p f).draw = s.draw := rfl
@[simp] theorem modChron_pending (p : Nat) (f : ChronPort → ChronPort) : (modChron s p f).pending = s.pending := rfl

@[simp] theorem modOffice_mer (o : Nat) (f : Office → Office) : (modOffice s o f).mer = s.mer := rfl
@[simp] theorem modOffice_lanes (o : Nat) (f : Office → Office) : (modOffice s o f).lanes = s.lanes := rfl
@[simp] theorem modOffice_tiles (o : Nat) (f : Office → Office) : (modOffice s o f).tiles = s.tiles := rfl
@[simp] theorem modOffice_links (o : Nat) (f : Office → Office) : (modOffice s o f).links = s.links := rfl
@[simp] theorem modOffice_sw (o : Nat) (f : Office → Office) : (modOffice s o f).sw = s.sw := rfl
@[simp] theorem modOffice_route (o : Nat) (f : Office → Office) : (modOffice s o f).route = s.route := rfl
@[simp] theorem modOffice_bank (o : Nat) (f : Office → Office) : (modOffice s o f).bank = s.bank := rfl
@[simp] theorem modOffice_staging (o : Nat) (f : Office → Office) : (modOffice s o f).staging = s.staging := rfl
@[simp] theorem modOffice_clerks (o : Nat) (f : Office → Office) : (modOffice s o f).clerks = s.clerks := rfl
@[simp] theorem modOffice_groups (o : Nat) (f : Office → Office) : (modOffice s o f).groups = s.groups := rfl
@[simp] theorem modOffice_cxl (o : Nat) (f : Office → Office) : (modOffice s o f).cxl = s.cxl := rfl
@[simp] theorem modOffice_mem (o : Nat) (f : Office → Office) : (modOffice s o f).mem = s.mem := rfl
@[simp] theorem modOffice_capture (o : Nat) (f : Office → Office) : (modOffice s o f).capture = s.capture := rfl
@[simp] theorem modOffice_pm (o : Nat) (f : Office → Office) : (modOffice s o f).pm = s.pm := rfl
@[simp] theorem modOffice_gmi (o : Nat) (f : Office → Office) : (modOffice s o f).gmi = s.gmi := rfl
@[simp] theorem modOffice_trust (o : Nat) (f : Office → Office) : (modOffice s o f).trust = s.trust := rfl
@[simp] theorem modOffice_clk (o : Nat) (f : Office → Office) : (modOffice s o f).clk = s.clk := rfl
@[simp] theorem modOffice_pow (o : Nat) (f : Office → Office) : (modOffice s o f).pow = s.pow := rfl
@[simp] theorem modOffice_sens (o : Nat) (f : Office → Office) : (modOffice s o f).sens = s.sens := rfl
@[simp] theorem modOffice_tele (o : Nat) (f : Office → Office) : (modOffice s o f).tele = s.tele := rfl
@[simp] theorem modOffice_tray (o : Nat) (f : Office → Office) : (modOffice s o f).tray = s.tray := rfl
@[simp] theorem modOffice_ident (o : Nat) (f : Office → Office) : (modOffice s o f).ident = s.ident := rfl
@[simp] theorem modOffice_draw (o : Nat) (f : Office → Office) : (modOffice s o f).draw = s.draw := rfl
@[simp] theorem modOffice_pending (o : Nat) (f : Office → Office) : (modOffice s o f).pending = s.pending := rfl

@[simp] theorem setClerk_mer (k : Nat) (v : Clerk) : (setClerk s k v).mer = s.mer := rfl
@[simp] theorem setClerk_lanes (k : Nat) (v : Clerk) : (setClerk s k v).lanes = s.lanes := rfl
@[simp] theorem setClerk_tiles (k : Nat) (v : Clerk) : (setClerk s k v).tiles = s.tiles := rfl
@[simp] theorem setClerk_links (k : Nat) (v : Clerk) : (setClerk s k v).links = s.links := rfl
@[simp] theorem setClerk_sw (k : Nat) (v : Clerk) : (setClerk s k v).sw = s.sw := rfl
@[simp] theorem setClerk_route (k : Nat) (v : Clerk) : (setClerk s k v).route = s.route := rfl
@[simp] theorem setClerk_bank (k : Nat) (v : Clerk) : (setClerk s k v).bank = s.bank := rfl
@[simp] theorem setClerk_staging (k : Nat) (v : Clerk) : (setClerk s k v).staging = s.staging := rfl
@[simp] theorem setClerk_offices (k : Nat) (v : Clerk) : (setClerk s k v).offices = s.offices := rfl
@[simp] theorem setClerk_groups (k : Nat) (v : Clerk) : (setClerk s k v).groups = s.groups := rfl
@[simp] theorem setClerk_cxl (k : Nat) (v : Clerk) : (setClerk s k v).cxl = s.cxl := rfl
@[simp] theorem setClerk_mem (k : Nat) (v : Clerk) : (setClerk s k v).mem = s.mem := rfl
@[simp] theorem setClerk_capture (k : Nat) (v : Clerk) : (setClerk s k v).capture = s.capture := rfl
@[simp] theorem setClerk_pm (k : Nat) (v : Clerk) : (setClerk s k v).pm = s.pm := rfl
@[simp] theorem setClerk_gmi (k : Nat) (v : Clerk) : (setClerk s k v).gmi = s.gmi := rfl
@[simp] theorem setClerk_trust (k : Nat) (v : Clerk) : (setClerk s k v).trust = s.trust := rfl
@[simp] theorem setClerk_clk (k : Nat) (v : Clerk) : (setClerk s k v).clk = s.clk := rfl
@[simp] theorem setClerk_pow (k : Nat) (v : Clerk) : (setClerk s k v).pow = s.pow := rfl
@[simp] theorem setClerk_sens (k : Nat) (v : Clerk) : (setClerk s k v).sens = s.sens := rfl
@[simp] theorem setClerk_tele (k : Nat) (v : Clerk) : (setClerk s k v).tele = s.tele := rfl
@[simp] theorem setClerk_tray (k : Nat) (v : Clerk) : (setClerk s k v).tray = s.tray := rfl
@[simp] theorem setClerk_ident (k : Nat) (v : Clerk) : (setClerk s k v).ident = s.ident := rfl
@[simp] theorem setClerk_draw (k : Nat) (v : Clerk) : (setClerk s k v).draw = s.draw := rfl
@[simp] theorem setClerk_pending (k : Nat) (v : Clerk) : (setClerk s k v).pending = s.pending := rfl

@[simp] theorem modClerk_mer (k : Nat) (f : Clerk → Clerk) : (modClerk s k f).mer = s.mer := rfl
@[simp] theorem modClerk_lanes (k : Nat) (f : Clerk → Clerk) : (modClerk s k f).lanes = s.lanes := rfl
@[simp] theorem modClerk_tiles (k : Nat) (f : Clerk → Clerk) : (modClerk s k f).tiles = s.tiles := rfl
@[simp] theorem modClerk_links (k : Nat) (f : Clerk → Clerk) : (modClerk s k f).links = s.links := rfl
@[simp] theorem modClerk_sw (k : Nat) (f : Clerk → Clerk) : (modClerk s k f).sw = s.sw := rfl
@[simp] theorem modClerk_route (k : Nat) (f : Clerk → Clerk) : (modClerk s k f).route = s.route := rfl
@[simp] theorem modClerk_bank (k : Nat) (f : Clerk → Clerk) : (modClerk s k f).bank = s.bank := rfl
@[simp] theorem modClerk_staging (k : Nat) (f : Clerk → Clerk) : (modClerk s k f).staging = s.staging := rfl
@[simp] theorem modClerk_offices (k : Nat) (f : Clerk → Clerk) : (modClerk s k f).offices = s.offices := rfl
@[simp] theorem modClerk_groups (k : Nat) (f : Clerk → Clerk) : (modClerk s k f).groups = s.groups := rfl
@[simp] theorem modClerk_cxl (k : Nat) (f : Clerk → Clerk) : (modClerk s k f).cxl = s.cxl := rfl
@[simp] theorem modClerk_mem (k : Nat) (f : Clerk → Clerk) : (modClerk s k f).mem = s.mem := rfl
@[simp] theorem modClerk_capture (k : Nat) (f : Clerk → Clerk) : (modClerk s k f).capture = s.capture := rfl
@[simp] theorem modClerk_pm (k : Nat) (f : Clerk → Clerk) : (modClerk s k f).pm = s.pm := rfl
@[simp] theorem modClerk_gmi (k : Nat) (f : Clerk → Clerk) : (modClerk s k f).gmi = s.gmi := rfl
@[simp] theorem modClerk_trust (k : Nat) (f : Clerk → Clerk) : (modClerk s k f).trust = s.trust := rfl
@[simp] theorem modClerk_clk (k : Nat) (f : Clerk → Clerk) : (modClerk s k f).clk = s.clk := rfl
@[simp] theorem modClerk_pow (k : Nat) (f : Clerk → Clerk) : (modClerk s k f).pow = s.pow := rfl
@[simp] theorem modClerk_sens (k : Nat) (f : Clerk → Clerk) : (modClerk s k f).sens = s.sens := rfl
@[simp] theorem modClerk_tele (k : Nat) (f : Clerk → Clerk) : (modClerk s k f).tele = s.tele := rfl
@[simp] theorem modClerk_tray (k : Nat) (f : Clerk → Clerk) : (modClerk s k f).tray = s.tray := rfl
@[simp] theorem modClerk_ident (k : Nat) (f : Clerk → Clerk) : (modClerk s k f).ident = s.ident := rfl
@[simp] theorem modClerk_draw (k : Nat) (f : Clerk → Clerk) : (modClerk s k f).draw = s.draw := rfl
@[simp] theorem modClerk_pending (k : Nat) (f : Clerk → Clerk) : (modClerk s k f).pending = s.pending := rfl

@[simp] theorem setGroup_mer (e : Nat) (v : Group) : (setGroup s e v).mer = s.mer := rfl
@[simp] theorem setGroup_lanes (e : Nat) (v : Group) : (setGroup s e v).lanes = s.lanes := rfl
@[simp] theorem setGroup_tiles (e : Nat) (v : Group) : (setGroup s e v).tiles = s.tiles := rfl
@[simp] theorem setGroup_links (e : Nat) (v : Group) : (setGroup s e v).links = s.links := rfl
@[simp] theorem setGroup_sw (e : Nat) (v : Group) : (setGroup s e v).sw = s.sw := rfl
@[simp] theorem setGroup_route (e : Nat) (v : Group) : (setGroup s e v).route = s.route := rfl
@[simp] theorem setGroup_bank (e : Nat) (v : Group) : (setGroup s e v).bank = s.bank := rfl
@[simp] theorem setGroup_staging (e : Nat) (v : Group) : (setGroup s e v).staging = s.staging := rfl
@[simp] theorem setGroup_offices (e : Nat) (v : Group) : (setGroup s e v).offices = s.offices := rfl
@[simp] theorem setGroup_clerks (e : Nat) (v : Group) : (setGroup s e v).clerks = s.clerks := rfl
@[simp] theorem setGroup_cxl (e : Nat) (v : Group) : (setGroup s e v).cxl = s.cxl := rfl
@[simp] theorem setGroup_mem (e : Nat) (v : Group) : (setGroup s e v).mem = s.mem := rfl
@[simp] theorem setGroup_capture (e : Nat) (v : Group) : (setGroup s e v).capture = s.capture := rfl
@[simp] theorem setGroup_pm (e : Nat) (v : Group) : (setGroup s e v).pm = s.pm := rfl
@[simp] theorem setGroup_gmi (e : Nat) (v : Group) : (setGroup s e v).gmi = s.gmi := rfl
@[simp] theorem setGroup_trust (e : Nat) (v : Group) : (setGroup s e v).trust = s.trust := rfl
@[simp] theorem setGroup_clk (e : Nat) (v : Group) : (setGroup s e v).clk = s.clk := rfl
@[simp] theorem setGroup_pow (e : Nat) (v : Group) : (setGroup s e v).pow = s.pow := rfl
@[simp] theorem setGroup_sens (e : Nat) (v : Group) : (setGroup s e v).sens = s.sens := rfl
@[simp] theorem setGroup_tele (e : Nat) (v : Group) : (setGroup s e v).tele = s.tele := rfl
@[simp] theorem setGroup_tray (e : Nat) (v : Group) : (setGroup s e v).tray = s.tray := rfl
@[simp] theorem setGroup_ident (e : Nat) (v : Group) : (setGroup s e v).ident = s.ident := rfl
@[simp] theorem setGroup_draw (e : Nat) (v : Group) : (setGroup s e v).draw = s.draw := rfl
@[simp] theorem setGroup_pending (e : Nat) (v : Group) : (setGroup s e v).pending = s.pending := rfl

@[simp] theorem modGroup_mer (e : Nat) (f : Group → Group) : (modGroup s e f).mer = s.mer := rfl
@[simp] theorem modGroup_lanes (e : Nat) (f : Group → Group) : (modGroup s e f).lanes = s.lanes := rfl
@[simp] theorem modGroup_tiles (e : Nat) (f : Group → Group) : (modGroup s e f).tiles = s.tiles := rfl
@[simp] theorem modGroup_links (e : Nat) (f : Group → Group) : (modGroup s e f).links = s.links := rfl
@[simp] theorem modGroup_sw (e : Nat) (f : Group → Group) : (modGroup s e f).sw = s.sw := rfl
@[simp] theorem modGroup_route (e : Nat) (f : Group → Group) : (modGroup s e f).route = s.route := rfl
@[simp] theorem modGroup_bank (e : Nat) (f : Group → Group) : (modGroup s e f).bank = s.bank := rfl
@[simp] theorem modGroup_staging (e : Nat) (f : Group → Group) : (modGroup s e f).staging = s.staging := rfl
@[simp] theorem modGroup_offices (e : Nat) (f : Group → Group) : (modGroup s e f).offices = s.offices := rfl
@[simp] theorem modGroup_clerks (e : Nat) (f : Group → Group) : (modGroup s e f).clerks = s.clerks := rfl
@[simp] theorem modGroup_cxl (e : Nat) (f : Group → Group) : (modGroup s e f).cxl = s.cxl := rfl
@[simp] theorem modGroup_mem (e : Nat) (f : Group → Group) : (modGroup s e f).mem = s.mem := rfl
@[simp] theorem modGroup_capture (e : Nat) (f : Group → Group) : (modGroup s e f).capture = s.capture := rfl
@[simp] theorem modGroup_pm (e : Nat) (f : Group → Group) : (modGroup s e f).pm = s.pm := rfl
@[simp] theorem modGroup_gmi (e : Nat) (f : Group → Group) : (modGroup s e f).gmi = s.gmi := rfl
@[simp] theorem modGroup_trust (e : Nat) (f : Group → Group) : (modGroup s e f).trust = s.trust := rfl
@[simp] theorem modGroup_clk (e : Nat) (f : Group → Group) : (modGroup s e f).clk = s.clk := rfl
@[simp] theorem modGroup_pow (e : Nat) (f : Group → Group) : (modGroup s e f).pow = s.pow := rfl
@[simp] theorem modGroup_sens (e : Nat) (f : Group → Group) : (modGroup s e f).sens = s.sens := rfl
@[simp] theorem modGroup_tele (e : Nat) (f : Group → Group) : (modGroup s e f).tele = s.tele := rfl
@[simp] theorem modGroup_tray (e : Nat) (f : Group → Group) : (modGroup s e f).tray = s.tray := rfl
@[simp] theorem modGroup_ident (e : Nat) (f : Group → Group) : (modGroup s e f).ident = s.ident := rfl
@[simp] theorem modGroup_draw (e : Nat) (f : Group → Group) : (modGroup s e f).draw = s.draw := rfl
@[simp] theorem modGroup_pending (e : Nat) (f : Group → Group) : (modGroup s e f).pending = s.pending := rfl

@[simp] theorem modMem_mer (h : Nat) (f : MemHalf → MemHalf) : (modMem s h f).mer = s.mer := rfl
@[simp] theorem modMem_lanes (h : Nat) (f : MemHalf → MemHalf) : (modMem s h f).lanes = s.lanes := rfl
@[simp] theorem modMem_tiles (h : Nat) (f : MemHalf → MemHalf) : (modMem s h f).tiles = s.tiles := rfl
@[simp] theorem modMem_links (h : Nat) (f : MemHalf → MemHalf) : (modMem s h f).links = s.links := rfl
@[simp] theorem modMem_sw (h : Nat) (f : MemHalf → MemHalf) : (modMem s h f).sw = s.sw := rfl
@[simp] theorem modMem_route (h : Nat) (f : MemHalf → MemHalf) : (modMem s h f).route = s.route := rfl
@[simp] theorem modMem_bank (h : Nat) (f : MemHalf → MemHalf) : (modMem s h f).bank = s.bank := rfl
@[simp] theorem modMem_staging (h : Nat) (f : MemHalf → MemHalf) : (modMem s h f).staging = s.staging := rfl
@[simp] theorem modMem_offices (h : Nat) (f : MemHalf → MemHalf) : (modMem s h f).offices = s.offices := rfl
@[simp] theorem modMem_clerks (h : Nat) (f : MemHalf → MemHalf) : (modMem s h f).clerks = s.clerks := rfl
@[simp] theorem modMem_groups (h : Nat) (f : MemHalf → MemHalf) : (modMem s h f).groups = s.groups := rfl
@[simp] theorem modMem_cxl (h : Nat) (f : MemHalf → MemHalf) : (modMem s h f).cxl = s.cxl := rfl
@[simp] theorem modMem_capture (h : Nat) (f : MemHalf → MemHalf) : (modMem s h f).capture = s.capture := rfl
@[simp] theorem modMem_pm (h : Nat) (f : MemHalf → MemHalf) : (modMem s h f).pm = s.pm := rfl
@[simp] theorem modMem_gmi (h : Nat) (f : MemHalf → MemHalf) : (modMem s h f).gmi = s.gmi := rfl
@[simp] theorem modMem_trust (h : Nat) (f : MemHalf → MemHalf) : (modMem s h f).trust = s.trust := rfl
@[simp] theorem modMem_clk (h : Nat) (f : MemHalf → MemHalf) : (modMem s h f).clk = s.clk := rfl
@[simp] theorem modMem_pow (h : Nat) (f : MemHalf → MemHalf) : (modMem s h f).pow = s.pow := rfl
@[simp] theorem modMem_sens (h : Nat) (f : MemHalf → MemHalf) : (modMem s h f).sens = s.sens := rfl
@[simp] theorem modMem_tele (h : Nat) (f : MemHalf → MemHalf) : (modMem s h f).tele = s.tele := rfl
@[simp] theorem modMem_tray (h : Nat) (f : MemHalf → MemHalf) : (modMem s h f).tray = s.tray := rfl
@[simp] theorem modMem_ident (h : Nat) (f : MemHalf → MemHalf) : (modMem s h f).ident = s.ident := rfl
@[simp] theorem modMem_draw (h : Nat) (f : MemHalf → MemHalf) : (modMem s h f).draw = s.draw := rfl
@[simp] theorem modMem_pending (h : Nat) (f : MemHalf → MemHalf) : (modMem s h f).pending = s.pending := rfl

@[simp] theorem modChan_mer (c : Nat) (f : Chan → Chan) : (modChan s c f).mer = s.mer := rfl
@[simp] theorem modChan_lanes (c : Nat) (f : Chan → Chan) : (modChan s c f).lanes = s.lanes := rfl
@[simp] theorem modChan_tiles (c : Nat) (f : Chan → Chan) : (modChan s c f).tiles = s.tiles := rfl
@[simp] theorem modChan_links (c : Nat) (f : Chan → Chan) : (modChan s c f).links = s.links := rfl
@[simp] theorem modChan_sw (c : Nat) (f : Chan → Chan) : (modChan s c f).sw = s.sw := rfl
@[simp] theorem modChan_route (c : Nat) (f : Chan → Chan) : (modChan s c f).route = s.route := rfl
@[simp] theorem modChan_bank (c : Nat) (f : Chan → Chan) : (modChan s c f).bank = s.bank := rfl
@[simp] theorem modChan_staging (c : Nat) (f : Chan → Chan) : (modChan s c f).staging = s.staging := rfl
@[simp] theorem modChan_offices (c : Nat) (f : Chan → Chan) : (modChan s c f).offices = s.offices := rfl
@[simp] theorem modChan_clerks (c : Nat) (f : Chan → Chan) : (modChan s c f).clerks = s.clerks := rfl
@[simp] theorem modChan_groups (c : Nat) (f : Chan → Chan) : (modChan s c f).groups = s.groups := rfl
@[simp] theorem modChan_cxl (c : Nat) (f : Chan → Chan) : (modChan s c f).cxl = s.cxl := rfl
@[simp] theorem modChan_mem (c : Nat) (f : Chan → Chan) : (modChan s c f).mem = s.mem := rfl
@[simp] theorem modChan_capture (c : Nat) (f : Chan → Chan) : (modChan s c f).capture = s.capture := rfl
@[simp] theorem modChan_gmi (c : Nat) (f : Chan → Chan) : (modChan s c f).gmi = s.gmi := rfl
@[simp] theorem modChan_trust (c : Nat) (f : Chan → Chan) : (modChan s c f).trust = s.trust := rfl
@[simp] theorem modChan_clk (c : Nat) (f : Chan → Chan) : (modChan s c f).clk = s.clk := rfl
@[simp] theorem modChan_pow (c : Nat) (f : Chan → Chan) : (modChan s c f).pow = s.pow := rfl
@[simp] theorem modChan_sens (c : Nat) (f : Chan → Chan) : (modChan s c f).sens = s.sens := rfl
@[simp] theorem modChan_tele (c : Nat) (f : Chan → Chan) : (modChan s c f).tele = s.tele := rfl
@[simp] theorem modChan_tray (c : Nat) (f : Chan → Chan) : (modChan s c f).tray = s.tray := rfl
@[simp] theorem modChan_ident (c : Nat) (f : Chan → Chan) : (modChan s c f).ident = s.ident := rfl
@[simp] theorem modChan_draw (c : Nat) (f : Chan → Chan) : (modChan s c f).draw = s.draw := rfl
@[simp] theorem modChan_pending (c : Nat) (f : Chan → Chan) : (modChan s c f).pending = s.pending := rfl

@[simp] theorem modSrc_mer (i : Nat) (f : Src → Src) : (modSrc s i f).mer = s.mer := rfl
@[simp] theorem modSrc_lanes (i : Nat) (f : Src → Src) : (modSrc s i f).lanes = s.lanes := rfl
@[simp] theorem modSrc_tiles (i : Nat) (f : Src → Src) : (modSrc s i f).tiles = s.tiles := rfl
@[simp] theorem modSrc_links (i : Nat) (f : Src → Src) : (modSrc s i f).links = s.links := rfl
@[simp] theorem modSrc_sw (i : Nat) (f : Src → Src) : (modSrc s i f).sw = s.sw := rfl
@[simp] theorem modSrc_route (i : Nat) (f : Src → Src) : (modSrc s i f).route = s.route := rfl
@[simp] theorem modSrc_bank (i : Nat) (f : Src → Src) : (modSrc s i f).bank = s.bank := rfl
@[simp] theorem modSrc_staging (i : Nat) (f : Src → Src) : (modSrc s i f).staging = s.staging := rfl
@[simp] theorem modSrc_offices (i : Nat) (f : Src → Src) : (modSrc s i f).offices = s.offices := rfl
@[simp] theorem modSrc_clerks (i : Nat) (f : Src → Src) : (modSrc s i f).clerks = s.clerks := rfl
@[simp] theorem modSrc_groups (i : Nat) (f : Src → Src) : (modSrc s i f).groups = s.groups := rfl
@[simp] theorem modSrc_cxl (i : Nat) (f : Src → Src) : (modSrc s i f).cxl = s.cxl := rfl
@[simp] theorem modSrc_mem (i : Nat) (f : Src → Src) : (modSrc s i f).mem = s.mem := rfl
@[simp] theorem modSrc_capture (i : Nat) (f : Src → Src) : (modSrc s i f).capture = s.capture := rfl
@[simp] theorem modSrc_pm (i : Nat) (f : Src → Src) : (modSrc s i f).pm = s.pm := rfl
@[simp] theorem modSrc_gmi (i : Nat) (f : Src → Src) : (modSrc s i f).gmi = s.gmi := rfl
@[simp] theorem modSrc_trust (i : Nat) (f : Src → Src) : (modSrc s i f).trust = s.trust := rfl
@[simp] theorem modSrc_pow (i : Nat) (f : Src → Src) : (modSrc s i f).pow = s.pow := rfl
@[simp] theorem modSrc_sens (i : Nat) (f : Src → Src) : (modSrc s i f).sens = s.sens := rfl
@[simp] theorem modSrc_tele (i : Nat) (f : Src → Src) : (modSrc s i f).tele = s.tele := rfl
@[simp] theorem modSrc_tray (i : Nat) (f : Src → Src) : (modSrc s i f).tray = s.tray := rfl
@[simp] theorem modSrc_ident (i : Nat) (f : Src → Src) : (modSrc s i f).ident = s.ident := rfl
@[simp] theorem modSrc_draw (i : Nat) (f : Src → Src) : (modSrc s i f).draw = s.draw := rfl
@[simp] theorem modSrc_pending (i : Nat) (f : Src → Src) : (modSrc s i f).pending = s.pending := rfl

@[simp] theorem modAcc_mer (i : Nat) (f : AccCap → AccCap) : (modAcc s i f).mer = s.mer := rfl
@[simp] theorem modAcc_lanes (i : Nat) (f : AccCap → AccCap) : (modAcc s i f).lanes = s.lanes := rfl
@[simp] theorem modAcc_tiles (i : Nat) (f : AccCap → AccCap) : (modAcc s i f).tiles = s.tiles := rfl
@[simp] theorem modAcc_links (i : Nat) (f : AccCap → AccCap) : (modAcc s i f).links = s.links := rfl
@[simp] theorem modAcc_sw (i : Nat) (f : AccCap → AccCap) : (modAcc s i f).sw = s.sw := rfl
@[simp] theorem modAcc_route (i : Nat) (f : AccCap → AccCap) : (modAcc s i f).route = s.route := rfl
@[simp] theorem modAcc_bank (i : Nat) (f : AccCap → AccCap) : (modAcc s i f).bank = s.bank := rfl
@[simp] theorem modAcc_staging (i : Nat) (f : AccCap → AccCap) : (modAcc s i f).staging = s.staging := rfl
@[simp] theorem modAcc_offices (i : Nat) (f : AccCap → AccCap) : (modAcc s i f).offices = s.offices := rfl
@[simp] theorem modAcc_clerks (i : Nat) (f : AccCap → AccCap) : (modAcc s i f).clerks = s.clerks := rfl
@[simp] theorem modAcc_groups (i : Nat) (f : AccCap → AccCap) : (modAcc s i f).groups = s.groups := rfl
@[simp] theorem modAcc_cxl (i : Nat) (f : AccCap → AccCap) : (modAcc s i f).cxl = s.cxl := rfl
@[simp] theorem modAcc_mem (i : Nat) (f : AccCap → AccCap) : (modAcc s i f).mem = s.mem := rfl
@[simp] theorem modAcc_capture (i : Nat) (f : AccCap → AccCap) : (modAcc s i f).capture = s.capture := rfl
@[simp] theorem modAcc_pm (i : Nat) (f : AccCap → AccCap) : (modAcc s i f).pm = s.pm := rfl
@[simp] theorem modAcc_gmi (i : Nat) (f : AccCap → AccCap) : (modAcc s i f).gmi = s.gmi := rfl
@[simp] theorem modAcc_trust (i : Nat) (f : AccCap → AccCap) : (modAcc s i f).trust = s.trust := rfl
@[simp] theorem modAcc_clk (i : Nat) (f : AccCap → AccCap) : (modAcc s i f).clk = s.clk := rfl
@[simp] theorem modAcc_sens (i : Nat) (f : AccCap → AccCap) : (modAcc s i f).sens = s.sens := rfl
@[simp] theorem modAcc_tele (i : Nat) (f : AccCap → AccCap) : (modAcc s i f).tele = s.tele := rfl
@[simp] theorem modAcc_tray (i : Nat) (f : AccCap → AccCap) : (modAcc s i f).tray = s.tray := rfl
@[simp] theorem modAcc_ident (i : Nat) (f : AccCap → AccCap) : (modAcc s i f).ident = s.ident := rfl
@[simp] theorem modAcc_draw (i : Nat) (f : AccCap → AccCap) : (modAcc s i f).draw = s.draw := rfl
@[simp] theorem modAcc_pending (i : Nat) (f : AccCap → AccCap) : (modAcc s i f).pending = s.pending := rfl

@[simp] theorem modBox_mer (b : Nat) (f : BoxState → BoxState) : (modBox s b f).mer = s.mer := rfl
@[simp] theorem modBox_lanes (b : Nat) (f : BoxState → BoxState) : (modBox s b f).lanes = s.lanes := rfl
@[simp] theorem modBox_tiles (b : Nat) (f : BoxState → BoxState) : (modBox s b f).tiles = s.tiles := rfl
@[simp] theorem modBox_links (b : Nat) (f : BoxState → BoxState) : (modBox s b f).links = s.links := rfl
@[simp] theorem modBox_sw (b : Nat) (f : BoxState → BoxState) : (modBox s b f).sw = s.sw := rfl
@[simp] theorem modBox_route (b : Nat) (f : BoxState → BoxState) : (modBox s b f).route = s.route := rfl
@[simp] theorem modBox_bank (b : Nat) (f : BoxState → BoxState) : (modBox s b f).bank = s.bank := rfl
@[simp] theorem modBox_staging (b : Nat) (f : BoxState → BoxState) : (modBox s b f).staging = s.staging := rfl
@[simp] theorem modBox_offices (b : Nat) (f : BoxState → BoxState) : (modBox s b f).offices = s.offices := rfl
@[simp] theorem modBox_clerks (b : Nat) (f : BoxState → BoxState) : (modBox s b f).clerks = s.clerks := rfl
@[simp] theorem modBox_groups (b : Nat) (f : BoxState → BoxState) : (modBox s b f).groups = s.groups := rfl
@[simp] theorem modBox_cxl (b : Nat) (f : BoxState → BoxState) : (modBox s b f).cxl = s.cxl := rfl
@[simp] theorem modBox_mem (b : Nat) (f : BoxState → BoxState) : (modBox s b f).mem = s.mem := rfl
@[simp] theorem modBox_capture (b : Nat) (f : BoxState → BoxState) : (modBox s b f).capture = s.capture := rfl
@[simp] theorem modBox_pm (b : Nat) (f : BoxState → BoxState) : (modBox s b f).pm = s.pm := rfl
@[simp] theorem modBox_trust (b : Nat) (f : BoxState → BoxState) : (modBox s b f).trust = s.trust := rfl
@[simp] theorem modBox_clk (b : Nat) (f : BoxState → BoxState) : (modBox s b f).clk = s.clk := rfl
@[simp] theorem modBox_pow (b : Nat) (f : BoxState → BoxState) : (modBox s b f).pow = s.pow := rfl
@[simp] theorem modBox_sens (b : Nat) (f : BoxState → BoxState) : (modBox s b f).sens = s.sens := rfl
@[simp] theorem modBox_tele (b : Nat) (f : BoxState → BoxState) : (modBox s b f).tele = s.tele := rfl
@[simp] theorem modBox_tray (b : Nat) (f : BoxState → BoxState) : (modBox s b f).tray = s.tray := rfl
@[simp] theorem modBox_ident (b : Nat) (f : BoxState → BoxState) : (modBox s b f).ident = s.ident := rfl
@[simp] theorem modBox_draw (b : Nat) (f : BoxState → BoxState) : (modBox s b f).draw = s.draw := rfl
@[simp] theorem modBox_pending (b : Nat) (f : BoxState → BoxState) : (modBox s b f).pending = s.pending := rfl

@[simp] theorem modReorder_mer (h : Nat) (f : Reorder → Reorder) : (modReorder s h f).mer = s.mer := rfl
@[simp] theorem modReorder_lanes (h : Nat) (f : Reorder → Reorder) : (modReorder s h f).lanes = s.lanes := rfl
@[simp] theorem modReorder_tiles (h : Nat) (f : Reorder → Reorder) : (modReorder s h f).tiles = s.tiles := rfl
@[simp] theorem modReorder_links (h : Nat) (f : Reorder → Reorder) : (modReorder s h f).links = s.links := rfl
@[simp] theorem modReorder_sw (h : Nat) (f : Reorder → Reorder) : (modReorder s h f).sw = s.sw := rfl
@[simp] theorem modReorder_bank (h : Nat) (f : Reorder → Reorder) : (modReorder s h f).bank = s.bank := rfl
@[simp] theorem modReorder_staging (h : Nat) (f : Reorder → Reorder) : (modReorder s h f).staging = s.staging := rfl
@[simp] theorem modReorder_offices (h : Nat) (f : Reorder → Reorder) : (modReorder s h f).offices = s.offices := rfl
@[simp] theorem modReorder_clerks (h : Nat) (f : Reorder → Reorder) : (modReorder s h f).clerks = s.clerks := rfl
@[simp] theorem modReorder_groups (h : Nat) (f : Reorder → Reorder) : (modReorder s h f).groups = s.groups := rfl
@[simp] theorem modReorder_cxl (h : Nat) (f : Reorder → Reorder) : (modReorder s h f).cxl = s.cxl := rfl
@[simp] theorem modReorder_mem (h : Nat) (f : Reorder → Reorder) : (modReorder s h f).mem = s.mem := rfl
@[simp] theorem modReorder_capture (h : Nat) (f : Reorder → Reorder) : (modReorder s h f).capture = s.capture := rfl
@[simp] theorem modReorder_pm (h : Nat) (f : Reorder → Reorder) : (modReorder s h f).pm = s.pm := rfl
@[simp] theorem modReorder_gmi (h : Nat) (f : Reorder → Reorder) : (modReorder s h f).gmi = s.gmi := rfl
@[simp] theorem modReorder_trust (h : Nat) (f : Reorder → Reorder) : (modReorder s h f).trust = s.trust := rfl
@[simp] theorem modReorder_clk (h : Nat) (f : Reorder → Reorder) : (modReorder s h f).clk = s.clk := rfl
@[simp] theorem modReorder_pow (h : Nat) (f : Reorder → Reorder) : (modReorder s h f).pow = s.pow := rfl
@[simp] theorem modReorder_sens (h : Nat) (f : Reorder → Reorder) : (modReorder s h f).sens = s.sens := rfl
@[simp] theorem modReorder_tele (h : Nat) (f : Reorder → Reorder) : (modReorder s h f).tele = s.tele := rfl
@[simp] theorem modReorder_tray (h : Nat) (f : Reorder → Reorder) : (modReorder s h f).tray = s.tray := rfl
@[simp] theorem modReorder_ident (h : Nat) (f : Reorder → Reorder) : (modReorder s h f).ident = s.ident := rfl
@[simp] theorem modReorder_draw (h : Nat) (f : Reorder → Reorder) : (modReorder s h f).draw = s.draw := rfl
@[simp] theorem modReorder_pending (h : Nat) (f : Reorder → Reorder) : (modReorder s h f).pending = s.pending := rfl

@[simp] theorem modWindow_mer (w : Nat) (f : Window → Window) : (modWindow s w f).mer = s.mer := rfl
@[simp] theorem modWindow_lanes (w : Nat) (f : Window → Window) : (modWindow s w f).lanes = s.lanes := rfl
@[simp] theorem modWindow_tiles (w : Nat) (f : Window → Window) : (modWindow s w f).tiles = s.tiles := rfl
@[simp] theorem modWindow_links (w : Nat) (f : Window → Window) : (modWindow s w f).links = s.links := rfl
@[simp] theorem modWindow_sw (w : Nat) (f : Window → Window) : (modWindow s w f).sw = s.sw := rfl
@[simp] theorem modWindow_route (w : Nat) (f : Window → Window) : (modWindow s w f).route = s.route := rfl
@[simp] theorem modWindow_bank (w : Nat) (f : Window → Window) : (modWindow s w f).bank = s.bank := rfl
@[simp] theorem modWindow_staging (w : Nat) (f : Window → Window) : (modWindow s w f).staging = s.staging := rfl
@[simp] theorem modWindow_offices (w : Nat) (f : Window → Window) : (modWindow s w f).offices = s.offices := rfl
@[simp] theorem modWindow_clerks (w : Nat) (f : Window → Window) : (modWindow s w f).clerks = s.clerks := rfl
@[simp] theorem modWindow_groups (w : Nat) (f : Window → Window) : (modWindow s w f).groups = s.groups := rfl
@[simp] theorem modWindow_mem (w : Nat) (f : Window → Window) : (modWindow s w f).mem = s.mem := rfl
@[simp] theorem modWindow_capture (w : Nat) (f : Window → Window) : (modWindow s w f).capture = s.capture := rfl
@[simp] theorem modWindow_pm (w : Nat) (f : Window → Window) : (modWindow s w f).pm = s.pm := rfl
@[simp] theorem modWindow_gmi (w : Nat) (f : Window → Window) : (modWindow s w f).gmi = s.gmi := rfl
@[simp] theorem modWindow_trust (w : Nat) (f : Window → Window) : (modWindow s w f).trust = s.trust := rfl
@[simp] theorem modWindow_clk (w : Nat) (f : Window → Window) : (modWindow s w f).clk = s.clk := rfl
@[simp] theorem modWindow_pow (w : Nat) (f : Window → Window) : (modWindow s w f).pow = s.pow := rfl
@[simp] theorem modWindow_sens (w : Nat) (f : Window → Window) : (modWindow s w f).sens = s.sens := rfl
@[simp] theorem modWindow_tele (w : Nat) (f : Window → Window) : (modWindow s w f).tele = s.tele := rfl
@[simp] theorem modWindow_tray (w : Nat) (f : Window → Window) : (modWindow s w f).tray = s.tray := rfl
@[simp] theorem modWindow_ident (w : Nat) (f : Window → Window) : (modWindow s w f).ident = s.ident := rfl
@[simp] theorem modWindow_draw (w : Nat) (f : Window → Window) : (modWindow s w f).draw = s.draw := rfl
@[simp] theorem modWindow_pending (w : Nat) (f : Window → Window) : (modWindow s w f).pending = s.pending := rfl

@[simp] theorem modUnit_mer (u : Nat) (f : LaserUnit → LaserUnit) : (modUnit s u f).mer = s.mer := rfl
@[simp] theorem modUnit_lanes (u : Nat) (f : LaserUnit → LaserUnit) : (modUnit s u f).lanes = s.lanes := rfl
@[simp] theorem modUnit_tiles (u : Nat) (f : LaserUnit → LaserUnit) : (modUnit s u f).tiles = s.tiles := rfl
@[simp] theorem modUnit_links (u : Nat) (f : LaserUnit → LaserUnit) : (modUnit s u f).links = s.links := rfl
@[simp] theorem modUnit_sw (u : Nat) (f : LaserUnit → LaserUnit) : (modUnit s u f).sw = s.sw := rfl
@[simp] theorem modUnit_route (u : Nat) (f : LaserUnit → LaserUnit) : (modUnit s u f).route = s.route := rfl
@[simp] theorem modUnit_bank (u : Nat) (f : LaserUnit → LaserUnit) : (modUnit s u f).bank = s.bank := rfl
@[simp] theorem modUnit_staging (u : Nat) (f : LaserUnit → LaserUnit) : (modUnit s u f).staging = s.staging := rfl
@[simp] theorem modUnit_offices (u : Nat) (f : LaserUnit → LaserUnit) : (modUnit s u f).offices = s.offices := rfl
@[simp] theorem modUnit_clerks (u : Nat) (f : LaserUnit → LaserUnit) : (modUnit s u f).clerks = s.clerks := rfl
@[simp] theorem modUnit_groups (u : Nat) (f : LaserUnit → LaserUnit) : (modUnit s u f).groups = s.groups := rfl
@[simp] theorem modUnit_cxl (u : Nat) (f : LaserUnit → LaserUnit) : (modUnit s u f).cxl = s.cxl := rfl
@[simp] theorem modUnit_mem (u : Nat) (f : LaserUnit → LaserUnit) : (modUnit s u f).mem = s.mem := rfl
@[simp] theorem modUnit_capture (u : Nat) (f : LaserUnit → LaserUnit) : (modUnit s u f).capture = s.capture := rfl
@[simp] theorem modUnit_pm (u : Nat) (f : LaserUnit → LaserUnit) : (modUnit s u f).pm = s.pm := rfl
@[simp] theorem modUnit_gmi (u : Nat) (f : LaserUnit → LaserUnit) : (modUnit s u f).gmi = s.gmi := rfl
@[simp] theorem modUnit_trust (u : Nat) (f : LaserUnit → LaserUnit) : (modUnit s u f).trust = s.trust := rfl
@[simp] theorem modUnit_clk (u : Nat) (f : LaserUnit → LaserUnit) : (modUnit s u f).clk = s.clk := rfl
@[simp] theorem modUnit_pow (u : Nat) (f : LaserUnit → LaserUnit) : (modUnit s u f).pow = s.pow := rfl
@[simp] theorem modUnit_sens (u : Nat) (f : LaserUnit → LaserUnit) : (modUnit s u f).sens = s.sens := rfl
@[simp] theorem modUnit_tele (u : Nat) (f : LaserUnit → LaserUnit) : (modUnit s u f).tele = s.tele := rfl
@[simp] theorem modUnit_ident (u : Nat) (f : LaserUnit → LaserUnit) : (modUnit s u f).ident = s.ident := rfl
@[simp] theorem modUnit_draw (u : Nat) (f : LaserUnit → LaserUnit) : (modUnit s u f).draw = s.draw := rfl
@[simp] theorem modUnit_pending (u : Nat) (f : LaserUnit → LaserUnit) : (modUnit s u f).pending = s.pending := rfl

@[simp] theorem setPcnt_mer (k : Nat) (v : Pcnt) : (setPcnt s k v).mer = s.mer := rfl
@[simp] theorem setPcnt_lanes (k : Nat) (v : Pcnt) : (setPcnt s k v).lanes = s.lanes := rfl
@[simp] theorem setPcnt_tiles (k : Nat) (v : Pcnt) : (setPcnt s k v).tiles = s.tiles := rfl
@[simp] theorem setPcnt_links (k : Nat) (v : Pcnt) : (setPcnt s k v).links = s.links := rfl
@[simp] theorem setPcnt_sw (k : Nat) (v : Pcnt) : (setPcnt s k v).sw = s.sw := rfl
@[simp] theorem setPcnt_route (k : Nat) (v : Pcnt) : (setPcnt s k v).route = s.route := rfl
@[simp] theorem setPcnt_bank (k : Nat) (v : Pcnt) : (setPcnt s k v).bank = s.bank := rfl
@[simp] theorem setPcnt_staging (k : Nat) (v : Pcnt) : (setPcnt s k v).staging = s.staging := rfl
@[simp] theorem setPcnt_offices (k : Nat) (v : Pcnt) : (setPcnt s k v).offices = s.offices := rfl
@[simp] theorem setPcnt_clerks (k : Nat) (v : Pcnt) : (setPcnt s k v).clerks = s.clerks := rfl
@[simp] theorem setPcnt_groups (k : Nat) (v : Pcnt) : (setPcnt s k v).groups = s.groups := rfl
@[simp] theorem setPcnt_cxl (k : Nat) (v : Pcnt) : (setPcnt s k v).cxl = s.cxl := rfl
@[simp] theorem setPcnt_mem (k : Nat) (v : Pcnt) : (setPcnt s k v).mem = s.mem := rfl
@[simp] theorem setPcnt_capture (k : Nat) (v : Pcnt) : (setPcnt s k v).capture = s.capture := rfl
@[simp] theorem setPcnt_pm (k : Nat) (v : Pcnt) : (setPcnt s k v).pm = s.pm := rfl
@[simp] theorem setPcnt_gmi (k : Nat) (v : Pcnt) : (setPcnt s k v).gmi = s.gmi := rfl
@[simp] theorem setPcnt_trust (k : Nat) (v : Pcnt) : (setPcnt s k v).trust = s.trust := rfl
@[simp] theorem setPcnt_clk (k : Nat) (v : Pcnt) : (setPcnt s k v).clk = s.clk := rfl
@[simp] theorem setPcnt_pow (k : Nat) (v : Pcnt) : (setPcnt s k v).pow = s.pow := rfl
@[simp] theorem setPcnt_sens (k : Nat) (v : Pcnt) : (setPcnt s k v).sens = s.sens := rfl
@[simp] theorem setPcnt_tray (k : Nat) (v : Pcnt) : (setPcnt s k v).tray = s.tray := rfl
@[simp] theorem setPcnt_ident (k : Nat) (v : Pcnt) : (setPcnt s k v).ident = s.ident := rfl
@[simp] theorem setPcnt_draw (k : Nat) (v : Pcnt) : (setPcnt s k v).draw = s.draw := rfl
@[simp] theorem setPcnt_pending (k : Nat) (v : Pcnt) : (setPcnt s k v).pending = s.pending := rfl

@[simp] theorem laneOf_modLane_self (l : Nat) (f : Lane → Lane) : laneOf (modLane s l f) l = f (laneOf s l) := by simp [laneOf, modLane, setLane]
theorem laneOf_modLane_ne {l j : Nat} (f : Lane → Lane) (hj : j ≠ l) : laneOf (modLane s l f) j = laneOf s j := by simp [laneOf, modLane, setLane, tget_tset_ne _ _ _ hj]
@[simp] theorem tileOf_modTile_self (t : Nat) (f : Tile → Tile) : tileOf (modTile s t f) t = f (tileOf s t) := by simp [tileOf, modTile]
theorem tileOf_modTile_ne {t j : Nat} (f : Tile → Tile) (hj : j ≠ t) : tileOf (modTile s t f) j = tileOf s j := by simp [tileOf, modTile, tget_tset_ne _ _ _ hj]
@[simp] theorem linkOf_modLink_self (p : Nat) (f : Link → Link) : linkOf (modLink s p f) p = f (linkOf s p) := by simp [linkOf, modLink, setLink]
theorem linkOf_modLink_ne {p j : Nat} (f : Link → Link) (hj : j ≠ p) : linkOf (modLink s p f) j = linkOf s j := by simp [linkOf, modLink, setLink, tget_tset_ne _ _ _ hj]
@[simp] theorem egressOf_modEgress_self (p : Nat) (f : Egress → Egress) : egressOf (modEgress s p f) p = f (egressOf s p) := by simp [egressOf, modEgress]
theorem egressOf_modEgress_ne {p j : Nat} (f : Egress → Egress) (hj : j ≠ p) : egressOf (modEgress s p f) j = egressOf s j := by simp [egressOf, modEgress, tget_tset_ne _ _ _ hj]
@[simp] theorem dispOf_modDisp_self (c : Nat) (f : DispCh → DispCh) : dispOf (modDisp s c f) c = f (dispOf s c) := by simp [dispOf, modDisp]
theorem dispOf_modDisp_ne {c j : Nat} (f : DispCh → DispCh) (hj : j ≠ c) : dispOf (modDisp s c f) j = dispOf s j := by simp [dispOf, modDisp, tget_tset_ne _ _ _ hj]
@[simp] theorem chronOf_modChron_self (p : Nat) (f : ChronPort → ChronPort) : chronOf (modChron s p f) p = f (chronOf s p) := by simp [chronOf, modChron]
theorem chronOf_modChron_ne {p j : Nat} (f : ChronPort → ChronPort) (hj : j ≠ p) : chronOf (modChron s p f) j = chronOf s j := by simp [chronOf, modChron, tget_tset_ne _ _ _ hj]
@[simp] theorem officeOf_modOffice_self (o : Nat) (f : Office → Office) : officeOf (modOffice s o f) o = f (officeOf s o) := by simp [officeOf, modOffice]
theorem officeOf_modOffice_ne {o j : Nat} (f : Office → Office) (hj : j ≠ o) : officeOf (modOffice s o f) j = officeOf s j := by simp [officeOf, modOffice, tget_tset_ne _ _ _ hj]
@[simp] theorem clerkOf_modClerk_self (k : Nat) (f : Clerk → Clerk) : clerkOf (modClerk s k f) k = f (clerkOf s k) := by simp [clerkOf, modClerk, setClerk]
theorem clerkOf_modClerk_ne {k j : Nat} (f : Clerk → Clerk) (hj : j ≠ k) : clerkOf (modClerk s k f) j = clerkOf s j := by simp [clerkOf, modClerk, setClerk, tget_tset_ne _ _ _ hj]
@[simp] theorem groupOf_modGroup_self (e : Nat) (f : Group → Group) : groupOf (modGroup s e f) e = f (groupOf s e) := by simp [groupOf, modGroup, setGroup]
theorem groupOf_modGroup_ne {e j : Nat} (f : Group → Group) (hj : j ≠ e) : groupOf (modGroup s e f) j = groupOf s j := by simp [groupOf, modGroup, setGroup, tget_tset_ne _ _ _ hj]
@[simp] theorem memOf_modMem_self (h : Nat) (f : MemHalf → MemHalf) : memOf (modMem s h f) h = f (memOf s h) := by simp [memOf, modMem]
theorem memOf_modMem_ne {h j : Nat} (f : MemHalf → MemHalf) (hj : j ≠ h) : memOf (modMem s h f) j = memOf s j := by simp [memOf, modMem, tget_tset_ne _ _ _ hj]
@[simp] theorem chanOf_modChan_self (c : Nat) (f : Chan → Chan) : chanOf (modChan s c f) c = f (chanOf s c) := by simp [chanOf, modChan]
theorem chanOf_modChan_ne {c j : Nat} (f : Chan → Chan) (hj : j ≠ c) : chanOf (modChan s c f) j = chanOf s j := by simp [chanOf, modChan, tget_tset_ne _ _ _ hj]
@[simp] theorem srcOf_modSrc_self (i : Nat) (f : Src → Src) : srcOf (modSrc s i f) i = f (srcOf s i) := by simp [srcOf, modSrc]
theorem srcOf_modSrc_ne {i j : Nat} (f : Src → Src) (hj : j ≠ i) : srcOf (modSrc s i f) j = srcOf s j := by simp [srcOf, modSrc, tget_tset_ne _ _ _ hj]
@[simp] theorem accOf_modAcc_self (i : Nat) (f : AccCap → AccCap) : accOf (modAcc s i f) i = f (accOf s i) := by simp [accOf, modAcc]
theorem accOf_modAcc_ne {i j : Nat} (f : AccCap → AccCap) (hj : j ≠ i) : accOf (modAcc s i f) j = accOf s j := by simp [accOf, modAcc, tget_tset_ne _ _ _ hj]
@[simp] theorem boxOf_modBox_self (b : Nat) (f : BoxState → BoxState) : boxOf (modBox s b f) b = f (boxOf s b) := by simp [boxOf, modBox]
theorem boxOf_modBox_ne {b j : Nat} (f : BoxState → BoxState) (hj : j ≠ b) : boxOf (modBox s b f) j = boxOf s j := by simp [boxOf, modBox, tget_tset_ne _ _ _ hj]
@[simp] theorem reorderOf_modReorder_self (h : Nat) (f : Reorder → Reorder) : reorderOf (modReorder s h f) h = f (reorderOf s h) := by simp [reorderOf, modReorder]
theorem reorderOf_modReorder_ne {h j : Nat} (f : Reorder → Reorder) (hj : j ≠ h) : reorderOf (modReorder s h f) j = reorderOf s j := by simp [reorderOf, modReorder, tget_tset_ne _ _ _ hj]
@[simp] theorem windowOf_modWindow_self (w : Nat) (f : Window → Window) : windowOf (modWindow s w f) w = f (windowOf s w) := by simp [windowOf, modWindow]
theorem windowOf_modWindow_ne {w j : Nat} (f : Window → Window) (hj : j ≠ w) : windowOf (modWindow s w f) j = windowOf s j := by simp [windowOf, modWindow, tget_tset_ne _ _ _ hj]
@[simp] theorem unitOf_modUnit_self (u : Nat) (f : LaserUnit → LaserUnit) : unitOf (modUnit s u f) u = f (unitOf s u) := by simp [unitOf, modUnit]
theorem unitOf_modUnit_ne {u j : Nat} (f : LaserUnit → LaserUnit) (hj : j ≠ u) : unitOf (modUnit s u f) j = unitOf s j := by simp [unitOf, modUnit, tget_tset_ne _ _ _ hj]
@[simp] theorem laneOf_setLane_self (l : Nat) (v : Lane) : laneOf (setLane s l v) l = v := by simp [laneOf, setLane]
theorem laneOf_setLane_ne {l j : Nat} (v : Lane) (hj : j ≠ l) : laneOf (setLane s l v) j = laneOf s j := by simp [laneOf, setLane, tget_tset_ne _ _ _ hj]
@[simp] theorem linkOf_setLink_self (p : Nat) (v : Link) : linkOf (setLink s p v) p = v := by simp [linkOf, setLink]
theorem linkOf_setLink_ne {p j : Nat} (v : Link) (hj : j ≠ p) : linkOf (setLink s p v) j = linkOf s j := by simp [linkOf, setLink, tget_tset_ne _ _ _ hj]
@[simp] theorem clerkOf_setClerk_self (k : Nat) (v : Clerk) : clerkOf (setClerk s k v) k = v := by simp [clerkOf, setClerk]
theorem clerkOf_setClerk_ne {k j : Nat} (v : Clerk) (hj : j ≠ k) : clerkOf (setClerk s k v) j = clerkOf s j := by simp [clerkOf, setClerk, tget_tset_ne _ _ _ hj]
@[simp] theorem groupOf_setGroup_self (e : Nat) (v : Group) : groupOf (setGroup s e v) e = v := by simp [groupOf, setGroup]
theorem groupOf_setGroup_ne {e j : Nat} (v : Group) (hj : j ≠ e) : groupOf (setGroup s e v) j = groupOf s j := by simp [groupOf, setGroup, tget_tset_ne _ _ _ hj]
@[simp] theorem pcntOf_setPcnt_self (k : Nat) (v : Pcnt) : pcntOf (setPcnt s k v) k = v := by simp [pcntOf, setPcnt]
theorem pcntOf_setPcnt_ne {k j : Nat} (v : Pcnt) (hj : j ≠ k) : pcntOf (setPcnt s k v) j = pcntOf s j := by simp [pcntOf, setPcnt, tget_tset_ne _ _ _ hj]

@[simp] theorem drawFree_draw : (drawFree s).2.draw = s.draw + 1 := rfl

end Sys2Proof.Machine
end

