-- ==== Sys2Proof/Laws/Reports.lean ====
section
/-! SUPPORT. What the shared operations of Machine/Flags.lean, Machine/Letters.lean and Machine/Gmi.lean may touch, said once for each, and the
queue of waiting commands under them. -/

namespace Sys2Proof.Machine

variable {s t u : State}

@[simp] theorem Reports.refl (s : State) : Reports s s := rfl

theorem Reports.trans (h : Reports s t) (g : Reports t u) : Reports s u := by
  unfold Reports at *
  rw [h] at g
  exact g

theorem Sends.refl (s : State) : Sends s s := rfl

theorem Sends.trans (h : Sends s t) (g : Sends t u) : Sends s u := by
  unfold Sends Reports at *
  rw [h] at g
  exact g

theorem Reports.sends (h : Reports s t) : Sends s t := by
  unfold Sends Reports at *
  rw [h]

theorem Answers.refl (s : State) : Answers s s := rfl

theorem Answers.trans (h : Answers s t) (g : Answers t u) : Answers s u := by
  unfold Answers Sends Reports at *
  rw [h] at g
  exact g

theorem Sends.answers (h : Sends s t) : Answers s t := by
  unfold Answers Sends Reports at *
  rw [h]

theorem Reports.answers (h : Reports s t) : Answers s t := h.sends.answers

/-- A fold of steps that each only report only reports. -/
theorem Reports.foldl {α : Type} (f : State → α → State) (hf : ∀ s a, Reports s (f s a)) (l : List α) (s : State) : Reports s (l.foldl f s) := by
  induction l generalizing s with
  | nil => exact .refl s
  | cons a r ih => exact (hf s a).trans (ih (f s a))

/-! ### Flags -/

theorem raiseVec_reports (v : Nat) (s : State) : Reports s (raiseVec v s) := by
  unfold raiseVec
  split <;> rfl

theorem raiseAlert_reports (code : Nat) (s : State) : Reports s (raiseAlert code s) := by
  unfold raiseAlert
  dsimp only
  split
  · rfl
  · refine Reports.trans ?_ (raiseVec_reports 7 _)
    rfl

theorem cntRaw_reports (id n : Nat) (s : State) : Reports s (cntRaw id n s) := rfl

theorem putEvent_reports (e : Event) (s : State) : Reports s (putEvent e s).2 := by
  unfold putEvent
  dsimp only
  generalize decide ((s.gmi.eventProduce + 2 ^ 32 - s.cxl.eventConsume % 2 ^ 32) % 2 ^ 32 ≥ 63) = lost
  generalize (if s.tray.bbGathered.isEmpty then roundNo s else s.tray.bbSince) = since
  have last : ∀ t : State, Reports t (if e.severity = 0 then t else raiseAlert e.code t) := fun t => by
    split
    · exact .refl t
    · exact raiseAlert_reports _ t
  refine Reports.trans ?_ (last _)
  cases lost
  · refine Reports.trans ?_ (raiseVec_reports 4 _)
    simp only [Reports, Bool.false_eq_true, if_false]
  · simp only [Reports, if_true]

theorem pcntCount_reports (k n : Nat) (s : State) : Reports s (pcntCount k n s).2 := by
  unfold pcntCount
  dsimp only
  split
  · rfl
  · split
    · split <;> rfl
    · rfl

theorem cntFuel_reports (fuel id n : Nat) (s : State) : Reports s (cntFuel fuel id n s) := by
  induction fuel generalizing id n s with
  | zero => exact cntRaw_reports id n s
  | succ fuel ih =>
    unfold cntFuel
    refine (cntRaw_reports id n s).trans (Reports.foldl _ (fun s k => ?_) _ _)
    dsimp only
    split
    · have h := pcntCount_reports k n s
      generalize pcntCount k n s = x at h ⊢
      obtain ⟨post, s1⟩ := x
      dsimp only at h ⊢
      split
      · have g := putEvent_reports (mkEvent s1 0x0321 0 .ok 0 k []) s1
        generalize putEvent (mkEvent s1 0x0321 0 .ok 0 k []) s1 = y at g ⊢
        obtain ⟨lost, s2⟩ := y
        dsimp only at g ⊢
        split
        · exact (h.trans g).trans (ih 20 1 s2)
        · exact h.trans g
      · exact h
    · exact .refl s

theorem cntAdd_reports (id n : Nat) (s : State) : Reports s (cntAdd id n s) := by
  unfold cntAdd
  split
  · exact .refl s
  · exact cntFuel_reports _ _ _ _

theorem cnt1_reports (id : Nat) (s : State) : Reports s (cnt1 id s) := cntAdd_reports id 1 s

/-- Posting an event only reports. -/
theorem postFull_reports (code sev : Nat) (st : Status) (subject id : Nat) (detail : List Byte) (s : State) :
    Reports s (postFull code sev st subject id detail s) := by
  unfold postFull
  dsimp only
  split
  · rfl
  · have g := putEvent_reports (mkEvent s code sev st subject id detail) s
    generalize putEvent (mkEvent s code sev st subject id detail) s = y at g ⊢
    obtain ⟨lost, s2⟩ := y
    dsimp only at g ⊢
    split
    · exact g.trans (cnt1_reports 20 s2)
    · exact g

theorem report_reports (code id : Nat) (detail : List Byte) (s : State) : Reports s (report code id detail s) := postFull_reports ..

theorem reportSt_reports (code id : Nat) (st : Status) (detail : List Byte) (s : State) : Reports s (reportSt code id st detail s) := postFull_reports ..

theorem alert_reports (code id : Nat) (detail : List Byte) (s : State) : Reports s (alert code id detail s) := postFull_reports ..

theorem faultEvent_reports (code id : Nat) (detail : List Byte) (s : State) : Reports s (faultEvent code id detail s) := postFull_reports ..

theorem pcntSel_reports (sel n : Nat) (which : Pcnt → Bool) (s : State) : Reports s (pcntSel sel n which s) := by
  unfold pcntSel
  split
  · exact .refl s
  · refine Reports.foldl _ (fun s k => ?_) _ _
    dsimp only
    split
    · have h := pcntCount_reports k n s
      generalize pcntCount k n s = x at h ⊢
      obtain ⟨post, s1⟩ := x
      dsimp only at h ⊢
      split
      · exact h.trans (report_reports _ _ _ s1)
      · exact h
    · exact .refl s

theorem detailAdd_reports (p k n : Nat) (s : State) : Reports s (detailAdd p k n s) := by
  unfold detailAdd
  split
  · exact cntAdd_reports _ _ s
  · exact .refl s

/-! ### Letters of the module's own -/

theorem ownLetter_sends (h : Header) (group : Nat) (payload : List Byte) (s : State) : Sends s (ownLetter h group payload s).2 := rfl

theorem enterEgress_sends (p : Nat) (l : OwnLetter) (s : State) : Sends s (enterEgress p l s) := rfl

theorem chooseLink_sends {h : Header} {ingress dir k : Nat} (e : chooseLink s h ingress dir = some (k, t)) : Sends s t := by
  unfold chooseLink at e
  split at e
  · unfold sprayChoice at e
    dsimp only at e
    split at e
    · cases e
    · rw [Option.map_eq_some_iff] at e
      obtain ⟨j, -, e⟩ := e
      injection e with _ e
      subst e
      rfl
  · rw [Option.map_eq_some_iff] at e
    obtain ⟨j, -, e⟩ := e
    injection e with _ e
    exact e ▸ Sends.refl s

theorem lookup_elsewhere_sends (h : Header) (arr : Option (Nat × Nat)) (ingress : Nat) (s : State) :
    Sends s (lookup.elsewhere s h arr ingress).2 := by
  unfold lookup.elsewhere
  split
  · exact .refl s
  · split
    · exact .refl s
    · split
      · next e => exact chooseLink_sends e
      · exact .refl s

theorem lookup_routed_sends (h : Header) (arr : Option (Nat × Nat)) (ingress : Nat) (s : State) :
    Sends s (lookup.routed s h arr ingress).2 := by
  unfold lookup.routed
  dsimp only
  split
  · split
    · exact lookup_elsewhere_sends ..
    · exact .refl s
  · split
    · exact .refl s
    · split
      · exact lookup_elsewhere_sends ..
      · split
        · split
          · split
            · next e => exact chooseLink_sends e
            · exact .refl s
          · exact .refl s
        · split
          · exact .refl s
          · split <;> exact .refl s

/-- The Atlas lookup moves at most a spray pointer (R180). -/
theorem lookup_sends (h : Header) (arr : Option (Nat × Nat)) (ingress : Nat) (s : State) : Sends s (lookup s h arr ingress).2 := by
  unfold lookup
  dsimp only
  split
  · exact .refl s
  · split
    · split <;> exact .refl s
    · split
      · exact .refl s
      · exact lookup_routed_sends ..

theorem noteLookup_sends (h : Header) (s : State) : Sends s (noteLookup h s) := rfl

theorem enterCopies_sends (l : OwnLetter) (ps : List (Nat × Nat)) (s : State) : Sends s (enterCopies l ps s) := by
  unfold enterCopies
  induction ps generalizing s with
  | nil => exact .refl s
  | cons x r ih => exact (enterEgress_sends ..).trans (ih _)

theorem sendOwn_sends {h : Header} {group p : Nat} {payload : List Byte} {notice : Option Nat}
    (e : sendOwn h group payload notice s = some (p, t)) : Sends s t := by
  unfold sendOwn at e
  dsimp only at e
  split at e
  · cases e
  · split at e
    · split at e
      · cases e
      · injection e with e
        injection e with _ e
        subst e
        exact (ownLetter_sends ..).trans (enterCopies_sends ..)
    · have g := (noteLookup_sends { h with src := srcRef s } s).trans (lookup_sends { h with src := srcRef s } none (256 + group % 8) _)
      generalize lookup (noteLookup { h with src := srcRef s } s) { h with src := srcRef s } none (256 + group % 8) = x at e g
      obtain ⟨l, s1⟩ := x
      split at e
      · next e1 =>
        injection e1 with _ e1
        injection e with e
        injection e with _ e
        subst e1 e
        exact (g.trans (ownLetter_sends ..)).trans (enterEgress_sends ..)
      · cases e

/-- Sending a letter of the module's own only sends. -/
theorem sendIfPath_sends (h : Header) (payload : List Byte) (s : State) : Sends s (sendIfPath h payload s) := by
  unfold sendIfPath
  split
  · next e => exact sendOwn_sends e
  · exact .refl s

theorem sendOnPort_sends (p : Nat) (h : Header) (group : Nat) (payload : List Byte) (s : State) : Sends s (sendOnPort p h group payload s) := by
  unfold sendOnPort
  dsimp only
  refine Sends.trans ?_ (enterEgress_sends ..)
  rfl

/-! ### Completions -/

theorem modBox_answers (b : Nat) (f : BoxState → BoxState) (s : State) : Answers s (modBox s b f) := rfl

theorem sendCompletion_answers (b : Box) (r : Completion) (src cls plot replyAddr : Nat) (s : State) :
    Answers s (sendCompletion b r src cls plot replyAddr s) := by
  have send : ∀ h p, Answers s (sendIfPath h p s) := fun h p => (sendIfPath_sends h p s).answers
  cases b with
  | hb n =>
    unfold sendCompletion
    exact (modBox_answers ..).trans (raiseVec_reports ..).answers
  | sb n => rfl
  | fm n => exact send ..
  | pm => exact send ..
  | ap n => exact send ..

theorem takeTurn_answers (c : Ctx) (opcode : Nat) (s : State) : Answers s (takeTurn c opcode s) := by
  unfold takeTurn
  dsimp only
  split <;> rfl

/-- A completion that passes the voter, or is held, touches only the boxes, the outputs held and what answers write. -/
theorem release_answers (o : HeldOut) (s : State) : Answers s (release o s) := by
  unfold release
  split
  · rfl
  · split
    · exact .refl s
    · exact (show Answers s (keepCompletion o.box o.src o.record s) from rfl).trans (sendCompletion_answers ..)

/-- Held outputs that leave touch no more than one that leaves. -/
theorem releaseHeld_answers (s : State) : Answers s (releaseHeld s) := by
  unfold releaseHeld
  split
  · exact .refl s
  · refine (show Answers s { s with gmi := { s.gmi with held := [] } } from rfl).trans ?_
    generalize ({ s with gmi := { s.gmi with held := [] } } : State) = t
    induction s.gmi.held generalizing t with
    | nil => exact .refl t
    | cons o r ih => exact (release_answers o t).trans (ih _)

/-- Completing a command touches nothing of what its action left but the boxes, the outputs held and what answers write. -/
theorem complete_answers (c : Ctx) (opcode : Nat) (a : Ans) : Answers a.post (complete c opcode a) := by
  unfold complete
  refine Answers.trans ?_ (release_answers ..)
  dsimp only
  split
  · rfl
  · exact (takeTurn_answers c opcode a.post).trans rfl

/-- A command that runs, and whose answer fits its box, completes with that answer. -/
theorem gmiRun_of_runs {c : Ctx} {opcode : Nat} {body : State → Ans} (h : Runs c opcode s) (f : Fits c (body s).response.length)
    (l : (body s).later = false) : gmiRun c opcode body s = complete c opcode (body s) := by
  obtain ⟨h1, hk, hc, h2⟩ := h
  unfold gmiRun
  rw [h1]
  dsimp only
  rw [hk]
  dsimp only
  rw [hc]
  unfold runChecked
  dsimp only
  have : fitResponse c s (body s) = body s := by unfold Fits at f; unfold fitResponse; split <;> first | omega | rfl
  rw [if_neg (by omega), this, l]
  rfl

/-! ### Inputs of the Triad -/

/-- A channel changed is one entry of the table of channels. -/
theorem modChan_frame (c : Nat) (f : Chan → Chan) (s : State) : modChan s c f = { s with pm := { s.pm with chans := (modChan s c f).pm.chans } } := rfl

/-- Delivering an input touches the latch and the inputs of the channels, and nothing else (R289). -/
theorem deliverInput_frame (i : TriadInput) (s : State) :
    deliverInput i s = { s with pm := { s.pm with latch := (deliverInput i s).pm.latch, chans := (deliverInput i s).pm.chans } } := by
  unfold deliverInput
  simp only [List.foldl]
  split <;> split <;> split <;> rfl

end Sys2Proof.Machine
end

