-- ==== Sys2Proof/WellFormed.lean ====
section
/-! DEFINITION. The well-formed commands: every operand that selects a unit of the module names one that exists, and every operand that
stands for a field of a record fits the field. What a command does with a field value that its rule refuses is the command's meaning, not a
question of form, so no check here stands for a refusal of the manual. -/

namespace Sys2Proof

/-! ### The units (R14–R24, R70, R79, R240, R285, R368, R390, R412, R422, R463) -/

def portOk (p : Nat) : Bool := decide (p < 256)
def laneOk (l : Nat) : Bool := decide (l < 1024)
def tileOk (t : Nat) : Bool := decide (t < 16)
def fibreNumOk (f : Nat) : Bool := decide (f < 2)
def waveOk (w : Nat) : Bool := decide (w < 4)
def corrOk (n : Nat) : Bool := decide (n < 4)
def officeOk (o : Nat) : Bool := decide (o < 8)
def clerkOk (k : Nat) : Bool := decide (k < 256)
def entryOk (e : Nat) : Bool := decide (e < 64)
def halfOk (h : Nat) : Bool := decide (h < 2)
def chanOk (c : Nat) : Bool := decide (c < 3)
def srcOk (i : Nat) : Bool := decide (i < 4)
def accOk (i : Nat) : Bool := decide (i < 16)
def pcntOk (k : Nat) : Bool := decide (k < 64)
def engineOk (e : Nat) : Bool := decide (e < 16)
def unitOk (u : Nat) : Bool := decide (u < 4)
def hbOk (b : Nat) : Bool := decide (b < 4)
def vcOk (v : Nat) : Bool := decide (v < 8)
def pathOk (n : Nat) : Bool := n = 1 || n = 2
def cxlModeOk (m : Nat) : Bool := decide (m < 8)

/-- The boxes of R320. -/
def boxOk : Box → Bool
  | .hb b => decide (b < 4)
  | .sb b => decide (b < 2)
  | .fm b => decide (b < 4)
  | .pm => true
  | .ap s => decide (s < 128)

/-! ### Fields of records -/

/-- A value fits a field of `w` bits (R7). -/
def fits (w v : Nat) : Bool := decide (v < 2 ^ w)

/-- A flit payload (R85). -/
def payloadOk (b : List Byte) : Bool := decide (b.length = 236)

/-- A coded flit (R87). -/
def codedOk (b : List Byte) : Bool := decide (b.length = 288)

/-- A nonce, a random value or a digest of 32 bytes (R112, R114, R344, R360). -/
def bytes32 (b : List Byte) : Bool := decide (b.length = 32)

/-- An accepted command comes from a box of R320 with a 16-bit TAG and a 24-bit grid reference. -/
def ctxOk (c : Ctx) : Bool := boxOk c.box && fits 16 c.tag && fits 24 c.src

/-- The envelope header (R322). -/
def envOk (e : Envelope) : Bool :=
  fits 8 e.version && fits 16 e.opcode && fits 16 e.tag && fits 16 e.fragLen && fits 16 e.partIndex && fits 16 e.partCount
    && fits 32 e.bodyLen && fits 64 e.seq && fits 64 e.validUntil && decide (e.target.length = 16) && fits 56 e.replyAddr

/-- The CHRON payload (R38). -/
def chronOk (c : Chron) : Bool :=
  fits 64 c.tSend && fits 8 c.tSendFrac && fits 16 c.seq && fits 64 c.rxEcho && fits 8 c.rxEchoFrac && fits 16 c.seqEcho
    && fits 24 c.gmRef && fits 8 c.gmPrio && fits 8 c.steps && fits 16 c.gmSeq

/-- A survey card (R109). -/
def cardOk (c : SurveyCard) : Bool := decide (c.idDigest.length = 32) && fits 24 c.gridRef && fits 4 c.width

/-- A roll record (R303). -/
def rollOk (r : RollRecord) : Bool :=
  fits 2 r.kind && fits 3 r.ladder && fits 32 r.roundLo && fits 24 r.src && fits 32 r.leadEpoch

/-- A clerk instruction as loading lets it through (R209): RND 3 is refused at load. -/
def opOk (i : ClerkOp) : Bool :=
  fits 5 i.vd && fits 5 i.va && fits 5 i.vb && fits 5 i.vc && fits 4 i.fmt && decide (i.rnd < 3) && fits 3 i.an && fits 2 i.mreg
    && fits 16 i.imm

/-- A command is well formed. -/
def Instr.wf : Instr → Bool
  | .roundBoundary _ _ => true
  | .keeperReload => true
  | .chronReceive p c _ _ => portOk p && chronOk c
  | .meridianStep => true
  | .parentLost => true
  | .grandmasterLost => true
  | .electionStartFree => true
  | .electionWindowClose => true
  | .holdoverExpiry => true
  | .rackTimeTakeover => true
  | .rackTimeRelease => true
  | .bankSwitch => true
  | .stagingBankExpiry => true
  | .snapshotTake => true
  | .standingOrdersEnter => true
  | .standingOrdersExit => true
  | .laserWavelengthLow tile fibre w _ => tileOk tile && fibreNumOk fibre && waveOk w
  | .laserSelect c tile fibre => ctxOk c && tileOk tile && fibreNumOk fibre
  | .ringUnlock lane => laneOk lane
  | .ringSearch lane _ _ => laneOk lane
  | .losAssert lane _ => laneOk lane
  | .losDeassert lane _ => laneOk lane
  | .adaptFreezeEnd lane _ _ => laneOk lane
  | .prbsGenStart c lane _ _ _ => ctxOk c && laneOk lane
  | .prbsCheckStart c lane _ _ => ctxOk c && laneOk lane
  | .prbsClear c lane => ctxOk c && laneOk lane
  | .prbsChkLock lane _ => laneOk lane
  | .prbsChkLockLost lane _ _ _ => laneOk lane
  | .prbsDurationEnd lane _ _ _ => laneOk lane
  | .echoStart c tile corr _ _ _ => ctxOk c && tileOk tile && corrOk corr
  | .echoDone tile corr _ => tileOk tile && corrOk corr
  | .flitReceive p levels => portOk p && codedOk levels
  | .nakRepeat p => portOk p
  | .ackSend p => portOk p
  | .ackReceive p _ => portOk p
  | .nakReceive p _ _ => portOk p
  | .replayTimeout p => portOk p
  | .creditReceive p _ _ _ => portOk p
  | .creditSend p => portOk p
  | .flitTransmit p => portOk p
  | .trainingStart p => portOk p
  | .ts1End p _ _ _ => portOk p
  | .ts2End p _ _ => portOk p
  | .linkUp p => portOk p
  | .trainingRetry p => portOk p
  | .linkDown p => portOk p
  | .laneLoss lane _ => laneOk lane
  | .reshapeMarker p _ => portOk p
  | .linkNarrowed p _ _ => portOk p
  | .laneRelease c p j => ctxOk c && portOk p && waveOk j
  | .laneReturn c p j => ctxOk c && portOk p && waveOk j
  | .laneRejoin p j => portOk p && waveOk j
  | .laneReturnTimeout p j => portOk p && waveOk j
  | .laneRejoinAuto p j => portOk p && waveOk j
  | .surveySend p => portOk p
  | .surveyReceive p card => portOk p && cardOk card
  | .surveyNoCard p => portOk p
  | .admitHello p _ r _ => portOk p && bytes32 r
  | .admitKey p _ _ => portOk p
  | .admitFinish p _ _ => portOk p
  | .admitAbort p => portOk p
  | .admitStepTimeout p => portOk p
  | .admitRetry p => portOk p
  | .admitReqRestore p => portOk p
  | .rekeyStart p => portOk p
  | .rekeyReceive p nI => portOk p && bytes32 nI
  | .rekeyAckReceive p nR => portOk p && bytes32 nR
  | .oldKeyErase p => portOk p
  | .rekeyTimeout p => portOk p
  | .ingressHead p vc _ payload => portOk p && vcOk vc && payloadOk payload
  | .letterFlitReceive p vc _ _ payload => portOk p && vcOk vc && payloadOk payload
  | .dispatcherMatch slot _ _ _ _ lost => decide (slot < 200) && lost.all fun x => decide (1 ≤ x.1 && x.1 ≤ 4 && x.2 < 256)
  | .dispatchChannelRetire c => chanOk c
  | .dispatchChannelRejoin c => chanOk c
  | .routeReturn port _ => portOk port
  | .copyCreditTimeout _ _ => true
  | .vc7Stale _ port => portOk port
  | .slowNoticeTimeout _ => true
  | .slowPostReceive _ payload => payloadOk payload
  | .reorderArrival _ => true
  | .reorderContextSet h _ => halfOk h
  | .gapTimeout h _ => halfOk h
  | .clerkNop k i _ => clerkOk k && opOk i
  | .ld k i _ => clerkOk k && opOk i
  | .st k i _ => clerkOk k && opOk i
  | .vacc k i _ => clerkOk k && opOk i
  | .vaccc k i _ => clerkOk k && opOk i
  | .vadd k i _ => clerkOk k && opOk i
  | .vsub k i _ => clerkOk k && opOk i
  | .vmul k i _ => clerkOk k && opOk i
  | .vfma k i _ => clerkOk k && opOk i
  | .vmax k i _ => clerkOk k && opOk i
  | .vmin k i _ => clerkOk k && opOk i
  | .vabs k i _ => clerkOk k && opOk i
  | .vscl k i _ => clerkOk k && opOk i
  | .vcmp k i _ => clerkOk k && opOk i
  | .vsel k i _ => clerkOk k && opOk i
  | .vpre k i _ => clerkOk k && opOk i
  | .vmrg k i _ => clerkOk k && opOk i
  | .vgth k i _ => clerkOk k && opOk i
  | .vsct k i _ => clerkOk k && opOk i
  | .vpbf k i _ => clerkOk k && opOk i
  | .sets k i _ => clerkOk k && opOk i
  | .adda k i _ => clerkOk k && opOk i
  | .loop k i _ => clerkOk k && opOk i
  | .endl k i _ => clerkOk k && opOk i
  | .press k i _ => clerkOk k && opOk i
  | .pwait k i _ => clerkOk k && opOk i
  | .done k i _ => clerkOk k && opOk i
  | .bundleLimit k => clerkOk k
  | .sequencerPlace o => officeOk o
  | .bundleTake k _ => clerkOk k
  | .bundleSteal k _ _ => clerkOk k
  | .pressGemm8 o => officeOk o
  | .pressGemm16 o => officeOk o
  | .pressFold o => officeOk o
  | .pressUnfold o => officeOk o
  | .pressQuant o => officeOk o
  | .pressDummy o _ => officeOk o
  | .pressJobDone o _ => officeOk o
  | .stepLaunch e => entryOk e
  | .stepTimeout e => entryOk e
  | .stepEnd e => entryOk e
  | .memberCloseCommit _ => true
  | .cxlPerstAssert => true
  | .cxlPerstDeassert => true
  | .cxlLinkUp mode => cxlModeOk mode
  | .cxlLinkDown => true
  | .hostWindowWrite _ _ => true
  | .hbDoorbell b _ => hbOk b
  | .uioCompletion _ _ => true
  | .uioTimeout _ => true
  | .gddr7ParityFail half _ _ => halfOk half
  | .voterDisagree _ => true
  | .channelFaultLocated ch => chanOk ch
  | .duplexDiagnosisDone _ => true
  | .reintegrateStart ch => chanOk ch
  | .reintegrateSelftestDone ch _ => chanOk ch
  | .reintegrateCopyDone ch => chanOk ch
  | .reintegrateRejoin ch => chanOk ch
  | .aliveWrite => true
  | .watchdogExpiry => true
  | .postmasterRestart => true
  | .postmasterRestartDone => true
  | .coreSig _ => true
  | .ramScrub _ _ => true
  | .voterCheck _ => true
  | .rollCheck _ => true
  | .healthSend => true
  | .rollReceive p r => portOk p && rollOk r
  | .rollWindowEval p => portOk p
  | .rollFrameSend => true
  | .aliveFrameSend => true
  | .healthLetterReceive _ => true
  | .trayStepReceive _ _ _ _ _ => true
  | .accNoteReceive _ _ => true
  | .trayCapReceive _ => true
  | .trayCapAckReceive _ _ => true
  | .trayCapResend _ => true
  | .standbyStateCopy _ => true
  | .accErrAssert i _ => accOk i
  | .accBack i => accOk i
  | .trayHbEdge => true
  | .trayPathSilent path => pathOk path
  | .partnerLost => true
  | .leadTakeover => true
  | .leadAbsentTimeout => true
  | .timerClaim _ _ => true
  | .timerExpiry _ => true
  | .partArrival b e _ _ _ _ _ _ => boxOk b && envOk e
  | .assemblyTimeout b => boxOk b
  | .nop c => ctxOk c
  | .identityRead c => ctxOk c
  | .statusRead c => ctxOk c
  | .healthRead c _ _ => ctxOk c
  | .eventRead c _ _ => ctxOk c
  | .alertAck c _ => ctxOk c
  | .trayStateRead c _ _ => ctxOk c
  | .restart c => ctxOk c
  | .stageReg c _ _ _ _ => ctxOk c
  | .stageRead c _ _ _ => ctxOk c
  | .commit c _ _ => ctxOk c
  | .commitForce c _ _ => ctxOk c
  | .discard c => ctxOk c
  | .stageStatus c => ctxOk c
  | .gridAssign c _ => ctxOk c
  | .gridAssignEffect => true
  | .rackWrite c _ _ => ctxOk c
  | .sprayWrite c _ _ => ctxOk c
  | .maskWrite c _ _ => ctxOk c
  | .atlasRead c _ => ctxOk c
  | .plotWrite c _ _ => ctxOk c
  | .plotRead c _ => ctxOk c
  | .slotmapWrite c _ _ => ctxOk c
  | .slotmapRead c _ => ctxOk c
  | .copyWrite c _ _ => ctxOk c
  | .copyRead c _ => ctxOk c
  | .windowWrite c _ _ => ctxOk c
  | .groupOpen c _ _ => ctxOk c
  | .groupClose c _ => ctxOk c
  | .groupMember c _ _ => ctxOk c
  | .groupRead c _ => ctxOk c
  | .progLoad c _ => ctxOk c
  | .progUnload c _ => ctxOk c
  | .capSet c _ _ _ _ _ => ctxOk c
  | .capRead c _ => ctxOk c
  | .capReadAck c _ _ _ => ctxOk c
  | .rampPost c _ _ => ctxOk c
  | .rampCancel c _ => ctxOk c
  | .ladderSet c _ _ => ctxOk c
  | .powerRead c => ctxOk c
  | .teleCfg c _ => ctxOk c
  | .contourRead c _ => ctxOk c
  | .counterRead c _ _ _ => ctxOk c
  | .counterReadArm c _ _ _ => ctxOk c
  | .detailStart c _ _ => ctxOk c
  | .detailStop c _ => ctxOk c
  | .sampleCfg c _ _ _ _ _ => ctxOk c
  | .diagRead c _ _ _ => ctxOk c
  | .diagWrite c _ _ _ _ => ctxOk c
  | .portTestClaim c _ => ctxOk c
  | .portTestRelease c _ => ctxOk c
  | .memTest c _ _ _ _ => ctxOk c
  | .memRead c _ _ _ => ctxOk c
  | .fwWrite c _ _ => ctxOk c
  | .fwVerify c => ctxOk c
  | .fwActivate c => ctxOk c
  | .attest c nonce _ => ctxOk c && bytes32 nonce
  | .certRead c _ _ _ => ctxOk c
  | .ledgerRead c _ _ _ => ctxOk c
  | .authorityEnrolKey c _ _ _ _ => ctxOk c
  | .authorityEnrolAnchors c _ _ => ctxOk c
  | .authorityEnrolRevocation c _ _ => ctxOk c
  | .managerSet c _ => ctxOk c
  | .linkRevoke c digest => ctxOk c && bytes32 digest
  | .journalRead c _ _ => ctxOk c
  | .blackboxRead c _ _ => ctxOk c
  | .bootChain _ _ _ _ => true
  | .bootComplete _ => true
  | .trialConfirm => true
  | .fuseBurnRetry => true
  | .sealKatCheck _ => true
  | .sealCodeCheck _ => true
  | .sealProgramCheck _ => true
  | .jtagInstructionLoad _ => true
  | .trstNAssert => true
  | .clockEdgeLoss src => srcOk src
  | .clockMonitorWindow _ => true
  | .clockSrcReady src => srcOk src
  | .crystalAmplitudeOk => true
  | .crystalStartFail => true
  | .clkSelCore c _ => ctxOk c
  | .clkSelXtalDomain c _ => ctxOk c
  | .refclkStartTimeout => true
  | .pwrOkDeassert => true
  | .resetRelease _ => true
  | .rstNLow => true
  | .rstNCold => true
  | .rstNRise _ => true
  | .resetTile c _ => ctxOk c
  | .resetGddr7Half c _ => ctxOk c
  | .resetCxlPort c => ctxOk c
  | .resetUnitDone => true
  | .ladderEntry => true
  | .ladderExit => true
  | .leavingSend => true
  | .timedLadderDue => true
  | .timedCapDue => true
  | .governorAdjust _ => true
  | .capUnmet => true
  | .rampEntryDue => true
  | .rampMovementEnd => true
  | .capLetterSend i => accOk i
  | .capAckTimeout i => accOk i
  | .capRefresh i => accOk i
  | .vinDroop52 _ => true
  | .vinDroop48 _ => true
  | .vinDroop44 _ => true
  | .droopRelease => true
  | .coolantFault _ => true
  | .coolantRelease => true
  | .leakWet _ => true
  | .leakSensorFault _ => true
  | .flowOkTest _ _ _ => true
  | .flowOkDeassert => true
  | .coolTOutOfRange _ => true
  | .sensorStuck h _ _ _ => halfOk h
  | .thermalSt2 h _ _ => halfOk h
  | .thermalRelease => true
  | .thermalTrip h _ _ => halfOk h
  | .skeletonEnter => true
  | .pcntWrite c k _ => ctxOk c && pcntOk k
  | .pcntCtlWrite c k _ => ctxOk c && pcntOk k
  | .pcntWrap k => pcntOk k
  | .contourPeriodClose => true
  | .counterSnapRecord => true
  | .detailEngineEnd e => engineOk e
  | .clerkSample k _ _ _ => clerkOk k
  | .capturePad => true
  | .capturePublish => true
  | .adcCapStart c lane _ => ctxOk c && laneOk lane
  | .adcBurstDone _ => true
  | .adcBurstDrop => true
  | .pullWarn => true
  | .pullWarnFirstBoundary => true
  | .pullWarnSecondBoundary => true
  | .journalSummaryWrite => true
  | .keepAliveOn _ => true
  | .vinLoss => true
  | .inputOver _ => true
  | .inputDisconnect _ => true
  | .pwrEnFall => true
  | .permitGrant _ _ _ _ => true
  | .permitTimeout => true
  | .holdupMeasure _ => true
  | .chargeComplete => true
  | .pwrOkAssert => true
  | .sidebandRollReceive r => rollOk r
  | .sidebandAliveReceive _ => true
  | .sidebandGmiPart _ _ e _ _ => envOk e
  | .plcaTransmitOpportunity => true
  | .laserUnitPoll u _ => unitOk u
  | .blackboxBlockWrite => true
  | .laserWavelengthOk tile fibre w _ => tileOk tile && fibreNumOk fibre && waveOk w
  | .adaptFreezeStart lane _ _ => laneOk lane
  | .laneFreezeWrite c lane _ => ctxOk c && laneOk lane
  | .prbsStop c lane _ _ _ => ctxOk c && laneOk lane
  | .duplexWordTimeout => true
  | .officeProgramReloadDone o => officeOk o
  | .memTestEnd half _ _ => halfOk half
  | .leakLineDry _ => true
  | .pwrEnRise => true
  | .vinBelow54V _ => true

end Sys2Proof
end

