-- ==== Sys2Proof/Tests/Slice0.lean ====
section
/-! SUPPORT. The tests: the checks of well-formedness with a term that each refuses, a witness for every statement that has hypotheses (the
concrete state and operands that meet them, clause by clause), and single steps whose results the manual gives. -/

namespace Sys2Proof.Tests

open Sys2Proof.Machine

set_option Elab.async false

/-! ### Small states -/

/-- A command box with its ordinary rights: HB0, signed, OPERATOR. -/
def op : Ctx := ⟨.hb 0, 1, 0, .operator, true⟩

/-- The module in service: the boot chain has ended (R349). -/
def ready : State := { State.reset with ident := { State.reset.ident with boot := 2, fault := false, dark := false } }

/-- `ready` at a Meridian of `n` Rounds. -/
def readyAt (n : Nat) : State := { ready with mer := { ready.mer with ns := 1024 * n } }

def withLink (p : Nat) (l : Link) (s : State) : State := setLink s p l
def withLane (g : Nat) (l : Lane) (s : State) : State := setLane s g l
def withTile (t : Nat) (x : Tile) (s : State) : State := modTile s t fun _ => x

/-- A link that carries flits on all four lanes. -/
def upLink : Link := { disc := .up, width := 15, delayKnown := true, rtt := 40960 }

/-- An admitted link. -/
def inLink : Link := { upLink with disc := .admitted }

/-- A clerk instruction with every field 0. -/
def op0 : ClerkOp := ⟨0, 0, 0, 0, 0, 0, false, 0, 0, false, 0⟩

/-- A bundle descriptor that may read the first 1,024 bytes of its office and write the next 1,024. -/
def bundle0 : Bundle := ⟨1, 0, 0, 32, false, false, 0, 0, 0, 1024, 1024, 1024, 0xC0000, 0, 0, 0, 0, 0⟩

/-- Clerk 0 runs that bundle. -/
def clerk0 : Clerk := { state := .own, bundle := some bundle0 }

/-- `ready` with clerk 0 as given, its office running. -/
def withClerk (k : Nat) (c : Clerk) (s : State) : State := setClerk s k c

/-- The command completes, in a state of which `p` holds. -/
def ends (o : Host.Outcome State Fault Refusal) (p : State → Bool) : Bool := match o with | .next t => p t | _ => false

def chron0 : Chron := ⟨0, 0, false, false, false, false, false, 1, 0, 0, 0, 0, 255, 0, 0, 0⟩
def card0 : SurveyCard := ⟨1, 0, 0x4C4B, 0x1024, 0, 0, 0, 15, false, true, false, 0, 0, 0, zeros 32, 1024⟩
def roll0 : RollRecord := ⟨0, false, false, false, false, false, false, 0, 0, 0, 0⟩
def env0 : Envelope := ⟨1, .operator, false, 0, 7, 0, 0, 1, 0, 0, 0, zeros 16, 0, true⟩

/-! ### Well-formed commands: a boundary value let through and the first one refused, for each check -/

theorem test_wf_port : Instr.wf (.nakRepeat 255) = true ∧ Instr.wf (.nakRepeat 256) = false := by decide +kernel
theorem test_wf_lane : Instr.wf (.ringUnlock 1023) = true ∧ Instr.wf (.ringUnlock 1024) = false := by decide +kernel
theorem test_wf_tile : Instr.wf (.laserWavelengthLow 15 1 3 0) = true ∧ Instr.wf (.laserWavelengthLow 16 1 3 0) = false := by decide +kernel
theorem test_wf_fibre : Instr.wf (.laserWavelengthLow 0 2 0 0) = false := by decide +kernel
theorem test_wf_wavelength : Instr.wf (.laserWavelengthLow 0 0 4 0) = false := by decide +kernel
theorem test_wf_correlator : Instr.wf (.echoDone 0 3 []) = true ∧ Instr.wf (.echoDone 0 4 []) = false := by decide +kernel
theorem test_wf_office : Instr.wf (.sequencerPlace 7) = true ∧ Instr.wf (.sequencerPlace 8) = false := by decide +kernel
theorem test_wf_clerk : Instr.wf (.bundleLimit 255) = true ∧ Instr.wf (.bundleLimit 256) = false := by decide +kernel
theorem test_wf_entry : Instr.wf (.stepEnd 63) = true ∧ Instr.wf (.stepEnd 64) = false := by decide +kernel
theorem test_wf_half : Instr.wf (.gapTimeout 1 0) = true ∧ Instr.wf (.gapTimeout 2 0) = false := by decide +kernel
theorem test_wf_channel : Instr.wf (.channelFaultLocated 2) = true ∧ Instr.wf (.channelFaultLocated 3) = false := by decide +kernel
theorem test_wf_source : Instr.wf (.clockEdgeLoss 3) = true ∧ Instr.wf (.clockEdgeLoss 4) = false := by decide +kernel
theorem test_wf_accelerator : Instr.wf (.accBack 15) = true ∧ Instr.wf (.accBack 16) = false := by decide +kernel
theorem test_wf_pcnt : Instr.wf (.pcntWrap 63) = true ∧ Instr.wf (.pcntWrap 64) = false := by decide +kernel
theorem test_wf_engine : Instr.wf (.detailEngineEnd 15) = true ∧ Instr.wf (.detailEngineEnd 16) = false := by decide +kernel
theorem test_wf_laser_unit : Instr.wf (.laserUnitPoll 3 none) = true ∧ Instr.wf (.laserUnitPoll 4 none) = false := by decide +kernel
theorem test_wf_host_box : Instr.wf (.hbDoorbell 3 0) = true ∧ Instr.wf (.hbDoorbell 4 0) = false := by decide +kernel
theorem test_wf_vc : Instr.wf (.ingressHead 0 7 false (zeros 236)) = true ∧ Instr.wf (.ingressHead 0 8 false (zeros 236)) = false := by decide +kernel
theorem test_wf_payload : Instr.wf (.slowPostReceive 0 (zeros 236)) = true ∧ Instr.wf (.slowPostReceive 0 (zeros 235)) = false := by decide +kernel
theorem test_wf_coded : Instr.wf (.flitReceive 0 (zeros 288)) = true ∧ Instr.wf (.flitReceive 0 (zeros 287)) = false := by decide +kernel
theorem test_wf_random : Instr.wf (.rekeyReceive 0 (zeros 32)) = true ∧ Instr.wf (.rekeyReceive 0 (zeros 31)) = false := by decide +kernel
theorem test_wf_path : Instr.wf (.trayPathSilent 2) = true ∧ Instr.wf (.trayPathSilent 0) = false := by decide +kernel
theorem test_wf_cxl_mode : Instr.wf (.cxlLinkUp 7) = true ∧ Instr.wf (.cxlLinkUp 8) = false := by decide +kernel
theorem test_wf_box : Instr.wf (.assemblyTimeout (.ap 127)) = true ∧ Instr.wf (.assemblyTimeout (.ap 128)) = false ∧
    Instr.wf (.assemblyTimeout (.hb 4)) = false ∧ Instr.wf (.assemblyTimeout (.sb 2)) = false ∧ Instr.wf (.assemblyTimeout (.fm 4)) = false := by decide +kernel
theorem test_wf_ctx : Instr.wf (.nop op) = true ∧ Instr.wf (.nop { op with tag := 65536 }) = false ∧ Instr.wf (.nop { op with src := 2 ^ 24 }) = false := by decide +kernel
theorem test_wf_chron : Instr.wf (.chronReceive 0 chron0 0 0) = true ∧ Instr.wf (.chronReceive 0 { chron0 with seq := 65536 } 0 0) = false := by decide +kernel
theorem test_wf_card : Instr.wf (.surveyReceive 0 card0) = true ∧ Instr.wf (.surveyReceive 0 { card0 with idDigest := [] }) = false := by decide +kernel
theorem test_wf_roll : Instr.wf (.rollReceive 0 roll0) = true ∧ Instr.wf (.rollReceive 0 { roll0 with ladder := 8 }) = false := by decide +kernel
theorem test_wf_envelope : Instr.wf (.partArrival (.hb 0) env0 [] [] 0 5 0 0) = true ∧
    Instr.wf (.partArrival (.hb 0) { env0 with target := [] } [] [] 0 5 0 0) = false := by decide +kernel
theorem test_wf_slot : Instr.wf (.dispatcherMatch 199 false false false none [(4, 255)]) = true ∧ Instr.wf (.dispatcherMatch 200 false false false none []) = false ∧
    Instr.wf (.dispatcherMatch 0 false false false none [(5, 0)]) = false ∧ Instr.wf (.dispatcherMatch 0 false false false none [(0, 0)]) = false := by decide +kernel
theorem test_wf_clerk_op : Instr.wf (.clerkNop 0 { op0 with rnd := 2 } 0) = true ∧ Instr.wf (.clerkNop 0 { op0 with rnd := 3 } 0) = false := by decide +kernel

/-! ### The block -/

/-- The words of the table give no bits, so no word spells a command. -/
theorem test_table_gives_no_bits : decodeTableWord 32 0 = none ∧ State.withFetchWord State.reset 32 0 = State.reset := by decide +kernel

theorem test_first_in_first_out : step { ready with pending := [.aliveWrite, .nop op] } = exec .aliveWrite { ready with pending := [.nop op] } := rfl

/-- `ready` the least fraction of a nanosecond short of the boundary. -/
def lastCycle : State := { ready with mer := { ready.mer with ns := 1023, frac := 2 ^ 32 - 1 } }

theorem wit_IdleCycle : (ready.pending = [] ∧ merTotal ready + advance 1 ready < merNext ready) ∧
    (lastCycle.pending = [] ∧ merNext lastCycle ≤ merTotal lastCycle + advance 1 lastCycle) := by
  have h : lastCycle.draw = ready.draw := rfl
  unfold advance
  rw [h]
  generalize Config.merRoundUp ready.draw = b
  cases b <;> decide +kernel

theorem wit_LegalModesKept : LegalModes { ready with pending := [.aliveWrite] } := by
  simp [LegalModes, ready, State.reset]

theorem wit_MemoriesCanonicalKept : MemoriesCanonical { ready with pending := [.aliveWrite] } := by
  simp [MemoriesCanonical, ready, State.reset, Memory.wf, tblWf]

def event1 : Event := ⟨0, 0x0101, 1, .ok, 0, 0, 0, []⟩

theorem wit_EventsPosted : (putEvent event1 { ready with cxl := { ready.cxl with eventConsume := 2 ^ 32 - 63 } }).1 = true ∧
    (putEvent event1 { ready with cxl := { ready.cxl with eventConsume := 2 ^ 32 - 62 } }).1 = false ∧ event1.severity ≠ 0 ∧
    ({ event1 with severity := 0 } : Event).severity = 0 := by decide +kernel

theorem wit_AlertsAcknowledged : (event1.severity = 1 ∨ event1.severity = 2) ∧ Runs op 5 ready := by
  unfold Runs; decide +kernel

/-- A command of HB0 that waits, or is being executed. -/
def waiting0 : Waiting := { ctx := op, opcode := 0, cls := 5, plot := 0, replyAddr := 0 }

/-- `ready` while the voter holds outputs. -/
def holdingState : State := { ready with pm := { ready.pm with holding := true } }

/-- `ready` while command 0 of HB0 is being executed. -/
def executing0 : State := { ready with gmi := { ready.gmi with executing := some waiting0 } }

theorem wit_CompletionsRecorded : (boxOf (modBox ready 0 fun x => { x with waiting := [waiting0] }) (boxNo op.box)).waiting = [waiting0] ∧
    waiting0.isOf op 0 = true ∧ ready.gmi.executing = none ∧ (executing0.gmi.executing = some waiting0 ∧ (1 : Nat) ≠ boxNo op.box) ∧
    (ready.pm.holding = false ∧ ready.pm.noneMode = false) ∧
    holdingState.pm.holding = true := by decide +kernel

theorem wit_CommandsGated_turn : (∀ s, s = { ready with gmi := { ready.gmi with executing := some waiting0 } } → s.gmi.executing = some waiting0 ∧
      gate s op.box 0 = .run) ∧
    (∀ s, s = modBox ready 0 (fun x => { x with waiting := [waiting0] }) → (boxOf s (boxNo op.box)).waiting = [waiting0] ∧
      waiting0.isOf { op with tag := 2 } 0 = false ∧ gate s op.box 0 = .run) := by
  constructor <;> (rintro s rfl; decide +kernel)

/-- `waiting0` as it came in one part, unsigned, to be accepted up to Round 3; and signed, with SEQ 5. -/
def waitingUntil : Waiting := { waiting0 with env := some { env0 with validUntil := 3 } }
def waitingSigned : Waiting := { waiting0 with env := some { env0 with signed := true, seq := 5 } }

/-- A box 0 that holds these, at Round `n`. -/
def boxAt (n : Nat) (f : BoxState → BoxState) : State := modBox (readyAt n) 0 f

/-- A command that came again while the first waited, and has now been answered. -/
def keptAgain : State := boxAt 9 fun x => { x with waiting := [waitingUntil], kept := [(0, ⟨op.tag, 0, .ok, .operator, false, false, 0, 0, 5, 0, []⟩)] }

theorem wit_CommandsGated_accept :
    (served keptAgain op 0 = .run ∧ keptFor (entryFor op 0 keptAgain) keptAgain ≠ none) ∧
    (∀ s, s = boxAt 3 (fun x => { x with waiting := [waitingUntil] }) → served s op 0 = .run ∧ keptFor (entryFor op 0 s) s = none ∧
      acceptCheck (entryFor op 0 s) s = (.ok, s)) ∧
    (∀ s, s = boxAt 4 (fun x => { x with waiting := [waitingUntil] }) → served s op 0 = .run ∧ keptFor (entryFor op 0 s) s = none ∧
      acceptCheck (entryFor op 0 s) s = (.staleSequence, s)) ∧
    (∀ s, s = boxAt 4 (fun x => { x with waiting := [waitingSigned] }) → served s op 0 = .run ∧ keptFor (entryFor op 0 s) s = none ∧
      acceptCheck (entryFor op 0 s) s = (.refusedSignature, s)) := by
  refine ⟨by decide +kernel, ?_, ?_, ?_⟩ <;> (rintro s rfl; decide +kernel)

/-- The same module with no charge in its hold-up reservoir. -/
def uncharged (s : State) : State := { s with sens := { s.sens with vinMv := 0 } }

/-- A module that an authority's key, with SEQ 4 accepted last and its floor at 6, is keyed in. -/
def keyed : State := { ready with trust := { ready.trust with authority := some (3, [5]) }, gmi := { ready.gmi with lastSeq := 4, seqFloor := 6 } }

/-- The hypotheses on a signed command, where the verification of the implementation passes: SEQ 5 below the floor and 6 at it, with and without
hold-up; SEQ 4, and Round 0 past no VALID_UNTIL. -/
theorem wit_CommandsGated_signed (e : Envelope) (h : Config.rsaVerify 3 [5] (signedHeader e ++ []) [] = true) (ht : e.target = zeros 16) :
    signatureOk e [] [] keyed = true ∧ keyed.gmi.lastSeq < 5 ∧ (5 : Nat) < keyed.gmi.seqFloor ∧ keyed.gmi.seqFloor ≤ 6 ∧
    (holdupOk keyed 32 = true ∧ holdupOk (uncharged keyed) 32 = false) ∧ 4 ≤ keyed.gmi.lastSeq := by
  refine ⟨?_, by decide +kernel⟩
  simpa [signatureOk, keyed, ht] using h

/-- A signed command of the fabric manager's box under standing orders, whose arrival ends them at the next boundary. -/
def standingHeard : State := { ready with pm := { ready.pm with standing := true, standingExitDue := some 1 } }

theorem wit_CommandsGated_exit : gate standingHeard (.sb 0) 0 = .run ∧ awaitsExit standingHeard { op with box := .sb 0 } = true := by decide +kernel

theorem wit_CommandsGated : (served ready { op with auth := .manager } 0x603 = .run ∧
      authCode (granted ready { op with auth := .manager }) < authCode ((opcodeLeast 0x603).getD .operator)) ∧
    gate { ready with ident := { ready.ident with skeleton := true } } op.box 0x603 = .refuse .skeleton ∧ gate State.reset op.box 0x603 = .silent := by decide +kernel

/-! ### Meridian time (02) -/

theorem wit_RoundBoundaryTime : ready.tray.start = .running ∧ ready.clk.pwrReset = false ∧ ready.clk.rstLow = false ∧ ready.mer.keeperRuns = false ∧
    ready.mer.pendingStep = none ∧ ready.mer.rate.natAbs ≤ 1000000 * 512000 ∧ ready.mer.frac < 2 ^ 32 ∧ ready.mer.ns + 2048 < 2 ^ 64 := by decide +kernel

/-- Port 0 admitted, its last CHRON of SEQ `q`. -/
def chronAt (q : Option Nat) : State :=
  withLink 0 inLink { ready with mer := { ready.mer with ports := match q with | some n => [(0, { lastSeq := some n })] | none => [] } }

theorem wit_ChronAccepted :
    ((linkOf (chronAt none) 0).disc = .admitted ∧ (chronOf (chronAt none) 0).lastSeq = none) ∧
    (chronOf (chronAt (some 65535)) 0).lastSeq = some 65535 ∧ (linkOf (chronAt (some 65535)) 0).disc = .admitted ∧
    (1 ≤ (0 + 65536 - 65535) % 65536 ∧ (32766 + 65536 - 65535) % 65536 < 32768) ∧
    ((65535 + 65536 - 65535) % 65536 = 0 ∧ 32768 ≤ (32767 + 65536 - 65535) % 65536) := by decide +kernel

def stepPending (timed : Bool) : State := { ready with mer := { ready.mer with state := .acquire, pendingStep := some (-512000) }, staging := { ready.staging with sealedTimed := timed } }

theorem wit_MeridianStepCancels : (stepPending true).mer.pendingStep = some (-512000) ∧ (stepPending true).staging.sealedTimed = true ∧
    (stepPending false).mer.pendingStep = some (-512000) ∧ (stepPending false).staging.sealedTimed = false ∧
    (stepPending true).mer.cycle = 0 ∧ (stepPending true).mer.state = .acquire ∧ (stepPending false).mer.cycle = 0 ∧ (stepPending false).mer.state = .acquire ∧
    ready.mer.pendingStep = none ∧
    (∀ s, s = { ready with mer := { ready.mer with pendingStep := some 1 } } → s.mer.cycle = 0 ∧ s.mer.pendingStep = some 1 ∧ s.mer.state ≠ .acquire) := by
  refine ⟨?_, ?_, ?_, ?_, ?_, ?_, ?_, ?_, ?_, ?_⟩
  case refine_10 => rintro s rfl; decide +kernel
  all_goals decide +kernel

/-- The keeper in ST2 with REFCLK ready. -/
def keeping : State := { ready with mer := { ready.mer with state := .keeper }, pow := { ready.pow with ladder := 2 }, clk := { ready.clk with srcs := [(0, { ready := true })] } }
def lockedOn (p : Nat) : State := { ready with mer := { ready.mer with state := .locked, parent := some p } }
def gmSilent : State := { readyAt 64 with mer := { (readyAt 64).mer with state := .locked, gmKnown := true } }
def freeLong : State := { readyAt 64 with mer := { (readyAt 64).mer with firstAdmission := some 0 } }
def electing (mine : Bool) : State :=
  { readyAt 256 with mer := { (readyAt 256).mer with electionSince := some 0, announcing := mine, best := if mine then none else some ⟨0x70FF, 1, 2⟩ } }
def holdingOver : State := { readyAt 1 with mer := { (readyAt 1).mer with state := .holdover, holdoverEnd := some 1024 } }
/-- The grandmaster is the partner's plane (its slot 113). -/
def foreignPlane (lead : Bool) : State :=
  { ready with mer := { ready.mer with gmKnown := true, gmRef := 32 * 113, rackTime := lead, ports := [(224, { rackTime := true })] },
               pm := { ready.pm with partnerLost := true } }

theorem wit_MeridianStates :
    (keeping.mer.cycle = 0 ∧ keeping.mer.state = .keeper ∧ keeping.pow.ladder ≤ 2 ∧ (srcOf keeping 0).ready = true) ∧
    ((lockedOn 3).mer.parent = some 3 ∧ (linkOf (lockedOn 3) 3).disc ≠ .admitted ∧ (lockedOn 3).mer.state = .locked ∧ 3 ∉ admittedPorts (lockedOn 3)) ∧
    (gmSilent.mer.gmKnown = true ∧ gmSilent.mer.state = .locked ∧ gmSilent.mer.gmSeqRound + 64 ≤ roundNo gmSilent) ∧
    (freeLong.mer.firstAdmission = some 0 ∧ freeLong.mer.state = .free ∧ freeLong.mer.gmKnown = false ∧ freeLong.mer.best = none ∧
      freeLong.mer.electionSince = none ∧ 0 + 64 ≤ roundNo freeLong) ∧
    ((electing true).mer.electionSince = some 0 ∧ 0 + 32 * chronInterval (electing true) ≤ roundNo (electing true) ∧ (electing true).mer.announcing = true ∧
      (electing true).mer.state = .free) ∧
    ((electing false).mer.electionSince = some 0 ∧ 0 + 32 * chronInterval (electing false) ≤ roundNo (electing false) ∧
      (electing false).mer.announcing = false ∧ (electing false).mer.best = some ⟨0x70FF, 1, 2⟩) ∧
    (∀ s, s = { readyAt 256 with mer := { (readyAt 256).mer with electionSince := some 0 } } → s.mer.electionSince = some 0 ∧ 0 + 32 * chronInterval s ≤ roundNo s ∧ s.mer.announcing = false ∧
      s.mer.best = none) ∧
    (holdingOver.mer.holdoverEnd = some 1024 ∧ 1024 ≤ holdingOver.mer.ns ∧ holdingOver.mer.state = .holdover) ∧
    ((foreignPlane false).mer.gmKnown = true ∧ plane (foreignPlane false) = modIndex (foreignPlane false) ^^^ 1 ∧
      (foreignPlane false).mer.rackTime = false ∧ (foreignPlane false).pm.partnerLost = true) ∧
    (∀ s, s = withLink 224 inLink (foreignPlane true) → s.mer.gmKnown = true ∧ plane s = modIndex s ^^^ 1 ∧ s.mer.rackTime = true ∧
      224 ∈ admittedPorts s ∧ isPeer 224 = true ∧ (chronOf s 224).rackTime = true) := by
  refine ⟨?_, ?_, ?_, ?_, ?_, ?_, ?_, ?_, ?_, ?_⟩
  case refine_10 => rintro s rfl; decide +kernel
  case refine_7 => rintro s rfl; decide +kernel
  all_goals decide +kernel

/-! ### Optical lanes (03) -/

def searching : State := withLane 0 { searchRound := 0 } { readyAt 64 with clk := { ready.clk with coreChosen := true } }
def lockedRing : State := withLane 0 { ringLock := true } ready
def gapOver (r : Nat) : State := withLane 0 { los := false, gapBack := some r } (readyAt 4)

theorem wit_LaneEvents : ((-1501 : Int) < -1500) ∧ ((-1300 : Int) < -1299) ∧ (laneOf lockedRing 0).ringLock = true ∧
    ((laneOf searching 0).ringLock = false ∧ (laneOf searching 0).searchRound + 64 ≤ roundNo searching ∧ searching.pow.ladder ≤ 2 ∧ searching.ident.boot ≠ 0 ∧
      searching.clk.coreChosen = true) ∧
    ((laneOf (gapOver 0) 0).los = false ∧ (laneOf (gapOver 0) 0).gapBack = some 0 ∧ 0 + 4 ≤ roundNo (gapOver 0)) ∧
    ((laneOf (gapOver 1) 0).gapBack = some 1 ∧ roundNo (gapOver 1) < 1 + 4) := by decide +kernel

/-- A tile whose working fibre is in use and good, the spare as given. -/
def tileLit (spare : BitVec 4) : State := withTile 15 { workOk := 15, spareOk := spare } ready

/-- A tile whose wavelength 3 came below +6.0 dBm at 500 ns, now `n` Rounds later. -/
def tileDim (n : Nat) : State := withTile 15 { workOk := 15, spareOk := 7, lowSince := [(3, 500)] } (withLane 979 { ringLock := true } (readyAt n))

theorem wit_LaserLight_dim :
    (tfind (tileOf (tileDim 2) 15).lowSince (4 * 0 + 3) = some 500 ∧ 500 + 1000 ≤ (tileDim 2).mer.ns ∧ (599 : Int) < 600 ∧
      fibreOk (tileOf (tileDim 2) 15) (1 - 0) ≠ 15 ∧ (laneOf (tileDim 2) (64 * 15 + 4 * 4 + 3)).ringLock = true ∧ (laneOf (tileDim 2) 0).ringLock = false) ∧
    (tfind (tileOf (tileDim 1) 15).lowSince (4 * 0 + 3) = some 500 ∧ (tileDim 1).mer.ns < 500 + 1000 ∧ tfind (tileOf (tileLit 7) 15).lowSince 3 = none) := by
  decide +kernel

theorem wit_LaserLight :
    ((tileOf (tileLit 15) 15).active = 0 ∧ (fibreOk (tileOf (tileLit 15) 15) 0).getLsbD 3 = true ∧ (tileOf (tileLit 15) 15).corr = [] ∧ (1599 : Int) < 1600 ∧
      fibreOk (tileOf (tileLit 15) 15) (1 - 0) = 15) ∧
    ((tileOf (tileLit 7) 15).active = 0 ∧ (fibreOk (tileOf (tileLit 7) 15) 0).getLsbD 3 = true ∧ (tileOf (tileLit 7) 15).corr = [] ∧
      fibreOk (tileOf (tileLit 7) 15) (1 - 0) ≠ 15) ∧ ((1700 : Int) ≤ 1700) ∧
    (Runs op 0x801 (tileLit 15) ∧ (tileOf (tileLit 15) 15).active = 0 ∧ (tileOf (tileLit 15) 15).active = 1 - 1 ∧ fibreOk (tileOf (tileLit 15) 15) 1 = 15) ∧
    (Runs op 0x801 (tileLit 7) ∧ (tileOf (tileLit 7) 15).active = 1 - 1 ∧ fibreOk (tileOf (tileLit 7) 15) 1 ≠ 15) := by
  unfold Runs; decide +kernel

/-- A link in training, lane 1023 of it tested. -/
def trainingTest : State := withLink 255 { disc := .training, phase := .ts1 } (withLane 1023 { claim := .prbs, testEnd := some 0 } ready)

theorem wit_PrbsTests_training :
    (∀ s, s = trainingTest → (laneOf s 1023).testEnd = some 0 ∧ 0 ≤ roundNo s ∧ (laneOf s 1023).claim = .prbs ∧ (linkOf s (portOfLane 1023)).released = 0 ∧
      (linkOf s (portOfLane 1023)).disc = .training ∧ (linkOf s (portOfLane 1023)).phase = .ts1) := by
  rintro s rfl; decide +kernel

theorem wit_PrbsTests_bits : (({} : Lane).chkFill < (prbsPoly ({} : Lane).pattern).1) ∧
    (∀ x : Lane, x = { chkFill := 31, chkLock := true, chkErrs := List.replicate 1024 true } → (prbsPoly x.pattern).1 ≤ x.chkFill ∧ x.chkLock = true ∧
      ∀ b, 32 ≤ ((((prbsNext x.pattern x.chkReg).2 != b) :: x.chkErrs).take 1024 |>.filter id).length) ∧
    (∀ x : Lane, x = { chkFill := 31 } → (prbsPoly x.pattern).1 ≤ x.chkFill ∧ x.chkLock = false ∧
      ∀ b, ((((prbsNext x.pattern x.chkReg).2 != b) :: x.chkErrs).take 1024 |>.filter id).length < 32) := by
  refine ⟨by decide +kernel, ?_, ?_⟩ <;> (rintro x rfl; decide +kernel)

def adaptLane : Lane := { claim := .adapt }
def prbsLane : Lane := { claim := .prbs, chkEn := true, chkLock := true, testEnd := some 0 }

theorem wit_PrbsTests :
    (Runs op 0x801 ready ∧ ready.pow.ladder ≤ 1 ∧ (linkOf ready (portOfLane 1023)).disc = .dark ∧ (laneOf ready 1023).claim ≠ .adapt ∧ 3 ≤ 3 ∧
      (laneOf ready 1023).claim = .none) ∧ (laneOf (withLane 1023 adaptLane ready) 1023).claim ≠ .none ∧ Runs op 0x801 (withLane 1023 adaptLane ready) ∧
    (∀ s, s = withLane 1023 prbsLane ready → Runs op 0x801 s ∧ (laneOf s 1023).chkEn = true ∧ (laneOf s 1023).chkLock = true ∧ (laneOf s 1023).testEnd = some 0 ∧
      0 ≤ roundNo s ∧ (laneOf s 1023).claim = .prbs ∧ (linkOf s (portOfLane 1023)).released = 0 ∧ (linkOf s (portOfLane 1023)).disc ≠ .training) := by
  unfold Runs
  refine ⟨?_, ?_, ?_, ?_⟩
  case refine_4 => rintro s rfl; decide +kernel
  all_goals decide +kernel

/-- Tile 0 with light on all lanes and lane 3 of local port 1 in lock. -/
def echoReady (l : Lane) (c : Corr) : State := withTile 0 { workOk := 15, corr := tset {} [] 0 c } (withLane 7 { l with ringLock := true } ready)

theorem wit_EchoMeasurements :
    (∀ s, s = echoReady {} {} → Runs op 0x801 s ∧ s.pow.ladder ≤ 1 ∧ 15000 ≤ 15000 ∧ (tget {} (tileOf s 0).corr 0).busy = false ∧
      (laneOf s (64 * 0 + 4 * 1 + 3)).claim = .none ∧ lightOk s 0 3 = true ∧ (laneOf s (64 * 0 + 4 * 1 + 3)).ringLock = true) ∧
    (∀ s, s = echoReady adaptLane {} → Runs op 0x801 s ∧ (tget {} (tileOf s 0).corr 0).busy = false ∧ (laneOf s (64 * 0 + 4 * 1 + 3)).claim ≠ .none) ∧
    (∀ s, s = withTile 0 {} (echoReady {} {}) → Runs op 0x801 s ∧ s.pow.ladder ≤ 1 ∧ (tget {} (tileOf s 0).corr 0).busy = false ∧
      (laneOf s (64 * 0 + 4 * 1 + 3)).claim = .none ∧ lightOk s 0 3 = false) ∧
    (∀ s, s = echoReady {} { busy := true } → Runs op 0x801 s ∧ s.pow.ladder ≤ 1 ∧ (tget {} (tileOf s 0).corr 0).busy = true ∧ 15000 < 15001) ∧
    (∀ s c, s = echoReady { claim := .echo } { busy := true, portLane := 7, laneJ := 3 } → c = tget {} (tileOf s 0).corr 0 → c.busy = true ∧
      lightOk s 0 c.laneJ = true ∧ (laneOf s c.portLane).ringLock = true ∧ (laneOf s c.portLane).claim = .echo ∧
      (linkOf s (portOfLane c.portLane)).released = 0 ∧ (linkOf s (portOfLane c.portLane)).disc ≠ .training) := by
  unfold Runs
  refine ⟨?_, ?_, ?_, ?_, ?_⟩
  case refine_5 => rintro s c rfl rfl; decide +kernel
  all_goals (rintro s rfl; decide +kernel)

/-! ### Links (04) -/

/-- The CRC-64 and CRC-16 of the nine digits, whose values are published for the two polynomials, initial values and final XORs of R90 and R125. -/
theorem test_crcs : crc64 ([0x31, 0x32, 0x33, 0x34, 0x35, 0x36, 0x37, 0x38, 0x39] : List Byte) = 0x62EC59E3F1A4F00A ∧
    crc16 ([0x31, 0x32, 0x33, 0x34, 0x35, 0x36, 0x37, 0x38, 0x39] : List Byte) = 0x29B1 := by decide +kernel

/-- One flit of a type with no payload, number 0. -/
def sentBody (type : Nat) : List Byte := flitBody (flitHeader { type := type, vc := 0, shared := false, payload := [] } 0 0 0 false) [] none

/-- What FEC gives back passes a check. -/
def decodesTo (coded : List Byte) (f : List Byte → Bool) : Bool := match fecDecode coded with | some x => f x.1 | none => false

theorem decodesTo_spec {coded : List Byte} {f : List Byte → Bool} (h : decodesTo coded f = true) : ∃ body n, fecDecode coded = some (body, n) ∧ f body = true := by
  unfold decodesTo at h
  split at h
  · next x hx => exact ⟨x.1, x.2, hx, h⟩
  · cases h

/-- A body's CRC is good, its type `y` and its number 0. -/
def goodOf (y : Nat) (body : List Byte) : Bool :=
  decide (crc64 (body.take 248) = fieldAt body 248 8) && decide (fieldAt body 0 4 % 16 = y) && decide (bitsOf (fieldAt body 0 4) 18 7 = 0) &&
  !bitOf (fieldAt body 0 4) 30

theorem wit_FlitsReceived_fec : inService upLink = true ∧ fecDecode (List.replicate 288 1) = none ∧ upLink.rx.discarding = false := by decide +kernel
set_option maxRecDepth 100000 in
theorem wit_FlitsReceived_crc : ∃ body n, fecDecode (zeros 288) = some (body, n) ∧ decide (crc64 (body.take 248) ≠ fieldAt body 248 8) = true :=
  decodesTo_spec (by decide +kernel)
set_option maxRecDepth 100000 in
theorem wit_FlitsReceived_survey : ∃ body n, fecDecode (fecEncode (sentBody 10)) = some (body, n) ∧ goodOf 10 body = true := decodesTo_spec (by decide +kernel)
set_option maxRecDepth 100000 in
theorem wit_FlitsReceived_letter : ∃ body n, fecDecode (fecEncode (sentBody 4)) = some (body, n) ∧ goodOf 4 body = true := decodesTo_spec (by decide +kernel)
theorem wit_FlitsReceived_link : inService upLink = true ∧ upLink.disc ≠ .admitted ∧ upLink.disc ≠ .admitting ∧ upLink.rx.eseq = 0 ∧ isAccess 127 = true ∧
    linkOf (withLink 127 upLink ready) 127 = upLink ∧ inService inLink = true ∧ inLink.disc = .admitted ∧ inLink.keyPhaseRx = false := by decide +kernel

def held (n : Nat) : Held := { seq := n, coded := [], sentNs := 0, oldKey := false }

/-- Port 0's link as given, at `ns` nanoseconds. -/
def linkAt (l : Link) (ns : Nat) : State := withLink 0 l { ready with mer := { ready.mer with ns := ns } }

theorem wit_FlitsAcknowledged :
    (32 ≤ (linkOf (linkAt { upLink with rx := { ackCount := 32 } } 0) 0).rx.ackCount) ∧
    ((linkOf (linkAt { upLink with rx := { ackCount := 1, ackFirst := some 0 } } 32) 0).rx.ackFirst = some 0 ∧ 0 + 32 ≤ 32) ∧
    (∀ s, s = linkAt { upLink with rx := { lastNak := some 0, discarding := true } } 224 → (linkOf s 0).rx.lastNak = some 0 ∧ (linkOf s 0).rx.discarding = true ∧
      rtt256 s 0 + 64 * 256 ≤ (s.mer.ns - 0) * 256) ∧
    (∀ t, t = (linkOf (linkAt { upLink with tx := { replay := [held 4095, held 4096] } } 0) 0).tx.replay →
      (∀ i, (h : i < t.length) → t[i].seq = 4095 + i) ∧ 1 < t.length ∧ t.length ≤ 1024) ∧
    (∀ s, s = linkAt { upLink with tx := { replay := [held 0] } } 289 → (linkOf s 0).tx.replay = [held 0] ∧ (linkOf s 0).tx.resend = [] ∧
      rtt256 s 0 + 128 * 256 < (s.mer.ns - (held 0).sentNs) * 256) ∧ 7 < 8 ∧
    (∀ s, s = linkAt { upLink with rx := { pendDed := [(0, 64)] } } 0 → (linkOf s 0).creditStop = false ∧ 0 < pendingCredits s 0 ∧ 64 ≤ pendingCredits s 0) ∧
    (∀ s, s = linkAt { upLink with rx := { pendDed := [(0, 1)], pendSince := some 0 } } 32 → (linkOf s 0).creditStop = false ∧ 0 < pendingCredits s 0 ∧
      (linkOf s 0).rx.pendSince = some 0 ∧ 0 + 32 ≤ s.mer.ns) := by
  refine ⟨?_, ?_, ?_, ?_, ?_, ?_, ?_, ?_⟩
  all_goals first | decide +kernel | (rintro s rfl; decide +kernel)

def ackFlit : Flit := { type := 6, vc := 0, shared := false, payload := [] }

theorem wit_FlitsTransmitted :
    (∀ s, s = linkAt { upLink with tx := { control := [ackFlit] } } 0 → inService (linkOf s 0) = true ∧ mayTransmit s = true ∧ peerAsleep (linkOf s 0) = false ∧
      (linkOf s 0).keys.nextTx = none ∧ (linkOf s 0).tx.control = [ackFlit] ∧ ackFlit.type = 6 ∧ (linkOf s 0).disc = .up) ∧
    (∀ s, s = linkAt { upLink with tx := { resend := [held 0] } } 0 → inService (linkOf s 0) = true ∧ (linkOf s 0).disc ≠ .admitted ∧ mayTransmit s = true ∧
      peerAsleep (linkOf s 0) = false ∧ (linkOf s 0).keys.nextTx = none ∧ (linkOf s 0).tx.control = [] ∧ (linkOf s 0).tx.resend = [held 0]) ∧
    (∀ s, s = linkAt upLink 0 → (linkOf s 0).disc ≠ .admitting ∧ (linkOf s 0).tx.resend = [] ∧ (linkOf s 0).tx.replay.length < replaySize 0 ∧
      (linkOf s 0).tx.creditInitDue = false ∧ (linkOf s 0).tx.creditDue = false ∧ (linkOf s 0).tx.mgmt = [] ∧ (linkOf s 0).tx.control = [] ∧
      inService (linkOf s 0) = true ∧ (linkOf s 0).disc ≠ .admitted ∧ mayTransmit s = true ∧ peerAsleep (linkOf s 0) = false ∧
      (linkOf s 0).keys.nextTx = none) := by
  refine ⟨?_, ?_, ?_⟩
  all_goals (rintro s rfl; decide +kernel)

def litLane : Lane := { ringLock := true, los := false }
def training (ph : Phase4) (ns : Nat) (ok : BitVec 4) : State :=
  withLane 0 litLane (linkAt { disc := .training, phase := ph, lanesOk := ok } ns)

theorem wit_LinkTraining :
    (∀ s, s = withLane 0 litLane (linkAt {} 0) → (linkOf s 0).disc = .dark ∧ mayTransmit s = true ∧ litLanes s 0 ≠ 0 ∧ (linkOf s 0).retryRound ≤ roundNo s) ∧
    (∀ s, s = training .ts1 600000 0 → (linkOf s 0).phase = .ts1 ∧ 15 &&& litLanes s 0 ≠ 0 ∧ 15 &&& litLanes s 0 = litLanes s 0 ∧ (linkOf s 0).disc = .training ∧
      (linkOf s 0).phaseNs + 600000 ≤ s.mer.ns) ∧
    (∀ s, s = training .ts2 100000 1 → (linkOf s 0).phase = .ts2 ∧ (linkOf s 0).lanesOk &&& 3 ≠ 0 ∧ (linkOf s 0).disc = .training ∧
      (linkOf s 0).phaseNs + 100000 ≤ s.mer.ns) ∧
    (∀ s, s = training .ts3 20000 1 → (linkOf s 0).disc = .training ∧ (linkOf s 0).phase = .ts3 ∧ (linkOf s 0).phaseNs + 20000 ≤ s.mer.ns) ∧
    (∀ s, s = linkAt { upLink with rx := { badSince := some 0 } } 2048 → (linkOf s 0).disc ≠ .dark ∧ (linkOf s 0).disc ≠ .training ∧
      (linkOf s 0).rx.badSince = some 0 ∧ 0 + 2 ≤ roundNo s) := by
  refine ⟨?_, ?_, ?_, ?_, ?_⟩
  all_goals (rintro s rfl; decide +kernel)

theorem wit_LinkLanes :
    (∀ s, s = linkAt upLink 0 → inService (linkOf s (portOfLane 3)) = true ∧ (linkOf s (portOfLane 3)).width.getLsbD (3 % 4) = true ∧
      (linkOf s (portOfLane 3)).lost.getLsbD (3 % 4) = false ∧ peerAsleep (linkOf s (portOfLane 3)) = false ∧
      (linkOf s (portOfLane 3)).width ≠ laneBit (3 % 4) ∧ (linkOf s 0).width &&& 8 ≠ 0 ∧ Runs op 0x802 s ∧ Runs op 0x803 s ∧ (linkOf s 0).width = 15) ∧
    (∀ s, s = linkAt { upLink with phase := .reshape, lanesOk := 7 } 0 → (linkOf s 0).phase = .reshape ∧ (linkOf s 0).lanesOk &&& 4 ≠ 0) ∧
    (∀ s, s = linkAt { upLink with width := 7, released := 8 } 0 → Runs op 0x802 s ∧ Runs op 0x803 s ∧ inService (linkOf s 0) = true ∧ (linkOf s 0).width ≠ 15 ∧
      (linkOf s 0).released.getLsbD 3 = true) ∧
    (∀ s, s = withLane 3 litLane (linkAt { upLink with width := 7, released := 8, returning := [(3, 0, some op)] } 2000000) → inService (linkOf s 0) = true ∧
      (linkOf s 0).returning = [(3, 0, some op)] ∧ (laneOf s (laneOfPort 0 3)).ringLock = true ∧ (laneOf s (laneOfPort 0 3)).los = false ∧
      (laneOf s (laneOfPort 0 3)).blank = false ∧ (laneOf s (laneOfPort 0 3)).claim = .none ∧ 0 + 2000000 ≤ s.mer.ns) ∧
    (∀ s, s = withLane 3 { litLane with losClearRound := some 0 } (linkAt { upLink with width := 7, lost := 8 } 65536) → inService (linkOf s 0) = true ∧
      (linkOf s 0).lost.getLsbD 3 = true ∧ (laneOf s (laneOfPort 0 3)).losClearRound = some 0 ∧ 0 + 64 ≤ roundNo s ∧ laneReady s 0 3 = true) := by
  unfold Runs
  refine ⟨?_, ?_, ?_, ?_, ?_⟩
  all_goals (rintro s rfl; decide +kernel)

theorem wit_LinkTraining_turns :
    (∀ s, s = training .ts1 600000 0 → 0 &&& litLanes s 0 = 0 ∧ (linkOf s 0).phaseNs + 600000 ≤ s.mer.ns) ∧
    (∀ s, s = training .ts1 599999 0 → (linkOf s 0).phase = .ts1 ∧ 0 &&& litLanes s 0 ≠ litLanes s 0 ∧ s.mer.ns < (linkOf s 0).phaseNs + 600000) ∧
    (∀ s, s = linkAt { upLink with rx := { badSince := some 0 } } 2048 → signalSince s 0 = some 0 ∧ max 0 0 + 2 ≤ roundNo s) ∧
    (∀ s, s = withLane 3 { los := true } (linkAt { upLink with width := 8 } 0) → (linkOf s 0).disc ≠ .dark ∧ (linkOf s 0).disc ≠ .training ∧
      ∀ j ∈ lanesIn (linkOf s 0).width, (laneOf s (laneOfPort 0 j)).los = true) := by
  refine ⟨?_, ?_, ?_, ?_⟩
  all_goals (rintro s rfl; decide +kernel)

/-- The control word of one lane that keeps the lanes `ok`. -/
def keepWord (j ok : Nat) : Nat := ctrlWord j 0 false true ok false false

theorem wit_LinkLanes_turns :
    (∀ s, s = withLane 3 { los := true } (linkAt upLink 0) → (laneOf s 3).los = true) ∧
    (∀ s, s = withLane 3 { los := false, cdrLock := false } (linkAt upLink 0) → peerAsleep (linkOf s 0) = false ∧ (laneOf s 3).cdrLock = false) ∧
    (∀ s, s = withLane 3 { los := true } (linkAt { upLink with width := 8 } 0) → inService (linkOf s 0) = true ∧ (linkOf s (portOfLane 3)).width = laneBit (3 % 4)) ∧
    laneLost (withLane 3 { los := false, cdrLock := true } ready) 3 = false ∧
    (∀ s w, s = linkAt upLink 0 → w = [keepWord 0 7, keepWord 1 7, keepWord 2 7, keepWord 3 7] → inService (linkOf s 0) = true ∧
      w.length = (lanesIn (linkOf s 0).width).length ∧ (∀ x ∈ w, ctrlOk x = true) ∧ (linkOf s 0).width &&& markerLanes w ≠ 0 ∧
      markerLanes w &&& ~~~(linkOf s 0).width &&& joinable s 0 = 0) ∧
    (∀ s w, s = withLane 3 litLane (linkAt { upLink with width := 7, lost := 8 } 0) → w = [keepWord 0 15, keepWord 1 15, keepWord 2 15] →
      inService (linkOf s 0) = true ∧ w.length = (lanesIn (linkOf s 0).width).length ∧ (∀ x ∈ w, ctrlOk x = true) ∧
      markerLanes w = (linkOf s 0).width ||| laneBit 3 ∧ (linkOf s 0).width.getLsbD 3 = false ∧ (joinable s 0).getLsbD 3 = true) ∧
    (∀ s w, s = linkAt { upLink with phase := .reshape, lanesOk := 7 } 0 → w = [keepWord 0 7, keepWord 1 7, keepWord 2 7, keepWord 3 7] →
      (linkOf s 0).phase = .reshape ∧ w.length = (lanesIn (linkOf s 0).width).length ∧ (∀ x ∈ w, ctrlOk x = true) ∧
      (linkOf s 0).lanesOk &&& markerLanes w ≠ 0) ∧
    (∃ w ∈ [keepWord 0 7 + 1], ctrlOk w = false) ∧
    (∀ s, s = linkAt { upLink with phase := .ts3, lanesOk := 15, width := 7, released := 8, returning := [(3, 0, some op)] } 0 → (linkOf s 0).phase = .ts3 ∧
      (linkOf s 0).disc ≠ .training ∧ (linkOf s 0).returning = [(3, 0, some op)] ∧ (linkOf s 0).lanesOk &&& 15 = (linkOf s 0).width ||| laneBit 3 ∧
      (linkOf s 0).width.getLsbD 3 = false) ∧
    (∀ s, s = withLane 3 litLane (linkAt { upLink with width := 7, released := 8, returning := [(3, 0, some op)] } 0) → inService (linkOf s 0) = true ∧
      homing (linkOf s 0) 3 = true ∧ laneFit (laneOf s (laneOfPort 0 3)) = true) ∧
    (∀ s, s = linkAt { upLink with width := 7, released := 8 } 0 → (laneOf s (laneOfPort 0 3)).claim = .none ∧ (laneOf s (laneOfPort 0 3)).genEn = false) := by
  refine ⟨?_, ?_, ?_, ?_, ?_, ?_, ?_, ?_, ?_, ?_, ?_⟩
  case refine_5 => rintro s w rfl rfl; decide +kernel
  case refine_6 => rintro s w rfl rfl; decide +kernel
  case refine_7 => rintro s w rfl rfl; decide +kernel
  all_goals first | decide +kernel | (rintro s rfl; decide +kernel)

/-- The card of the accelerator that port 0 is wired to. -/
def accCard : SurveyCard := { card0 with kind := 1, portKind := 9, position := 0, linkIndex := 0 }

theorem wit_LinkSurvey :
    (∀ s, s = linkAt { upLink with cardDue := true } 0 → (linkOf s 0).disc = .up ∧ (linkOf s 0).cardDue = true) ∧
    (∀ s, s = linkAt { upLink with admitReq := false } 0 → (linkOf s 0).disc = .up ∧ wiringOk s 0 accCard = true ∧ (linkOf s 0).admitReq = false ∧
      wiringOk s 0 card0 = false) ∧
    (∀ s, s = linkAt upLink 65536 → (linkOf s 0).disc = .up ∧ (linkOf s 0).card = none ∧ (linkOf s 0).upRound + 64 ≤ roundNo s) := by
  refine ⟨?_, ?_, ?_⟩
  all_goals (rintro s rfl; decide +kernel)

def admitting (step : Nat) : Link := { upLink with disc := .admitting, card := some accCard, adm := { step := step } }

theorem wit_LinkAdmission :
    (∀ s, s = linkAt { upLink with disc := .refused, card := some accCard } 1000000000 → (linkOf s 0).disc = .refused ∧ (linkOf s 0).refusedNs + 1000000000 ≤ s.mer.ns ∧
      (linkOf s 0).card = some accCard ∧ accCard.admitReq = true ∧ (linkOf s 0).admitReq = true ∧
      (s.links.filter fun x => x.2.disc = .admitting).length < 16 ∧ s.ident.skeleton = false) ∧
    (∀ s, s = linkAt (admitting 1) 10000000 → (linkOf s 0).disc = .admitting ∧ (linkOf s 0).adm.step = 1 ∧ (linkOf s 0).card = some accCard ∧
      (linkOf s 0).adm.stepNs + 10000000 ≤ s.mer.ns) ∧
    (∀ s, s = linkAt (admitting 3) 0 → (linkOf s 0).disc = .admitting ∧ (linkOf s 0).adm.step = 3 ∧ peerRevoked s (linkOf s 0) = false ∧
      ([] : List Byte).take 32 = (linkOf s 0).adm.finish) ∧
    (∀ s, s = linkAt { inLink with admitReq := false, reqRestore := 1024 } 1048576 → (linkOf s 0).disc = .admitted ∧ (linkOf s 0).admitReq = false ∧
      (linkOf s 0).reqRestore ≤ roundNo s) := by
  refine ⟨?_, ?_, ?_, ?_⟩
  all_goals (rintro s rfl; decide +kernel)

theorem wit_AdmissionKeys : ∀ s, s = linkAt (admitting 2) 0 → (linkOf s 0).disc = .admitting ∧ (linkOf s 0).adm.step = 2 ∧ peerRevoked s (linkOf s 0) = false := by
  rintro s rfl; decide +kernel

def rekeying (own : Bool) (fails : Nat) : Link := { inLink with keys := { rekeySince := some 0, initiator := own, rekeyFails := fails } }

theorem wit_LinkRekey :
    (∀ s, s = linkAt inLink (1024 * 2 ^ 22) → (linkOf s 0).disc = .admitted ∧ (linkOf s 0).keys.rekeySince = none ∧
      (linkOf s 0).keys.lastRekey + 2 ^ (linkOf s 0).keys.interval ≤ roundNo s ∧ (linkOf s 0).keys.initiator = false) ∧
    (∀ s, s = linkAt (rekeying true 1) 10000000 → (linkOf s 0).keys.rekeySince = some 0 ∧ (linkOf s 0).keys.ackGot = false ∧ (linkOf s 0).keys.initiator = true ∧
      (linkOf s 0).disc = .admitted ∧ 0 + 10000000 ≤ s.mer.ns ∧ (linkOf s 0).keys.rekeyFails ≤ 1) ∧
    2 ≤ (rekeying true 2).keys.rekeyFails ∧
    (∀ s, s = linkAt inLink 288 → (∀ h ∈ (linkOf s 0).tx.replay, h.oldKey = false) ∧ rtt256 s 0 + 128 * 256 ≤ (s.mer.ns - (linkOf s 0).keys.switchNs) * 256) := by
  refine ⟨?_, ?_, ?_, ?_⟩
  all_goals first | decide +kernel | (rintro s rfl; decide +kernel)

theorem wit_LinkSurvey_misfit :
    (∀ s, s = linkAt (admitting 2) 0 → (linkOf s 0).disc = .admitting ∧ wiringOk s 0 card0 = false ∧ (linkOf s 0).disc ≠ .dark) ∧
    (∀ s, s = linkAt inLink 0 → (linkOf s 0).disc = .admitted ∧ wiringOk s 0 card0 = false) ∧
    (∀ s, s = linkAt { upLink with disc := .refused, card := some card0 } 0 → wiringOk s 0 accCard = true ∧ (linkOf s 0).card ≠ some accCard ∧
      (linkOf s 0).disc ≠ .admitting ∧ (linkOf s 0).disc ≠ .admitted ∧ (linkOf s 0).admitReq = true ∧ accCard.admitReq = true ∧ s.ident.skeleton = false ∧
      (s.links.filter fun x => x.2.disc = .admitting).length < 16) := by
  refine ⟨?_, ?_, ?_⟩
  all_goals (rintro s rfl; decide +kernel)

theorem wit_LinkAdmission_hello : helloOk [] (zeros 32) (zeros 32) = true ∧ helloOk [] [1] (zeros 32) = false ∧
    (∀ s, s = linkAt { upLink with disc := .surveyed, card := some accCard } 0 → (linkOf s 0).disc = .surveyed ∧ (linkOf s 0).card = some accCard ∧
      accCard.admitReq = true ∧ (linkOf s 0).admitReq = true ∧ (s.links.filter fun x => x.2.disc = .admitting).length < 16 ∧ s.ident.skeleton = false) ∧
    (∀ s, s = linkAt (admitting 3) 0 → peerRevoked s (linkOf s 0) = false ∧ (linkOf s 0).adm.finishTag ≠ some 1) := by
  refine ⟨?_, ?_, ?_, ?_⟩
  all_goals first | decide +kernel | (rintro s rfl; decide +kernel)


/-! ### Letters and the switching core (05 to 07) -/

/-- A class 0 letter of 197 bytes, two flits, from slot 0 to slot 1 of rack 0 in Plot 1. -/
def head01 : Header := { blankHeader with dest := 32, src := 0, plot := 1, length := 197 }
def flit01 (i : Nat) : List Byte := fit 236 ((letterBytes head01 (zeros 197)).drop (236 * i))

/-- The module has learned its place, slots 0 and 1 are admitted, Plot 1 lets everything through. -/
def switching : State :=
  withLink 1 inLink (withLink 0 inLink { ready with
    ident := { ready.ident with learned := true }, bank := { ready.bank with plot := [(1, ⟨true, BitVec.allOnes 128, BitVec.allOnes 128⟩)] } })

theorem wit_HeadsReceived_bad : admitted switching 0 = true ∧ openLetter switching 0 7 = none ∧ entryCheck switching 0 7 (fit 236 (zeros 236)) = some 16 := by decide +kernel

theorem wit_HeadsReceived_in : ∀ h, h = headerOf ((fit 236 (flit01 0)).take 32) → admitted switching 0 = true ∧ openLetter switching 0 0 = none ∧
    entryCheck switching 0 0 (fit 236 (flit01 0)) = none ∧ switching.pow.ladder = 0 ∧ plotAtEntry switching h 0 = true ∧ h.cls = 0 ∧ h.mc = false ∧
    destIsSelf switching h.dest = false ∧ rackOf h.dest = rackOf (srcRef switching) ∧ slotOf h.dest < 112 ∧ deliverable switching h (slotOf h.dest) = true ∧
    admitted switching (slotOf h.dest) = true ∧ queued switching (slotOf h.dest) 0 < switching.bank.regs.slowHi ∧ switching.bank.copy = [] ∧
    flitCount h.length ≠ 1 := by
  rintro h rfl; decide +kernel

/-- HEAD of that letter is in the buffer as letter 0; it is for the slow-post receiver, so it has no send. -/
def letter01 : Letter :=
  { ingress := 0, vc := 0, hdr := head01, head := (flit01 0).take 32, cells := [{ type := 1, vc := 0, shared := false, payload := flit01 0 }], complete := false,
    spoilt := none, foreign := false, sends := [], target := some .slowPost, round := 0 }

def holdingLetter (l : Letter) : State := { ready with sw := { ready.sw with letters := [(0, l)], openAt := [(0, 1)], nextLetter := 1 } }

set_option maxRecDepth 100000 in
theorem wit_LetterFlits : ∀ s, s = holdingLetter letter01 → openLetter s 0 0 = some 0 ∧ tfind s.sw.letters 0 = some letter01 ∧ letter01.complete = false ∧
    letter01.spoilt = none ∧ (∀ l', l' = { letter01 with cells := letter01.cells ++ [{ type := 3, vc := 0, shared := false, payload := flit01 1 }] } →
      l'.cells.length = flitCount letter01.hdr.length ∧ letterGood l' = true) ∧ letter01.sends = [] ∧ letter01.target ≠ none := by
  rintro s rfl
  refine ⟨?_, ?_, ?_, ?_, ?_, ?_, ?_⟩
  case refine_5 => rintro l' rfl; decide +kernel
  all_goals decide +kernel

theorem wit_LetterFlits_short : ({ letter01 with hdr := { head01 with length := 198 } } : Letter).cells.length + 1 ≠ flitCount 433 ∧ openLetter ready 0 0 = none := by decide +kernel

/-- The same letter with its bytes left out, for what does not read them. -/
def letterP : Letter := { letter01 with head := [], cells := [] }

def dispAt (d : DispCh) : State := { readyAt 1 with sw := { ready.sw with disp := [(2, d)] } }

theorem wit_DispatcherSlots : 199 < 200 ∧ channelsIn ready = [0, 1, 2] ∧
    ((dispOf (dispAt { retireDue := true }) 2).mode = 0 ∧ (dispOf (dispAt { retireDue := true }) 2).retireDue = true) ∧
    ((dispOf (dispAt { mode := 1, retires := [0] }) 2).mode = 1 ∧ (dispOf (dispAt { mode := 1, retires := [0] }) 2).retires.getLast? = some 0 ∧
      0 < roundNo (dispAt { mode := 1, retires := [0] })) := by decide +kernel

def fellBack : State := withLink 128 inLink { ready with mer := { ready.mer with timed := true }, sw := { ready.sw with fallen := [(128, 5)] } }
def copySend : Send := { port := 240, vc := 0, sent := 0, taken := 0, done := false, sess := some 3, route := none, since := 0 }
def copyWaits : State := { readyAt 4 with sw := { ready.sw with letters := [(0, { letterP with sends := [copySend] })] } }
def stale7 : OwnLetter := { vc := 7, flits := [], sent := 0, group := 0, sinceRound := 0 }
def staleAt : State := { readyAt 64 with sw := { ready.sw with egress := [(9, { own := [stale7] })] } }
def noticeAt : State := { readyAt 4 with route := { ready.route with notices := [(2, { port := 0, round := 0, letter := stale7 })] } }

theorem wit_SwitchWaits :
    ((128, 5) ∈ fellBack.sw.fallen ∧ routeCause fellBack 128 = false ∧ routeQueued fellBack 128 5 = false) ∧
    (∀ l, l = { letterP with sends := [copySend] } → tfind copyWaits.sw.letters 0 = some l ∧
      l.sends.find? (fun x => x.sess = some 3 && !x.done && decide (x.sent = 0)) = some copySend ∧ copyCredit copyWaits copySend.port = false ∧
      creditSince copyWaits copySend.port + 4 ≤ roundNo copyWaits) ∧
    (tfind staleAt.sw.letters 0 = none ∧
      (egressOf staleAt 9).own.find? (fun l => l.vc = 7 && l.sent = 0 && decide (roundNo staleAt ≥ l.sinceRound + 64)) = some stale7) ∧
    (tfind noticeAt.route.notices 2 = some { port := 0, round := 0, letter := stale7 } ∧ 0 + 4 ≤ roundNo noticeAt) := by
  refine ⟨?_, ?_, ?_, ?_⟩
  case refine_2 => rintro l rfl; decide +kernel
  all_goals decide +kernel

/-- A complete letter of SSEQ `q` for the slow-post receiver. -/
def arrived (q : Nat) : Letter := { letterP with hdr := { head01 with sseq := q }, complete := true }
def stream (next : Option Nat) (held : List RHeld) (gap : Option Nat) : Stream :=
  { src := 0, pathKey := 0, keyKind := 0, rack := 0, group := none, next := next, held := held, lost := [], gapStart := gap, born := 0, lastRound := 0, aside := [] }
def heldAt (q : Nat) : RHeld := { sseq := q, letter := arrived q, round := 0, spilled := false }
def reordering (h key : Nat) (x : Stream) (l : Letter) (n : Nat) : State :=
  modReorder { readyAt n with sw := { ready.sw with letters := [(0, l)] } } h fun r => { r with streams := [(key, x)] }

theorem wit_ReorderStreams :
    (∀ s l, l = arrived 65535 → s = reordering 1 (reorderKey l.hdr) (stream (some 65535) [] none) l 0 → tfind s.sw.letters 0 = some l ∧ l.target = some .slowPost ∧
      l.complete = true ∧ l.spoilt = none ∧ l.taken = false ∧ l.sends.all sendOver = true ∧ streamOf s 1 (reorderKey l.hdr) = some (stream (some 65535) [] none) ∧
      (l.hdr.sseq + 65536 - 65535) % 65536 = 0) ∧
    (∀ s l, l = arrived 4095 → s = reordering 1 (reorderKey l.hdr) (stream (some 0) [] none) l 0 → tfind s.sw.letters 0 = some l ∧ l.target = some .slowPost ∧
      l.complete = true ∧ l.spoilt = none ∧ l.taken = false ∧ l.sends.all sendOver = true ∧ streamOf s 1 (reorderKey l.hdr) = some (stream (some 0) [] none) ∧ 1 ≤ (l.hdr.sseq + 65536 - 0) % 65536 ∧
      (l.hdr.sseq + 65536 - 0) % 65536 < 4096 ∧ holdPlace s 1 l.cells.length = some false) ∧
    (∀ s, s = reordering 1 7 (stream none [heldAt 3] none) (arrived 3) 1 → streamOf s 1 7 = some (stream none [heldAt 3] none) ∧ 0 + 1 ≤ roundNo s ∧
      (heldAt 3).letter.target = some .slowPost) ∧
    (∀ s, s = reordering 1 7 (stream (some 65535) [heldAt 1] (some 0)) (arrived 3) 64 → (1 + 65536 - 65535) % 65536 < 4096 ∧ streamOf s 1 7 = some (stream (some 65535) [heldAt 1] (some 0)) ∧
      0 + s.bank.regs.gapTimeout ≤ roundNo s ∧ (heldAt 1).sseq < 65536 ∧ (heldAt 1).letter.target = some .slowPost) := by
  refine ⟨?_, ?_, ?_, ?_⟩
  case refine_1 => rintro s l rfl rfl; decide +kernel
  case refine_2 => rintro s l rfl rfl; decide +kernel
  all_goals (rintro s rfl; decide +kernel)


/-! ### Clerks (08) -/

/-- LOOP, NOP, ENDL, DONE; one phase of 16 bundles that starts at its first instruction. -/
def prog0 : Program := ⟨5, 32, 1, 1, [⟨0, 16, 0, 256, 64, 0, 256, 256, 0, 0, 0, 0⟩], [0x16, 0, 0x17, 0x1A], true⟩

/-- Clerk 0's program is the one instruction `w`, of which only the operation is given: its fields are those of op0. -/
def clerkAt (w : Word64) (c : Clerk) : State :=
  withClerk 0 c { ready with bank := { ready.bank with prog := [(32, some { prog0 with code := [w] })] } }
/-- V1 holds FP32 (1) or INT32 (2) as said, V2 likewise. -/
def kinds (a b : Nat) : Clerk := { clerk0 with kind := [(1, List.replicate 64 a), (2, List.replicate 64 b)] }
def opV : ClerkOp := { op0 with vd := 3, va := 1, vb := 2 }
/-- The same fields in an instruction word (R209): VD 3, VA 1, VB 2. -/
def wordV : Word64 := 3 * 2 ^ 8 + 1 * 2 ^ 13 + 2 * 2 ^ 18

theorem wit_LaneArithmetic : issues (clerkAt (wordV + 5) (kinds 1 1)) 0 5 opV = true ∧ issues (clerkAt (wordV + 6) (kinds 2 2)) 0 6 opV = true ∧
    issues (clerkAt (wordV + 7) (kinds 1 2)) 0 7 opV = true ∧ issues (clerkAt (wordV + 8) (kinds 1 2)) 0 8 opV = true ∧
    issues (clerkAt (wordV + 9) (kinds 1 2)) 0 9 opV = true ∧ issues (clerkAt (wordV + 10) (kinds 1 2)) 0 10 opV = true ∧
    issues (clerkAt (wordV + 11) (kinds 1 2)) 0 11 opV = true ∧
    kindsAt (kinds 1 1) [1, 2] 63 = 1 ∧ kindsAt (kinds 2 2) [1, 2] 63 = 2 ∧ kindsAt (kinds 1 2) [1, 2] 0 = 3 ∧ kindsAt (kinds 1 2) [1] 0 = 1 ∧ kindsAt (kinds 2 1) [1] 0 = 2 ∧
    issues (clerkAt (wordV + 6) (kinds 1 1)) 0 5 opV = false ∧ (clerkOf (clerkAt (wordV + 5) (kinds 1 1)) 0).bundle = some bundle0 ∧ bundle0.retry = false := by
  decide +kernel

theorem wit_LaneSelection : (issues (clerkAt 12 (kinds 1 1)) 0 12 op0 = true ∧ ∀ n, n < 64 → laneKind (kinds 1 1) 1 n ≠ 2) ∧ (∃ n, n < 64 ∧ laneKind (kinds 2 1) 1 n = 2) ∧ prefixKind (kinds 1 1) op0 63 ≠ 3 ∧
    (kindsAt (kinds 1 2) [1, 2] 0 = 3 ∧ kindsAt (kinds 1 1) [1, 2] 0 = 1) ∧ op0.masked = false ∧ (vreg (kinds 1 1) 1).length = 64 ∧
    (op0.va % 2 = 0 ∧ op0.vb % 2 = 0 ∧ op0.vd % 2 = 0 ∧ ∀ w ∈ vreg (kinds 1 1) 0 ++ vreg (kinds 1 1) 0, numIsNan (num32 w) = false) ∧ 2 % 4 ≠ 3 ∧
    (issues (clerkAt 13 clerk0) 0 13 op0 = true ∧ issues (clerkAt 14 clerk0) 0 14 op0 = true ∧ issues (clerkAt 15 clerk0) 0 15 op0 = true ∧
      issues (clerkAt 16 clerk0) 0 16 op0 = true ∧ issues (clerkAt 19 clerk0) 0 19 op0 = true) := by
  refine ⟨by decide +kernel, by decide +kernel, by decide +kernel, by decide +kernel, rfl, by decide +kernel, ⟨rfl, rfl, rfl, ?_⟩, by decide, by decide +kernel⟩
  intro w h
  have e : vreg (kinds 1 1) 0 = List.replicate 64 0 := rfl
  rw [e, List.replicate_append_replicate] at h
  rw [List.eq_of_mem_replicate h]
  decide +kernel

/-- 1.0 + 1.0 = 2.0, and the INT32 sum wraps. -/
theorem test_vadd :
    ends (exec (.vadd 0 opV 0) (clerkAt (wordV + 5) { kinds 1 1 with v := [(1, List.replicate 64 0x3F800000), (2, List.replicate 64 0x3F800000)] }))
      (fun t => lane (clerkOf t 0) 3 63 = 0x40000000) = true ∧
    ends (exec (.vadd 0 opV 0) (clerkAt (wordV + 5) { kinds 2 2 with v := [(1, List.replicate 64 0xFFFFFFFF), (2, List.replicate 64 2)] }))
      (fun t => lane (clerkOf t 0) 3 0 = 1) = true := by decide +kernel

/-- A word that failed parity once is read again and counted; twice, the bundle goes back with RETRY (R214). -/
theorem test_parity :
    ends (exec (.vadd 0 opV 1) (clerkAt (wordV + 5) (kinds 1 1))) (fun t => (clerkOf t 0).pc = 1 && cntOf t (idOffice 2 0) = 1) = true ∧
    ends (exec (.vadd 0 opV 2) (clerkAt (wordV + 5) (kinds 1 1))) (fun t => (clerkOf t 0).queue = [{ bundle0 with retry := true }]) = true := by decide +kernel

/-- The format of a byte array (INT8, 5) read where it stands in the IN window. -/
theorem wit_SramReads :
    (∀ s, s = clerkAt 1 clerk0 → issues s 0 1 op0 = true ∧ (clerkOf s 0).bundle = some bundle0 ∧ formOk op0 false = true ∧
      (∀ a ∈ groupBytes (clerkOf s 0) op0, mayRead bundle0 a = true) ∧ (∀ a ∈ indexedBytes (clerkOf s 0) op0, mayRead bundle0 a = true) ∧
      bundle0.retry = false) ∧
    (issues (clerkAt 3 clerk0) 0 3 op0 = true ∧ issues (clerkAt (4 + 2 ^ 23) clerk0) 0 4 { op0 with vc := 1 } = true ∧ ({ op0 with vc := 1 } : ClerkOp).vd ≠ 1 ∧
      issues (clerkAt 17 clerk0) 0 17 op0 = true ∧ issues (clerkAt 17 clerk0) 0 1 op0 = false) ∧
    (∀ s, s = clerkAt 1 { clerk0 with a := [(0, 2048)] } → 2048 ∈ groupBytes (clerkOf s 0) op0 ∧ mayRead bundle0 2048 = false ∧ issues s 0 1 op0 = true) ∧
    (∀ s, s = clerkAt 17 { clerk0 with a := [(0, 2048)] } → 2048 ∈ indexedBytes (clerkOf s 0) op0 ∧ issues s 0 17 op0 = true) := by
  refine ⟨?_, by decide +kernel, ?_, ?_⟩
  all_goals (rintro s rfl; decide +kernel)

theorem wit_SramWrites :
    (∀ s l, s = clerkAt 2 { clerk0 with a := [(0, 1024)] } → l = ((List.range 64).filter (active (clerkOf s 0) op0)).flatMap
        (fun n => elemBytes op0.fmt (areg (clerkOf s 0) op0.an) (groupIndexOf op0 n)) → issues s 0 2 op0 = true ∧ (clerkOf s 0).bundle = some bundle0 ∧
      formOk op0 true = true ∧ (∀ a ∈ l, mayWrite bundle0 a = true) ∧ (∀ a ∈ indexedBytes (clerkOf s 0) op0, mayWrite bundle0 a = true) ∧
      laneKind (clerkOf s 0) 0 0 ≠ 2 ∧ numIsNan (num32 (lane (clerkOf s 0) 0 0)) = false) ∧
    (∀ s l, s = clerkAt 2 clerk0 → l = ((List.range 64).filter (active (clerkOf s 0) op0)).flatMap
        (fun n => elemBytes op0.fmt (areg (clerkOf s 0) op0.an) (groupIndexOf op0 n)) → issues s 0 2 op0 = true ∧ 0 ∈ l ∧ mayWrite bundle0 0 = false) ∧
    (∀ s, s = clerkAt 18 { clerk0 with a := [(0, 1024)] } → issues s 0 18 op0 = true ∧ (∀ a ∈ indexedBytes (clerkOf s 0) op0, mayWrite bundle0 a = true)) ∧
    (∀ s, s = clerkAt 18 clerk0 → issues s 0 18 op0 = true ∧ 0 ∈ indexedBytes (clerkOf s 0) op0 ∧ issues s 0 2 op0 = false) := by
  refine ⟨?_, ?_, ?_, ?_⟩
  case refine_3 => rintro s rfl; decide +kernel
  case refine_4 => rintro s rfl; decide +kernel
  all_goals (rintro s l rfl rfl; decide +kernel)

/-! ### Programs, bundles, presses and groups (08, 09) -/

def rec0 : GroupRec :=
  ⟨1, 0xFF, 0, false, false, 0, 0, 0, 0, 1, 0, 1, 0, 0, 0, 0, 0, 0, 0, 0, 1024, 0, 0, 5, 0, 0, 0, 0, 1, []⟩
def group0 : Group := { state := .running, record := some rec0, launched := true, inRackDone := true, level := 1 }
/-- Office 0 runs a group whose program is loaded. -/
def grouped (g : Group) (n : Nat) : State :=
  setGroup (modOffice { readyAt n with bank := { ready.bank with prog := [(32, some prog0)] } } 0 fun o => { o with state := .ready }) 0 g

theorem wit_ClerkControl :
    (∀ s, s = clerkAt 0x16 { clerk0 with s := [(0, 1)] } → issues s 0 22 op0 = true ∧ 0 < (sreg (clerkOf s 0) 0).toInt) ∧
    (∀ s x, s = withClerk 0 clerk0 (grouped group0 0) → x = clerkOf s 0 → issues s 0 22 op0 = true ∧ (sreg x 0).toInt = 0 ∧
      x.bundle = some bundle0 ∧ afterEndl ((codeAt s bundle0.prog).drop (x.pc + 1)) (x.pc + 1) 0 = some 3) ∧
    (∀ s x, s = withClerk 0 { clerk0 with pc := 3 } (grouped group0 0) → x = clerkOf s 0 → issues s 0 26 op0 = true ∧ x.outstanding = 0 ∧ x.bundle = some bundle0 ∧
      entryOf s bundle0.group = some 0 ∧ groupOf s 0 = group0 ∧ group0.record = some rec0 ∧ group0.step = bundle0.step ∧ group0.launched = true ∧
      group0.endDue = false ∧ group0.phase = bundle0.phase ∧ (∃ p ph, phaseOf s group0 rec0 = some (p, ph) ∧ group0.bundlesDone + 1 < ph.bundles)) ∧
    (sreg ({ clerk0 with s := [(0, 0xFFFFFFFF)] } : Clerk) 0).toInt < 0 ∧
    (∀ s, s = clerkAt 0x17 { clerk0 with loops := [(1, 2), (1, 1)] } → issues s 0 23 op0 = true ∧ (clerkOf s 0).loops = (1, 2) :: [(1, 1)] ∧ 1 < 2 ∧ 1 ≤ 1) ∧
    (issues (clerkAt 0 clerk0) 0 0 op0 = true ∧ issues (clerkAt 20 clerk0) 0 20 op0 = true ∧ issues (clerkAt 21 clerk0) 0 21 op0 = true ∧
      issues (clerkAt 25 clerk0) 0 25 op0 = true ∧ (clerkOf (clerkAt 25 clerk0) 0).outstanding = 0) ∧
    (∀ s, s = clerkAt 25 { clerk0 with outstanding := 1 } → issues s 0 25 op0 = true ∧ 0 < (clerkOf s 0).outstanding) ∧
    (∀ s, s = clerkAt 26 clerk0 → issues s 0 26 op0 = true ∧ (clerkOf s 0).outstanding = 0 ∧ entryOf s bundle0.group = none) ∧
    (∀ s, s = clerkAt 0 { clerk0 with issued := 65537 } → (clerkOf s 0).bundle = some bundle0 ∧
      (tget {} s.bank.off (clerkOf s 0).home).bundleLimit * 4096 < bundleCycles s 0 ∧ clerkRuns s 0 = true) ∧
    (∀ s, s = clerkAt 0 clerk0 → bundleCycles s 0 ≤ (tget {} s.bank.off (clerkOf s 0).home).bundleLimit * 4096) := by
  refine ⟨?_, ?_, ?_, ?_, ?_, ?_, ?_, ?_, ?_, ?_⟩
  case refine_2 => rintro s x rfl rfl; decide +kernel
  case refine_3 =>
    rintro s x rfl rfl
    refine ⟨?_, ?_, ?_, ?_, ?_, ?_, ?_, ?_, ?_, ?_, prog0, ⟨0, 16, 0, 256, 64, 0, 256, 256, 0, 0, 0, 0⟩, ?_⟩ <;> decide +kernel
  all_goals first | decide +kernel | (rintro s rfl; decide +kernel)

def idleOffice : State := modOffice ready 0 fun o => { o with state := .ready }
def queueOf (n : Nat) : Clerk := { queue := List.replicate n { bundle0 with noRemote := false } }
/-- Office 1's clerk 32 has 4 bundles waiting; office 0 has been empty for 64 cycles (40.96 ns). -/
def starved : State :=
  withClerk 32 (queueOf 4) (modOffice { ready with mer := { ready.mer with ns := 41 } } 0 fun o => { o with state := .ready, emptySince := some 0 })

theorem wit_BundlesPlaced :
    (∀ s, s = grouped group0 0 → officeTakes s 0 = true ∧ s.tray.pull = 0 ∧ turnOf s 0 = some (0, 3) ∧ queueWithRoom s 0 = some 0 ∧ groupOf s 0 = group0 ∧
      group0.record = some rec0 ∧ phaseOf s group0 rec0 = some (prog0, ⟨0, 16, 0, 256, 64, 0, 256, 256, 0, 0, 0, 0⟩)) ∧
    (officeTakes ready 0 = false ∧ clerkIdle ready 0 = false) ∧ bundle0.home = 0 ∧
    (∀ s, s = withClerk 0 (queueOf 1) idleOffice → clerkIdle s 0 = true ∧ (clerkOf s 0).queue = bundle0 :: [] ∧ bundle0.retry = false) ∧
    (∀ s, s = withClerk 1 (queueOf 1) idleOffice → ownerWins s 1 = true ∧ clerkIdle s 0 = true ∧ (clerkOf s 0).queue = []) ∧
    (∀ s, s = withClerk 1 (queueOf 2) idleOffice → ownerWins s 1 = false) ∧
    (clerkIdle idleOffice 0 = true ∧ (clerkOf idleOffice 0).queue = [] ∧ longestQueue idleOffice (0 / 32) (0 % 32) = none ∧ officeStarved idleOffice (0 / 32) = false) ∧
    (∀ s, s = withClerk 1 (queueOf 1) idleOffice → clerkIdle s 0 = true ∧ (clerkOf s 0).queue = [] ∧ (tget {} s.bank.off (0 / 32)).stealScope ≠ 0 ∧
      longestQueue s (0 / 32) (0 % 32) = some 1 ∧ (clerkOf s 1).queue.getLast? = some bundle0) ∧
    ({ bundle0 with home := 1 } : Bundle).home = 1 ∧
    (∀ s, s = starved → clerkIdle s 0 = true ∧ (clerkOf s 0).queue = [] ∧ (tget {} s.bank.off (0 / 32)).stealScope = 2 ∧ longestQueue s (0 / 32) (0 % 32) = none ∧
      officeStarved s (0 / 32) = true ∧ remoteVictims s (0 / 32) ≠ []) := by
  refine ⟨?_, ?_, ?_, ?_, ?_, ?_, ?_, ?_, ?_, ?_⟩
  all_goals first | decide +kernel | (rintro s rfl; decide +kernel)

/-- A QUANT job of one row of 32 elements from the IN window to the OUT window, FP32 to MXFP8. -/
def descriptor (out : Nat) : List Byte :=
  leBytes 1 4 ++ leBytes 1 (16 * 5) ++ [0, 0] ++ leBytes 2 1 ++ leBytes 2 32 ++ zeros 4 ++ leBytes 4 0 ++ leBytes 4 0 ++ leBytes 4 out ++ zeros 40
def jobAt (mode : Nat) : Job := { jobOf (descriptor 1024) 0 bundle0 with mode := mode, fmtOut := if mode = 4 then 5 else 0 }
def pressAt (o : Office) : State := modOffice ready 0 fun _ => o
/-- Clerk 0's program is PRESS, and the descriptor stands at its address register, in the IN window. -/
def pressing (out : Nat) : State :=
  modOffice (clerkAt 24 clerk0) 0 fun o => { o with sram := mwrite [] 0 (descriptor out) }

theorem wit_PressJobs :
    (∀ s, s = pressAt { jobs := [jobAt 3] } → s.pow.ladder = 0 ∧ (officeOf s 0).running = none ∧ (officeOf s 0).jobs = jobAt 3 :: [] ∧ (jobAt 3).mode = 3) ∧
    ((officeOf ready 0).running = none ∧ (officeOf ready 0).jobs = [] ∧ ready.pow.ladder = 0 ∧ ready.pow.fillW = 0 ∧ (jobAt 3).mode ≠ 4) ∧
    (∀ s, s = { ready with pow := { ready.pow with fillW := 1 } } → (officeOf s 0).running = none ∧ s.pow.ladder = 0 ∧ s.pow.fillW ≠ 0) ∧
    issues ready 0 24 op0 = false ∧
    (∀ s l j, s = pressing 1024 → l = mread (clerkSram s 0) (areg (clerkOf s 0) 0) 64 → j = jobOf l 0 bundle0 → issues s 0 24 op0 = true ∧
      (clerkOf s 0).bundle = some bundle0 ∧ (clerkOf s 0).outstanding < 4 ∧ (officeOf s (clerkOf s 0).home).jobs.length < 32 ∧
      (∀ n, n < 64 → mayRead bundle0 (areg (clerkOf s 0) 0 + n) = true) ∧ jobFieldsOk l j = true ∧ jobAddrOk j = true) ∧
    (∀ s l j, s = pressing 2048 → l = mread (clerkSram s 0) (areg (clerkOf s 0) 0) 64 → j = jobOf l 0 bundle0 → issues s 0 24 op0 = true ∧
      (∀ n, n < 64 → mayRead bundle0 (areg (clerkOf s 0) 0 + n) = true) ∧ (jobFieldsOk l j && jobAddrOk j) = false) ∧
    (issues (clerkAt 24 { clerk0 with outstanding := 4 }) 0 24 op0 = true ∧ 4 ≤ (clerkOf (clerkAt 24 { clerk0 with outstanding := 4 }) 0).outstanding) ∧
    (∀ s, s = withClerk 0 clerk0 (pressAt { running := some (jobAt 3) }) → (officeOf s 0).running = some (jobAt 3) ∧ (jobAt 3).mode ≠ 5 ∧
      (clerkOf s (jobAt 3).clerk).bundle = some (jobAt 3).bundle ∧ (jobAt 3).bundle.retry = false) ∧
    ((officeOf (pressAt { running := some (jobAt 4) }) 0).running = some (jobAt 4) ∧ (jobAt 4).mode = 4 ∧ isMx (jobAt 4).fmtOut = true) ∧
    ((officeOf (pressAt { running := some (jobAt 5) }) 0).running = some (jobAt 5) ∧ (jobAt 5).mode ≠ 4 ∧ isMx (jobAt 5).fmtOut = false ∧ (jobAt 5).mode ≤ 5) := by
  refine ⟨?_, ?_, ?_, ?_, ?_, ?_, ?_, ?_, ?_, ?_⟩
  case refine_5 => rintro s l j rfl rfl rfl; decide +kernel
  case refine_6 => rintro s l j rfl rfl rfl; decide +kernel
  all_goals first | decide +kernel | (rintro s rfl; decide +kernel)

/-- The wait for a forward pass of axis X has lasted STEP_TIMEOUT Rounds. -/
def passGroup : Group :=
  { group0 with record := some { rec0 with nxM1 := 1 }, level := 2, passes := [(passKey 0 false, { timer := some 0 })] }

def timedGroup (partial_ : Bool) : Group :=
  { group0 with record := some { rec0 with partialPolicy := partial_, nxM1 := 1 }, inRackDone := false, timer := some 0 }

theorem wit_GroupSteps :
    (mayLaunch (grouped { group0 with launched := false } 0) (groupOf (grouped { group0 with launched := false } 0) 0) = true) ∧
    (mayLaunch (grouped group0 0) (groupOf (grouped group0 0) 0) = false ∧ expired (grouped group0 0) 0 = none ∧ (groupOf (grouped group0 0) 0).endDue = false ∧
      entryOf ready 1 = none ∧ (groupOf (grouped group0 0) 0).state ≠ .closing ∧ entryOf (grouped group0 0) 1 = some 0) ∧
    (∀ s, s = grouped (timedGroup false) 256 → (groupOf s 0).record = some { rec0 with partialPolicy := false, nxM1 := 1 } ∧ expired s 0 = some none) ∧
    (∀ s, s = grouped (timedGroup true) 256 → expired s 0 = some none ∧ opCode { rec0 with partialPolicy := true, nxM1 := 1 } ≠ 4) ∧
    (∀ s, s = grouped passGroup 256 → (groupOf s 0).record = some { rec0 with nxM1 := 1 } ∧ expired s 0 = some (some (0, false)) ∧ ({ rec0 with nxM1 := 1 } : GroupRec).partialPolicy = false) ∧
    (∀ s, s = grouped { group0 with endDue := true } 0 → (groupOf s 0).launched = true ∧ (groupOf s 0).endDue = true ∧ groupSends s 0 = false) ∧
    (∀ s, s = (let t := grouped { group0 with state := .closing } 0; { t with staging := { t.staging with closes := [(1, true)] } }) → entryOf s 1 = some 0 ∧
      (groupOf s 0).state = .closing ∧ (1, true) ∈ s.staging.closes ∧ groupDrained s 0 = true ∧ s.mer.cycle = 0) ∧
    (∀ s, s = grouped { group0 with endDue := true, withheld := true } 0 → (groupOf s 0).launched = true ∧ (groupOf s 0).endDue = true ∧ (groupOf s 0).withheld = true) := by
  refine ⟨?_, ?_, ?_, ?_, ?_, ?_, ?_, ?_⟩
  all_goals first | decide +kernel | (rintro s rfl; decide +kernel)

/-! ### Host port and memory (10) -/

def cxlAs (f : Cxl → Cxl) : State := { ready with cxl := f ready.cxl }
/-- The link of the CXL port is up in mode 1. -/
def cxlOn : State := cxlAs fun x => { x with mode := 1, training := false }
def uio0 : Uio := ⟨0, none, false, 0⟩
/-- Request 5 to window 0 is outstanding; the window has failed 15 times in a row. -/
def uioAt (ns : Nat) : State :=
  { ready with mer := { ready.mer with ns := ns }, cxl := { ready.cxl with mode := 1, uio := [(5, uio0)], windows := [(0, { fails := 15 })] } }

theorem wit_CxlPort :
    (cxlAs fun x => { x with perst := true }).cxl.perst = true ∧
    (ready.cxl.perst = false ∧ ready.cxl.training = true ∧ 1 ≤ 4 ∧ 4 ≤ 4 ∧ 1 < 4 ∧ ready.tray.start ≠ .keep ∧ ready.tray.start ≠ .charging) ∧
    ((cxlAs fun x => { x with unitHeld := true }).cxl.unitHeld = true ∧ ready.cxl.unitHeld = false ∧ (5 = 0 ∨ 4 < 5)) ∧
    (cxlOn.cxl.mode ≠ 0 ∧ cxlUp cxlOn = true ∧ (zeros 4).length = 4 ∧ (zeros 8).length = 8 ∧ (boxOf cxlOn 3).hbState ≠ 1 ∧ (boxOf cxlOn 3).hbState ≠ 2 ∧
      4088 % 8 = 0 ∧ 4088 < 4096) ∧
    ((zeros 2).length ≠ 4 ∧ (zeros 2).length ≠ 8 ∧ 12 % (zeros 8).length ≠ 0) ∧
    (tfind (uioAt 1000000).cxl.uio 5 = some uio0 ∧ uio0.startNs + 1000000 ≤ (uioAt 1000000).mer.ns ∧ 15 ≤ (windowOf (uioAt 1000000) uio0.window).fails) := by
  decide +kernel

def captureAs (n : Nat) (f : Capture → Capture) : State := { readyAt n with capture := f ready.capture }
def adcAs (f : Capture → Capture) : State := captureAs 4 fun x => f { x with adcBusy := true, adcLeft := 1 }
def noRing (s : State) : State := { s with bank := { s.bank with regs := { s.bank.regs with captureGib := 0 } } }
def rec256 : CapRec := ⟨1, 256, 256, false, 1⟩

theorem wit_CaptureRing :
    (captureAs 1 fun x => { x with partialSince := some 0 }).capture.partialSince = some 0 ∧
    (∀ s, s = (captureAs 1 fun x => { x with records := [⟨1, 0, 256, false, 0⟩, rec256, ⟨1, 512, 256, false, 2⟩], queueAt := 512 }) →
      (s.capture.records.takeWhile (recordDone s)).getLast? = some rec256 ∧ ringTier s = none) ∧
    (Runs op 0x801 ready ∧ ready.pow.ladder < 2 ∧ ready.capture.adcBusy = false ∧ (laneOf ready 0).claim = .none) ∧
    (Runs op 0x801 (adcAs id) ∧ (adcAs id).capture.adcBusy = true) ∧
    ((adcAs id).capture.adcWait = none ∧ 65600 ≤ captureFree (adcAs id)) ∧
    ((noRing (adcAs id)).capture.adcBusy = true ∧ (noRing (adcAs id)).capture.adcWait = none ∧ captureFree (noRing (adcAs id)) < 65600) ∧
    ((adcAs fun x => { x with adcWait := some (0, []) }).capture.adcWait = some (0, []) ∧ 0 + 4 ≤ roundNo (adcAs id)) := by
  unfold Runs
  refine ⟨?_, ?_, ?_, ?_, ?_, ?_, ?_⟩
  case refine_2 => rintro s rfl; decide +kernel
  all_goals decide +kernel

/-- A command box of the fabric manager. -/
def opFm : Ctx := { op with box := .fm 0 }

def memAs (m : MemHalf) (s : State) : State := modMem s 0 fun _ => m
/-- The first half is active, as after boot. -/
def memOn : State := memAs { state := 1 } ready

/-- A letter that spilled, held by a stream. -/
def spilled0 : RHeld :=
  { sseq := 3, round := 0, spilled := true,
    letter := { ingress := 0, vc := 0, hdr := head01, head := [], cells := [], complete := true, spoilt := none, foreign := false, sends := [],
                target := some .slowPost, round := 0 } }
def stream0 : Stream :=
  { src := 0, pathKey := 0, keyKind := 0, rack := 0, group := none, next := some 0, held := [spilled0], lost := [], gapStart := some 0, born := 0,
    lastRound := 0, aside := [] }

/-- The first half holds one held letter that spilled, and a request of diagnostics waits there beside one of capture. -/
def spillHeld : State := modReorder (memAs { state := 1, waiting := [⟨2, 0, 256⟩, ⟨3, 0, 256⟩] } ready) 0 fun r =>
  { r with streams := [(7, stream0)] }

theorem wit_MemoryHalves_waits :
    (∃ r ∈ (serveBytes (fun _ => 1) 1 0 (memOf spillHeld 0)).waiting, r.cls < 3) ∧
    (ringTier spillHeld = none ∧ ∃ r ∈ (memOf spillHeld spillHeld.bank.regs.captureHalf).waiting, r.cls < 3) ∧
    ((spilledAt spillHeld 0)[0]? = some (7, spilled0) ∧ streamOf spillHeld 0 7 = some stream0) ∧
    (captureAs 0 fun x => { x with records := [rec256] }).capture.records.find? (fun r => r.kind ≠ 0 && r.seq = 1) = some rec256 ∧
    (∃ m ∈ (memOf (memAs { state := 1, claims := [⟨true, 0, 0⟩] } ready) 0).claims, m.whole = true) ∧ 2 ≤ 2 := by decide +kernel

theorem wit_MemoryHalves :
    (entryOf (grouped group0 0) 1 = some 0 ∧ (groupOf (grouped group0 0) 0).record = some rec0 ∧ (groupOf (grouped group0 0) 0).launched = true ∧
      (groupOf (grouped group0 0) 0).endDue = false) ∧
    (Runs op 0x805 memOn ∧ (memOf memOn 0).state = 1 ∧ (memOf memOn 0).claims = [] ∧ memOn.pm.standing = false ∧ memOn.pow.ladder ≠ 1) ∧
    (∀ s, s = memAs { state := 1, claims := [⟨false, scratchBase ready 0, 4096⟩] } ready → Runs op 0x805 s ∧ (memOf s 0).state = 1 ∧
      1 ≤ gib - 4096 ∧ scratchBase s 0 + 4096 + (gib - 4096) ≤ scratchBase s 0 + gib ∧
      ∀ m ∈ (memOf s 0).claims, m.whole = false ∧ (scratchBase s 0 + 4096 + (gib - 4096) ≤ m.lo ∨ m.lo + m.len ≤ scratchBase s 0 + 4096)) ∧
    (∀ s, s = { memOn with pow := { memOn.pow with ladder := 1 } } → Runs op 0x805 s ∧ halfUser s 0 = none ∧ (memOf s 0).claims = []) ∧
    (∀ s, s = { memOn with pm := { memOn.pm with standing := true } } → Runs op 0x805 s ∧ halfUser s 0 = none) ∧
    (Runs opFm 0x806 memOn ∧ Fits opFm (4063 + 1) ∧ ringBase + 4063 ≤ scratchBase memOn 0 + gib) := by
  unfold Runs Fits
  refine ⟨?_, ?_, ?_, ?_, ?_, ?_⟩
  all_goals first | decide +kernel | (rintro s rfl; decide +kernel)

/-! ### Post boxes and the timer set (11, 12) -/

/-- A STATUS_READ of one part, unsigned. -/
def part1 : Envelope := { env0 with auth := .observer, opcode := 2, tag := 7, bodyLen := 0, fragLen := 0 }
def kept0 : Completion := ⟨7, 2, .ok, .observer, false, false, 0, 0, 0, 0, []⟩
def asm0 : Assembly := ⟨7, 0, 1, 2, part1, [], 0⟩
def part1Bytes : List Byte := leBytes 1 1 ++ leBytes 1 0 ++ leBytes 2 2 ++ leBytes 2 7 ++ leBytes 2 0 ++ leBytes 2 0 ++ leBytes 2 1 ++ zeros 52

/-- Box 0 of a module whose CXL link is up, as given, at Round `n`. -/
def hbAs (n : Nat) (f : BoxState → BoxState) : State := modBox { cxlOn with mer := { cxlOn.mer with ns := 1024 * n } } 0 f

theorem wit_PartsArrive :
    (part1.version = 1 ∧ boxesOpen cxlOn (.hb 0) = true ∧ gateArrival cxlOn (.hb 0) part1.opcode = .run ∧ (boxOf cxlOn 0).assembly = none ∧
      partOk (.hb 0) part1 [] [] = true ∧ (boxOf cxlOn 0).abandoned ≠ some (part1.tag, 0) ∧ (boxOf cxlOn 0).kept = [] ∧
      (boxOf cxlOn 0).waiting.length < queueLimit (.hb 0) ∧ part1.partCount = 1 ∧ opcodeLeast part1.opcode ≠ none ∧ isLetterBox (.hb 0) = false) ∧
    (gateArrival ready .pm part1.opcode = .run ∧ boxesOpen ready .pm = true ∧ isLetterBox .pm = true ∧ part1.replyAddr % 4096 = 0 ∧ partOk .pm part1 [] [] = true ∧
      (boxOf ready (boxNo .pm)).assembly = none) ∧
    (partOk (.hb 0) { part1 with partCount := 2, bodyLen := 8, fragLen := 4 } (zeros 4) [] = true ∧ 1 < 2 ∧ part1.partIndex = 0) ∧
    (∀ s, s = hbAs 0 (fun x => { x with kept := [(0, kept0)] }) → boxesOpen s (.hb 0) = true ∧ gateArrival s (.hb 0) part1.opcode = .run ∧
      (boxOf s 0).assembly = none ∧ (boxOf s 0).abandoned ≠ some (part1.tag, 0) ∧ (boxOf s 0).kept = [(0, kept0)] ∧ kept0.tag = part1.tag ∧
      roundNo s < kept0.round + 4096) ∧
    (∀ s e, s = hbAs 0 (fun x => { x with abandoned := some (part1.tag, 0) }) → e = { part1 with partIndex := 1, partCount := 2, bodyLen := 8, fragLen := 4 } →
      boxesOpen s (.hb 0) = true ∧ gateArrival s (.hb 0) e.opcode = .run ∧ (boxOf s 0).assembly = none ∧ partOk (.hb 0) e (zeros 4) [] = true ∧
      (boxOf s 0).abandoned = some (e.tag, 0) ∧ e.partIndex ≠ 0) ∧
    partOk (.hb 0) { part1 with version := 2 } [] [] = false ∧
    (64 = 64 + ([] : List Byte).length + ([] : List Byte).length ∧ 64 ≤ 1472 ∧ partOk (.sb (5 - 4)) part1 [] [] = true ∧ boxesOpen ready (.sb (5 - 4)) = true) ∧
    (∀ s, s = hbAs 0 (fun x => { x with buffer := part1Bytes }) → cxlUp s = true ∧ boxesOpen s (.hb 0) = true ∧ (boxOf s 0).hbState ≠ 1 ∧
      (boxOf s 0).hbState ≠ 2 ∧ envelopeOf (fit 4032 (boxOf s 0).buffer) = part1 ∧ 1 = ((boxOf s 0).complete + 1) % 2 ^ 32 ∧
      2 ≠ ((boxOf s 0).complete + 1) % 2 ^ 32) ∧
    (∀ s, s = hbAs (2 ^ 20) (fun x => { x with assembly := some asm0 }) → (boxOf s (boxNo (.hb 0))).assembly = some asm0 ∧
      asm0.lastRound + 2 ^ 20 ≤ roundNo s) ∧
    (boxesOpen ready (.hb 0) = false ∧ cxlUp ready = false) := by
  refine ⟨?_, ?_, ?_, ?_, ?_, ?_, ?_, ?_, ?_, ?_⟩
  case refine_5 => rintro s e rfl rfl; decide +kernel
  all_goals first | decide +kernel | (rintro s rfl; decide +kernel)

/-- All 64 timers are taken, the last by the class given. -/
def timersFull (cls : ClaimClass) : State :=
  { ready with pm := { ready.pm with
      timerOrder := 64
      timers := (List.range 64).map fun t => (t, { cls := if t = 63 then cls else .protection, expiry := 100 + t, order := t }) } }

theorem wit_TimerSet :
    (List.range 64).find? (fun t => (tfind ready.pm.timers t).isNone) = some 0 ∧
    (∀ s, s = timersFull .protection → (∀ t, t < 64 → tfind s.pm.timers t ≠ none) ∧ lowestClass s = 0 ∧ ClaimClass.dataService ≠ .protection) ∧
    (∀ s, s = timersFull .capture → (∀ t, t < 64 → tfind s.pm.timers t ≠ none) ∧ lowestClass s = 3) ∧
    (∀ s, s = { readyAt 5 with pm := { ready.pm with timers := [(3, ⟨.capture, 5, 0⟩)] } } → tfind s.pm.timers 3 = some ⟨.capture, 5, 0⟩ ∧ 5 ≤ roundNo s ∧
      s.pm.absent = false) := by
  refine ⟨?_, ?_, ?_, ?_⟩
  all_goals first | decide +kernel | (rintro s rfl; decide +kernel)

/-! ### The Triad and the tray (11) -/

def pmAs (n : Nat) (f : Pm → Pm) : State := { readyAt n with pm := f ready.pm }
/-- Channels 2, or 1 and 2, are out of service. -/
def duplex : State := pmAs 0 fun x => { x with chans := [(2, { inService := false })] }
def simplex : State := pmAs 0 fun x => { x with chans := [(1, { inService := false }), (2, { inService := false })] }
def chanAt (x : Chan) : State := pmAs 0 fun p => { p with chans := [(2, x)] }

theorem wit_TriadVoting :
    (2 ≤ 2 ∧ triadMode ready = .triplex) ∧ (triadMode duplex = .duplex ∧ duplex.pm.diagnosing = false) ∧ triadMode simplex = .simplex ∧
    (∀ s, s = { duplex with pm := { duplex.pm with diagnosing := true } } → s.pm.diagnosing = true ∧ (channels s).filter [2].contains = [] ∧
      (channels s).filter [1].contains = [1] ∧ (channels s).filter [0, 1].contains = [0, 1]) ∧
    ((chanOf duplex 2).inService = false ∧ (chanOf duplex 2).forGood = false ∧ (∀ k, k ≤ 2 → (chanOf duplex k).stage = 0) ∧ duplex.pm.noneMode = false ∧
      duplex.pm.diagnosing = false ∧ retiredAt duplex 2 = 0 ∧ (0 : Nat) < roundNo (readyAt 1)) ∧
    (chanOf (chanAt { inService := false, stage := 1 }) 2).stage = 1 ∧
    ((chanOf (chanAt { inService := false, stage := 2 }) 2).stage = 2 ∧ copySource (chanAt { inService := false, stage := 2 }) = true) ∧
    ((chanOf (chanAt { inService := false, stage := 4 }) 2).stage = 4 ∧ copySource (chanAt { inService := false, stage := 4 }) = true) := by
  refine ⟨?_, ?_, ?_, ?_, ?_, ?_, ?_, ?_⟩
  all_goals first | decide +kernel | (rintro s rfl; decide +kernel)

/-- Channel 2 has been copied into; a boundary has passed since. -/
def pausing : State := { readyAt 1 with pm := { ready.pm with chans := [(2, { inService := false, stage := 3 })] } }

theorem wit_TriadVoting_turns :
    ((chanOf pausing 2).stage = 3 ∧ (∀ d, d ≤ 2 → d ≠ 2 → (chanOf pausing d).stage ≠ 3) ∧ (chanOf pausing 2).stageRound < roundNo pausing ∧
      copySource pausing = true ∧ pausing.pm.absent = false) ∧
    (∀ k, k < 4 → testDue k ready = true) ∧
    (∀ k, k < 4 → testDue k (pmAs 0 fun x => { x with tests := [(0, ⟨0, 0, 0⟩), (1, ⟨0, 0, 0⟩), (2, ⟨0, 0, 0⟩), (3, ⟨0, 0, 0⟩)] }) = false) ∧
    (∀ s, s = { readyAt 1 with pm := duplex.pm } → retiredAt s 2 < roundNo s ∧ (chanOf s 2).inService = false ∧ (chanOf s 2).forGood = false ∧
      (∀ k, k ≤ 2 → (chanOf s k).stage = 0) ∧ s.pm.noneMode = false ∧ s.pm.diagnosing = false) ∧
    copySource (pmAs 0 fun x => { x with chans := [(0, { verified := false })] }) = false := by
  refine ⟨?_, ?_, ?_, ?_, ?_⟩
  all_goals first | decide +kernel | (rintro s rfl; decide +kernel)

theorem wit_PostmasterRestarts :
    ready.pm.absent = false ∧ (triadRuns (readyAt 1024) = true ∧ 2 ≤ (readyAt 1024).ident.boot ∧ (readyAt 1024).pm.aliveRound + 1024 ≤ roundNo (readyAt 1024)) ∧
    (triadRuns (readyAt 1023) = true ∧ roundNo (readyAt 1023) < (readyAt 1023).pm.aliveRound + 1024) ∧
    (∀ s, s = (pmAs 10 fun x => { x with restartDue := true, restartRounds := [1, 2] }) → s.pm.restartDue = true ∧ s.pm.absent = false ∧
      s.pm.noneMode = false ∧ s.pm.restartFrom ≤ roundNo s ∧ (recentRestarts s).length < 3) ∧
    (pmAs 10 fun x => { x with restartDue := true, restartFrom := 11 }).pm.restartFrom = 11 ∧
    (∀ s, s = (pmAs 10 fun x => { x with restartDue := true, restartRounds := [1, 2, 3] }) → s.pm.restartDue = true ∧ 3 ≤ (recentRestarts s).length) ∧
    ((pmAs 0 fun x => { x with absent := true, chainDone := true }).pm.absent = true ∧
      (pmAs 0 fun x => { x with absent := true, chainDone := true }).pm.chainDone = true) := by
  refine ⟨?_, ?_, ?_, ?_, ?_, ?_, ?_⟩
  all_goals first | decide +kernel | (rintro s rfl; decide +kernel)

def heardLink : Link := { inLink with rollRound := some 0 }
def linkAtRound (p : Nat) (l : Link) (n : Nat) : State := withLink p l (readyAt n)
def rollLeaving : RollRecord := { roll0 with leaving := true }

theorem wit_RollCall :
    (triadRuns (readyAt 64) = true ∧ (readyAt 64).pow.ladder ≤ 1 ∧ (readyAt 64).pm.healthSentRound + 64 ≤ roundNo (readyAt 64)) ∧
    (∀ s, s = linkAtRound 0 inLink 4 → (linkOf s 0).disc = .admitted ∧ roll0.kind ≤ 1 ∧ isPeer 0 = false ∧ (linkOf s 0).silent = false) ∧
    (∀ s, s = linkAtRound 224 inLink 4 → (linkOf s 224).disc = .admitted ∧ isPeer 224 = true) ∧
    (∀ s, s = linkAtRound 0 { inLink with silent := true } 4 → (linkOf s 0).silent = true ∧ parks rollLeaving = true ∧ rollLeaving.kind ≤ 1 ∧
      (linkOf s 0).parked = false) ∧
    (∀ s, s = linkAtRound 0 heardLink 4 → (linkOf s 0).disc = .admitted ∧ s.pow.ladder ≤ 1 ∧ (linkOf s 0).rollRound = some 0 ∧ 0 + 4 ≤ roundNo s ∧
      (linkOf s 0).parkDue = false ∧ (linkOf s 0).parked = false) ∧
    (∀ s, s = linkAtRound 0 heardLink 3 → (linkOf s 0).rollRound = some 0 ∧ roundNo s < 0 + 4) ∧
    (∀ s, s = linkAtRound 0 { heardLink with parkDue := true, peerRoll := some rollLeaving } 1 → (linkOf s 0).parkDue = true ∧
      (linkOf s 0).peerRoll = some rollLeaving) ∧
    (∀ s, s = { ready with mer := { ready.mer with ns := 100000000 } } → rollRuns s = true ∧ s.tray.rollNs + 500000 ≤ s.mer.ns ∧ triadRuns s = true ∧
      s.ident.skeleton = false ∧ 2 ≤ s.ident.boot ∧ s.tray.aliveNs + 100000000 ≤ s.mer.ns) := by
  refine ⟨?_, ?_, ?_, ?_, ?_, ?_, ?_, ?_⟩
  all_goals first | decide +kernel | (rintro s rfl; decide +kernel)

def standby (n : Nat) (f : Pm → Pm) : State := pmAs n fun x => f { x with role := .standby }

theorem wit_TrayLead :
    ((standby 0 id).pm.role = .standby ∧ zeros 8 ≠ zeros 7) ∧ 15 < 16 ∧
    (∀ s, s = (pmAs 64 fun x => { x with accLost := 0x8000, accBad := [(15, 0)] }) → s.pm.accLost.getLsbD 15 = true ∧ s.pm.accErr.getLsbD 15 = false ∧
      accSilent s 15 = false ∧ tfind s.pm.accBad 15 = some 0 ∧ 0 + 64 ≤ roundNo s ∧ 64 ≤ roundNo s) ∧
    (∀ s, s = (pmAs 63 fun x => { x with accLost := 0x8000, accBad := [(15, 0)] }) → tfind s.pm.accBad 15 = some 0 ∧ roundNo s < 0 + 64) ∧
    ((readyAt 9).pm.path2 = false ∧ 2 ≤ (readyAt 9).ident.boot ∧ (readyAt 9).pm.hb2Round + 9 ≤ roundNo (readyAt 9) ∧ (readyAt 9).pm.path1 = false ∧ partnerParked (readyAt 9) = false ∧
      (readyAt 9).pm.hb1Round + 9 ≤ roundNo (readyAt 9) ∧ (readyAt 9).pm.partnerLost = false ∧ pathSilent (readyAt 9) 1 = true ∧ pathSilent (readyAt 9) 2 = true ∧
      (readyAt 9).pm.role ≠ .standby ∧ (standby 9 id).pm.partnerLost = false ∧ pathSilent (standby 9 id) 1 = true) ∧
    (∀ s, s = (standby 1 fun x => { x with takeoverDue := true }) → s.pm.role = .standby ∧ s.ident.skeleton = false ∧ s.pm.takeoverDue = true ∧
      s.pm.lostRound < roundNo s) ∧
    (∀ s, s = (standby 1 fun x => { x with partnerRoll := some { roll0 with lead := true, skeleton := true } }) → leadYields s = true ∧
      s.pm.role = .standby) ∧
    (∀ s, s = (standby 500000 fun x => { x with absentSince := some 0 }) → s.pm.absentSince = some 0 ∧ 0 + 500000 ≤ roundNo s) ∧
    (∀ s, s = { ready with mer := { ready.mer with ns := 2000000000 } } → s.pm.standing = false ∧ s.pm.absent = false ∧
      s.pm.rackHeard + 2000000000 ≤ s.mer.ns ∧ s.pm.fabHeard + 2000000000 ≤ s.mer.ns) ∧
    (∀ s, s = (pmAs 1 fun x => { x with standing := true, standingExitDue := some 1 }) → s.pm.standing = true ∧ s.pm.standingExitDue = some 1 ∧
      s.pm.standingRound < roundNo s) := by
  refine ⟨?_, ?_, ?_, ?_, ?_, ?_, ?_, ?_, ?_, ?_⟩
  all_goals first | decide +kernel | (rintro s rfl; decide +kernel)

/-! ### Reads and general commands (12) -/

def hdr (table select first count : Nat) : TableHdr := ⟨first, count, select, 0, table, true⟩
def logEntry0 : LogEntry := ⟨0, 0, 0, 0, 0⟩
def contour0 : Contour := ⟨0, 0, false, false, false, 0, 64, 0, []⟩

theorem wit_ReadCommands :
    (∀ k ∈ [0, 1, 2, 3, 4, 7, 0x907, 0x800, 0x101, 0x204, 0x301, 0x401, 0x403, 0x503, 0x601, 0x605, 0x701, 0x702, 0x903, 0x904, 0x905, 0xA00, 0xA01],
      Runs op k ready) ∧
    Fits op (ownHealth ready).length ∧
    (∀ s, s = (pmAs 0 fun x => { x with partnerHealth := some (zeros 128), accNotes := [(127, zeros 256)] }) → s.pm.partnerHealth = some (zeros 128) ∧
      Fits op (zeros 128).length ∧ 127 ≤ 127 ∧ tfind s.pm.accNotes 127 = some (zeros 256) ∧ Fits op (zeros 256).length) ∧
    (ready.pm.partnerHealth = none ∧ 1 ≤ 62 ∧ 62 < 63 ∧ Fits op (((ready.gmi.log.filter fun e => e.seq ≥ 0).take 62).flatMap eventBytes).length) ∧
    (({ op with box := .pm } : Ctx).box = .pm ∧ Runs { op with box := .pm } 6 ready ∧ 4064 ≤ 4064 ∧ ([1, 2] : List Nat).length ≤ 16) ∧
    (blockSize 1 = some 0x40000 ∧ 0x3FFFC % 4 = 0 ∧ 0x3FFFC + 4 ≤ 0x40000) ∧
    (∀ s, s = withLane 0 { claimLast := .prbs, claimResult := some .notReady } ready → claimCancelled s 1 0xC8 1 = true ∧ claimCancelled s 1 0 1 = false) ∧
    (blockSize 2 = some 0x10000 ∧ 0xFFF8 + 4 * 2 ≤ 0x10000 ∧ Fits op (4 * 2)) ∧
    (ReadHdr (hdr 0 0 4095 1) 4096 ∧ Fits op (rackRange (readBank (hdr 0 0 4095 1) ready) 4095 1).length) ∧
    (1 ≤ (hdr 1 7 15 1).select ∧ ReadHdr (hdr 1 7 15 1) 16 ∧ Fits op (sprayRange (readBank (hdr 1 7 15 1) ready) 7 15 1).length) ∧
    (ReadHdr (hdr 2 0 1023 1) 1024 ∧ Fits op (maskRange (readBank (hdr 2 0 1023 1) ready) 1023 1).length) ∧
    Fits op (plotRange (readBank (hdr 0 0 4095 1) ready) 4095 1).length ∧
    (ReadHdr (hdr 0 255 199 1) 200 ∧ Fits op (slotRange (readBank (hdr 0 255 199 1) ready) 255 199 1).length) ∧
    (ReadHdr (hdr 0 0 7 1) 8 ∧ Fits op (copyRange (readBank (hdr 0 0 7 1) ready) 7 1).length) ∧
    (entryOf (grouped group0 0) 1 = some 0 ∧ (groupOf (grouped group0 0) 0).record = some rec0 ∧ Runs op 0x503 (grouped group0 0)) ∧ entryOf ready 1 = none ∧
    (∀ s, s = { ready with tele := { ready.tele with contours := [contour0], snapValid := true } } → s.tele.contours[0]? = some contour0 ∧
      s.tele.contours[1]? = none ∧ s.tele.snapValid = true) ∧
    (ready.tele.contours[0]? = none ∧ ready.tele.snapValid = false ∧ 0x7FFFF + 1 ≤ 0x80000 ∧ 0 + 490 ≤ 0x80000 ∧ Fits op (8 + 8 * 490)) ∧
    (8 + 8 ≤ 16 ∧ Fits op (64 * 8)) ∧
    (∀ s, s = { ready with trust := { ready.trust with log := [logEntry0] } } → 0 + 1 ≤ s.trust.log.length ∧
      Fits op (((s.trust.log.drop 0).take 1).flatMap logBytes).length) ∧
    (Fits op 4000 ∧ 0xFFF060 + 4000 ≤ 0x1000000 ∧ 0x1FFF060 + 4000 ≤ 0x2000000) := by
  unfold Runs Fits ReadHdr
  refine ⟨?_, ?_, ?_, ?_, ?_, ?_, ?_, ?_, ?_, ?_, ?_, ?_, ?_, ?_, ?_, ?_, ?_, ?_, ?_, ?_, ?_⟩
  all_goals first | decide +kernel | (rintro s rfl; decide +kernel)

theorem wit_ReadCommands_seal : fit 32 [1] ≠ zeros 32 ∧
    (∀ body, body = reportHeader [1] 1 ready ++ (maskSlots 1).flatMap (fun k => digestBytes (ledgerSlot ready k)) → Fits op (body.length + 512)) ∧
    (∀ item, item = fit 2224 ownChain → 2160 + 64 ≤ item.length ∧ Fits op 64) := by
  refine ⟨by decide +kernel, ?_, ?_⟩
  · rintro body rfl
    have h : (maskSlots 1).flatMap (fun k => digestBytes (ledgerSlot ready k)) = digestBytes 0 := by decide +kernel
    rw [h]
    simp only [Fits, reportHeader, List.length_append, length_fit, zeros, List.length_replicate]
    decide +kernel
  · rintro item rfl
    simp only [Fits, length_fit]
    decide +kernel

/-! ### The staging bank (12, 06, 07, 08, 09) -/

/-- The bank is staged by HB0, as given. -/
def stagedAs (b : Bank) : State := { ready with staging := { ready.staging with holder := some (.hb 0), bank := b, items := 1 } }
def standingOn (s : State) : State := { s with pm := { s.pm with standing := true } }
def copy0 : CopySession := ⟨true, 0, false, false, 0, 16, 15, 0, 0, 0, 0, 0, 0, false, false, true⟩
def window0 : WindowRec := ⟨2 ^ 40, 4096, true, true⟩
def slot0 : SlotEntry := ⟨true, 255, 1⟩

/-- A property of every entry of a list of one. -/
theorem one_entry {α : Type} (P : Nat → α → Prop) (x : α) (h : P 0 x) : ∀ (k : Nat) (v : α), [x][k]? = some v → P k v := by
  intro k v e
  cases k with
  | zero => simp at e; subst e; exact h
  | succ k => simp at e

theorem wit_StagedTables : MayStage op ready ∧
    (WriteHdr (hdr 0 0 0 1) 4096 [(1 : BitVec 16)].length ∧ ∀ (k : Nat) (v : BitVec 16), [(1 : BitVec 16)][k]? = some v → bitsOf v.toNat 3 1 ≠ 7 ∧
      (v.getLsbD 0 = true → (0 + k = ownRack ready ↔ bitsOf v.toNat 3 1 = 0) ∧ rackFits ready (0 + k) = true ∧
        ∀ a, firstAxis (0 + k) (ownRack ready) = some a → axisOfDir (bitsOf v.toNat 3 1) = a)) ∧
    (WriteHdr (hdr 0 7 15 1) 16 [(15 : BitVec 8)].length ∧ 1 ≤ (hdr 0 7 15 1).select ∧ (hdr 0 7 15 1).select ≤ 7) ∧
    (WriteHdr (hdr 0 0 1023 1) 1024 [(0 : BitVec 128)].length ∧ (hdr 0 0 1023 1).first ≠ 0 ∧ MayStage op (standingOn ready) ∧
      ∀ (k : Nat) (m : BitVec 128), [(0 : BitVec 128)][k]? = some m → gains (maskEntry (standingOn ready).bank (1023 + k)) m = false) ∧
    (WriteHdr (hdr 0 0 4095 1) 4096 [((⟨false, 0, 0⟩ : PlotEntry), true)].length ∧ ∀ (k : Nat) (x : PlotEntry × Bool), [((⟨false, 0, 0⟩ : PlotEntry), true)][k]? = some x →
      (x.1.valid = true → (plotEntry ready.bank (4095 + k)).valid = true) ∧ gains (plotEntry ready.bank (4095 + k)).rackMask x.1.rackMask = false ∧
      gains (plotEntry ready.bank (4095 + k)).slotMask x.1.slotMask = false) ∧
    (WriteHdr (hdr 0 0 7 1) 8 [copy0].length ∧ ∀ (k : Nat) (x : CopySession), [copy0][k]? = some x → x.kind < 3 ∧ (x.kind ≤ 1 → isMaint x.port = false) ∧ x.sampleK ≤ 16 ∧
      (x.enable = true → x.destRing = false → 240 + x.mport ∉ ready.sw.testPorts)) ∧
    (WriteHdr (hdr 0 255 198 1) 200 [slot0].length ∧ ∃ b, applyEntries (slotEntryCheck 255) 198 [slot0] (stagedBank ready) = .ok b) ∧
    (∀ b', b' = { stagedBank ready with slot := tset ⟨false, 0, 0⟩ (stagedBank ready).slot (200 * 255 + 198) slot0 } → slot0.source < 264 ∧ 198 ≠ 199 ∧
      validSlots b' 255 ≤ 160 ∧ (slotEntry (stagedBank ready) 255 198).valid = false ∧ sameInput (stagedBank ready) 255 198 slot0.source = none) ∧
    (WriteHdr (hdr 0 0 3 1) 4 [window0].length ∧ ∃ b, applyEntries windowEntryCheck 3 [window0] (stagedBank ready) = .ok b) ∧
    (∀ b', b' = { stagedBank ready with window := tset ⟨0, 0, false, true⟩ (stagedBank ready).window 3 window0 } → window0.base % 2 ^ 30 = 0 ∧
      1 ≤ window0.sizeGib ∧ window0.sizeGib ≤ 4096 ∧ windowsOk b' = true) ∧
    (regWriteCheck true 6 12 (0xFFFF : Word).toNat ready = none ∧ ∃ b, stageWord (stagedBank ready) 6 12
      (merged (readWord (stagedBank ready) ready 6 12) 7 (0xFFFF : Word).toNat) = some b ∧ ringMove (stagedBank ready) b ready = none) ∧
    (0x1FFFF : Word).toNat % 65536 ≠ 0 ∧
    (32 ≤ prog0.slot ∧ programFields prog0 = none ∧ programCode prog0 = none ∧
      binder ready (programsIn (stagedBank ready) prog0.slot prog0.span ++ programsIn ready.bank prog0.slot prog0.span) = none) ∧
    (∀ s, s = stagedAs { prog := [(32, some prog0)] } → MayStage op s ∧ tget none (stagedBank s).prog 32 = some prog0 ∧ binder s [(32, prog0)] = none) ∧
    (ready.ident.learned = false ∧ ready.gmi.gridPending = none ∧ gridFail [7, 3, 3, 8, 4, 4, 0, 3, 0] = none) ∧
    ({ ready with ident := { ready.ident with learned := true } } : State).ident.learned = true ∧
    (({ readyAt 1 with gmi := { ready.gmi with gridPending := some [7, 3, 3, 8, 4, 4, 0, 3, 0] } } : State).gmi.gridPending = some [7, 3, 3, 8, 4, 4, 0, 3, 0] ∧
      ready.gmi.gridRound < roundNo (readyAt 1)) ∧
    (masksBarred (hdr 0 0 1023 1) [1] (standingOn ready) = true ∧ plotsBarred (hdr 0 0 4095 1) [(⟨true, 1, 1⟩, true)] (standingOn ready) = true) := by
  unfold MayStage WriteHdr
  refine ⟨?_, ⟨?_, ?_⟩, ?_, ⟨?_, ?_, ?_, ?_⟩, ⟨?_, ?_⟩, ⟨?_, ?_⟩, ⟨?_, _, rfl⟩, ?_, ⟨?_, _, rfl⟩, ?_, ⟨?_, _, rfl, ?_⟩, ?_, ?_, ?_, ?_, ?_, ?_, ?_⟩
  case refine_3 =>
    have h : firstAxis 0 (ownRack ready) = none := by decide +kernel
    refine one_entry (fun k (v : BitVec 16) => bitsOf v.toNat 3 1 ≠ 7 ∧ (v.getLsbD 0 = true → (0 + k = ownRack ready ↔ bitsOf v.toNat 3 1 = 0) ∧
      rackFits ready (0 + k) = true ∧ ∀ a, firstAxis (0 + k) (ownRack ready) = some a → axisOfDir (bitsOf v.toNat 3 1) = a)) 1 ?_
    refine ⟨by decide +kernel, fun _ => ⟨by decide +kernel, by decide +kernel, fun a e => ?_⟩⟩
    rw [Nat.add_zero, h] at e
    cases e
  all_goals first | decide +kernel | (rintro s rfl; decide +kernel) | (apply one_entry; decide +kernel)

/-- `ready` with both memory halves active and Plot 1 open to slot 0 of this rack, and a group of slot 0 that adds. -/
def mayOpen : State :=
  { modMem (modMem ready 0 fun _ => { state := 1 }) 1 (fun _ => { state := 1 }) with bank := { ready.bank with plot := [(1, ⟨true, 1, 1⟩)] } }
def rec1 : GroupRec := { rec0 with operator := 1, stepBytes := 256, progId := 0, nxM1 := 0 }
def sealedAt (n : Nat) (s : State) : State := { s with staging := { s.staging with sealed := some n } }
/-- The staged bank removes a rack entry that was looked up in this Round. -/
def removing : State :=
  { stagedAs {} with bank := { ready.bank with rack := [(5, { valid := true, dir := 1 })] }, route := { ready.route with lookedRack := [(5, 0)] } }
def opAp : Ctx := { op with box := .ap 0 }
def standing : State := standingOn ready

theorem wit_StagedBank :
    (Runs op 0x102 (stagedAs {}) ∧ (stagedAs {}).staging.sealed = none ∧ bankEmpty (stagedAs {}) = false ∧ newWindows (stagedAs {}) = [] ∧
      128 ≤ cyclesLeft (stagedAs {}) ∧ pendingRemovals (stagedAs {}) = 0 ∧ 3 ≤ authCode (granted (stagedAs {}) op)) ∧
    (∀ s, s = { stagedAs { window := [(0, window0)] } with cxl := cxlOn.cxl, mer := { ready.mer with timed := true } } → newWindows s ≠ [] ∧ cxlUp s = true ∧
      roundNo s + 2 ≤ 2 ∧ s.mer.timed = true) ∧
    (Runs op 0x102 removing ∧ removing.staging.sealed = none ∧ bankEmpty removing = false ∧ newWindows removing = [] ∧ pendingRemovals removing ≠ 0) ∧
    (Runs { op with auth := .manager } 0x102 (stagedAs {}) ∧ authCode (granted (stagedAs {}) { op with auth := .manager }) < 3) ∧
    (∀ s, s = sealedAt 0 (stagedAs {}) → s.staging.sealed = some 0 ∧ 0 ≤ roundNo s ∧ s.ident.skeleton = false ∧ s.staging.holder ≠ none) ∧
    ((sealedAt 0 ready).staging.holder = none ∧ (sealedAt 1 ready).staging.sealed = some 1 ∧ roundNo (sealedAt 1 ready) < 1) ∧
    (Runs op 0x103 (stagedAs {}) ∧ (stagedAs {}).staging.holder = some op.box ∧ roundNo (sealedAt 2 (stagedAs {})) + 1 < 2) ∧ bankEmpty ready = true ∧
    (∀ s, s = { stagedAs {} with mer := (readyAt (2 ^ 20)).mer } → s.staging.holder = some (.hb 0) ∧ s.staging.lastRound + 2 ^ 20 ≤ roundNo s) ∧
    roundNo (stagedAs {}) < (stagedAs {}).staging.lastRound + 2 ^ 20 ∧ Runs op 0x104 ready ∧
    (∀ s, s = grouped group0 0 → Runs op 0x501 s ∧ entryOf s 1 = some 0 ∧ 2 ≤ authCode (granted s op) ∧ (groupOf s 0).state = .running ∧ s.staging.sealed = none) ∧
    (∀ s, s = grouped { group0 with state := .staged } 0 → entryOf s 1 = some 0 ∧ (groupOf s 0).state = .staged) ∧
    (∀ s, s = grouped { group0 with state := .closing } 0 → entryOf s 1 = some 0 ∧ (groupOf s 0).state = .closing) ∧
    (Runs opAp 0x501 (grouped group0 0) ∧ senderMember (grouped group0 0) opAp 0 = true) ∧
    (Runs opAp 0x502 (grouped group0 0) ∧ opAp.box = .ap 0 ∧ rec0.memberMask.getLsbD 0 = true ∧ (⟨4096, 0, []⟩ : MemberEntry).resultBase % 4096 = 0 ∧
      (⟨4096, 0, []⟩ : MemberEntry).noticeBase % 4096 = 0 ∧ (groupOf (grouped group0 0) 0).record = some rec0) ∧
    (rec0.memberMask.getLsbD 1 = false ∧ opFm.box = .fm 0 ∧ standing.pm.standing = true) ∧
    (∀ s, s = sealedAt 1 (stagedAs { window := [(0, window0)] }) → bankEmpty s = false ∧ s.staging.holder = some op.box ∧ s.staging.sealed = some 1 ∧ 1 ≤ roundNo s + 1) ∧
    (∀ s, s = { sealedAt 1 (stagedAs { window := [(0, window0)] }) with mer := (readyAt 1).mer } → s.staging.sealed = some 1 ∧ 1 ≤ roundNo s) ∧
    (∀ s, s = stagedAs { window := [(0, window0)] } → Runs { op with box := .hb 1, auth := .manager } 0x103 s ∧ s.staging.holder ≠ some (.hb 1) ∧
      authCode (granted s { op with box := .hb 1, auth := .manager }) < 3 ∧ s.staging.holder = some (.hb 0) ∧ (.hb 0 : Box) ≠ .hb 1) := by
  unfold Runs
  refine ⟨?_, ?_, ?_, ?_, ?_, ?_, ?_, ?_, ?_, ?_, ?_, ?_, ?_, ?_, ?_, ?_, ?_, ?_, ?_, ?_⟩
  all_goals first | decide +kernel | (rintro s rfl; decide +kernel)

theorem wit_StagedBank_open : Runs op 0x500 mayOpen ∧ MayStage op mayOpen ∧ mayOpen.pm.standing = false ∧ mayOpen.staging.holder = none ∧
    (groupFields mayOpen { rec1 with group := 0 }).find? (fun x => !x.2) = some (0, false) ∧
    (groupFields mayOpen rec1).find? (fun x => !x.2) = none ∧ [(⟨0, 0, []⟩ : MemberEntry)].length = membersHere rec1 ∧ memberFields [⟨0, 0, []⟩] = none ∧
    plotAllows mayOpen rec1 = true ∧ entryOf mayOpen rec1.group = none ∧ (openEntries mayOpen).length < 64 ∧
    placeOffice mayOpen (pagesOf (regionsFor mayOpen rec1).1) (pagesOf (regionsFor mayOpen rec1).2) = some 0 ∧ spillRoom mayOpen (hemOfOffice 0) (regionsFor mayOpen rec1).1 = true ∧ rec1.operator ≠ 8 ∧
    ∃ b, placeSlots (stagedBank mayOpen) 0 rec1 (routeOutputs mayOpen rec1) = .ok b := by
  unfold Runs MayStage
  refine ⟨?_, ?_, ?_, ?_, ?_, ?_, ?_, ?_, ?_, ?_, ?_, ?_, ?_, ?_, _, rfl⟩
  all_goals decide +kernel

/-! ### Power (15) -/

def powAs (n : Nat) (f : Pow → Pow) : State := { readyAt n with pow := f ready.pow }
def timedOn (s : State) : State := { s with mer := { s.mer with timed := true } }
def ramp0 (n : Nat) : RampEntry := ⟨n, 500, 800, 0, 10, true⟩
def scheduled (n : Nat) : State := powAs n fun x => { x with sched := [ramp0 2], schedId := 7 }

theorem wit_RampCancelled :
    (Runs op 0x603 (scheduled 0) ∧ (scheduled 0).pow.sched ≠ [] ∧ 7 = (scheduled 0).pow.schedId ∧ (scheduled 0).pow.moveRate = 0) ∧
    (∀ s, s = (powAs 0 fun x => { x with schedMoving := true, moveRate := 26 }) → Runs op 0x603 s ∧ s.pow.schedMoving = true) ∧
    (ready.pow.sched = [] ∧ ready.pow.schedMoving = false) ∧ (8 ≠ 0xFFFFFFFF ∧ 8 ≠ (scheduled 0).pow.schedId) := by
  unfold Runs
  refine ⟨?_, ?_, ?_, ?_⟩
  all_goals first | decide +kernel | (rintro s rfl; decide +kernel)

def cap0 : TrayCap := ⟨1, 15, 100, 1, 0, 9⟩
def timed0 (sc : Nat) : TimedCap := ⟨1, false, 0, sc, 3, 500⟩
def capAt (n : Nat) (a : AccCap) : State := withLink 3 inLink (powAs n fun x => { x with acc := [(3, a)] })
def op3 : Ctx := { op with box := .ap 3 }

theorem wit_CapsAndRamps :
    (capFields 2 0 1000 = none ∧ capFields 0 0 100 = none ∧ capFields 1 15 100 = none ∧ ready.pm.standing = false ∧ Runs op 0x600 ready ∧ ready.pm.partnerLost = false) ∧
    (roundNo (timedOn ready) + 2 ≤ 2 ∧ (timedOn ready).mer.timed = true) ∧ (capFields 3 0 1000 = some 0 ∧ capFields 0 1 1000 = some 1 ∧ capFields 0 0 99 = some 2) ∧
    (isHb opFm.box = false ∧ Runs opFm 0x600 (standingOn ready)) ∧
    (ready.ident.skeleton = false ∧ triadRuns ready = true ∧ capFields cap0.scope cap0.index cap0.permille = none ∧ cap0.scope ≠ 0 ∧ cap0.term ≤ 2 ∧ cap0.term ≠ 2 ∧
      cap0.atRound = 0) ∧
    (∀ s, s = (pmAs 2 fun x => { x with trayCaps := [(cap0, 0, some op)] }) → s.pm.trayCaps.find? (fun y => y.1 = cap0) = some (cap0, 0, some op) ∧
      s.pm.trayCaps.find? (fun y => y.1.tag = 9 && roundNo s ≥ y.2.1 + 2) = some (cap0, 0, some op)) ∧
    (∀ sc ∈ [0, 1, 2], ∀ s, s = (powAs 1 fun x => { x with timedCaps := [timed0 sc] }) → s.pow.timedCaps.filter (fun k => k.round ≤ roundNo s) = [timed0 sc] ∧
      (timed0 sc).scope = sc) ∧
    (∀ s, s = capAt 0 { due := true } → sendsCaps s = true ∧ admitted s (homeBase s + 3) = true ∧ (accOf s 3).due = true ∧
      (((accOf s 3).capSeq + 1) % 65536 + 65536 - (accOf s 3).ackedSeq) % 65536 < 32768) ∧
    (∀ s, s = capAt 0 {} → (accOf s 3).due = false ∧ (accOf s 3).known = capToTell s 3 ∧ entryToAnnounce s 3 = none) ∧
    (∀ s, s = capAt 64 { letter := zeros 64 } → sendsCaps s = true ∧ (accOf s 3).acked = false ∧ (accOf s 3).letter ≠ [] ∧ (accOf s 3).resends < 3 ∧
      (accOf s 3).sentRound + s.bank.regs.capAckTimeout ≤ roundNo s) ∧
    (∀ s, s = capAt 64 { letter := zeros 64, resends := 3 } → 3 ≤ (accOf s 3).resends ∧ (accOf s 3).unacked = false) ∧
    (∀ s, s = capAt 16384 { letter := zeros 64 } → sendsCaps s = true ∧ (accOf s 3).refreshRound + 16384 ≤ roundNo s ∧ 5 ≤ (accOf s 3).letter.length) ∧
    (Runs op3 0x601 (capAt 0 {}) ∧ op3.box = .ap 3 ∧ homeBase (capAt 0 {}) ≤ 3 ∧ 3 < homeBase (capAt 0 {}) + 16 ∧ 0 = (accOf (capAt 0 {}) (3 - homeBase (capAt 0 {}))).capSeq ∧
      0 = (capAt 0 {}).pm.epoch ∧ 1 ≠ (accOf (capAt 0 {}) (3 - homeBase (capAt 0 {}))).capSeq) ∧
    (∀ s, s = (powAs 0 fun x => { x with fillW := 26 }) → s.pow.hi < ((261 * 1000000 : Nat) : Int) ∧ 0 < s.pow.fillW) ∧
    (ready.pow.fillW = 0 ∧ ready.pow.duty < 15 ∧ ready.pow.hi < ((261 * 1000000 : Nat) : Int)) ∧
    (∀ s, s = (powAs 0 fun x => { x with duty := 15 }) → s.pow.fillW = 0 ∧ 15 ≤ s.pow.duty ∧ s.pow.suppress < 12) ∧
    (∀ s, s = (powAs 16 fun x => { x with overSince := some 0 }) → s.pow.overSince = some 0 ∧ 0 + 16 ≤ roundNo s ∧ s.pow.unmet = false) ∧
    (Runs op 0x602 (timedOn ready) ∧ [ramp0 2].length ≤ 64 ∧ rampBad (timedOn ready) 0 0 [ramp0 2] = none) ∧
    ((scheduled 2).pow.sched = [ramp0 2] ∧ (ramp0 2).atRound ≤ roundNo (scheduled 2) ∧ (ramp0 2).modPermille ≠ 0xFFFF ∧ (ramp0 2).modRate = 0 ∧
      ({ ramp0 2 with modRate := 26 } : RampEntry).modRate ≠ 0 ∧ roundNo (scheduled 1) < (ramp0 2).atRound) ∧
    (∀ s, s = (powAs 0 fun x => { x with schedMoving := true }) → s.pow.sched = [] ∧ s.pow.schedMoving = true ∧ accRampNow s = s.pow.rampAcc) ∧
    (∀ s, s = (powAs 0 fun x => { x with schedMoving := true, ceil := ceilTarget ready }) → s.pow.ceil = ceilTarget s) := by
  unfold Runs
  refine ⟨?_, ?_, ?_, ?_, ?_, ?_, ?_, ?_, ?_, ?_, ?_, ?_, ?_, ?_, ?_, ?_, ?_, ?_, ?_, ?_, ?_⟩
  case refine_7 => rintro sc h s rfl; fin_cases h <;> decide +kernel
  all_goals first | decide +kernel | (rintro s rfl; decide +kernel)

theorem wit_CapsAndRamps_waits :
    (∀ s, s = capAt 1024 { letter := zeros 64, resends := 3, unacked := true } → sendsCaps s = true ∧ (accOf s 3).acked = false ∧ (accOf s 3).letter ≠ [] ∧
      3 ≤ (accOf s 3).resends ∧ (accOf s 3).unacked = true ∧ (accOf s 3).sentRound + max 1024 s.bank.regs.capAckTimeout ≤ roundNo s) ∧
    (∀ s, s = (powAs 1 fun x => { x with hi := 26000000, belowSince := some 0, suppress := 1 }) → ((0 * 1000000 + 26000000 : Nat) : Int) ≤ s.pow.hi ∧
      s.pow.belowSince = some 0 ∧ 0 + 1024 ≤ s.mer.ns ∧ 0 < s.pow.suppress) ∧
    (∀ s, s = (powAs 1 fun x => { x with hi := 26000000, belowSince := some 0, duty := 1 }) → s.pow.belowSince = some 0 ∧ s.pow.suppress = 0 ∧ 0 < s.pow.duty) ∧
    (∀ s, s = (powAs 0 fun x => { x with hi := 25999999 }) → ((0 * 1000000 : Nat) : Int) ≤ s.pow.hi ∧ s.pow.hi < ((0 * 1000000 + 26000000 : Nat) : Int)) ∧
    (∀ s, s = { ready with ident := { ready.ident with skeleton := true } } → s.ident.skeleton = true) ∧
    ((standingOn ready).pm.standing = true ∧ (standingOn ready).ident.skeleton = false ∧ triadRuns (standingOn ready) = true ∧ cap0.term ≠ 2 ∧
      ({ cap0 with term := 2 } : TrayCap).term = 2) ∧ triadRuns { ready with pm := { ready.pm with absent := true } } = false := by
  refine ⟨?_, ?_, ?_, ?_, ?_, ?_, ?_⟩
  all_goals first | decide +kernel | (rintro s rfl; decide +kernel)

/-- The ladder state `l` with a change to `t` on its way, due at once. -/
def moving (l t : Nat) (left : Option Nat) (p : Bool) (n : Nat) : State := powAs n fun x => { x with ladder := l, move := some ⟨t, 0, left, p⟩ }
def busyGroup : State := grouped { group0 with progress := true } 0

theorem wit_LadderAndProtection :
    (Runs op 0x604 ready ∧ ready.pow.ladder ≤ 4 ∧ groupInProgress ready = none ∧ 4 ≠ ready.pow.ladder ∧ (timedOn ready).mer.timed = true) ∧
    (Runs op 0x604 busyGroup ∧ busyGroup.pow.ladder < 4 ∧ groupInProgress busyGroup = some 1) ∧
    (∀ s, s = (powAs 0 fun x => { x with ladder := 1 }) → Runs op 0x604 s ∧ 0 < s.pow.ladder ∧ exitBarred op 0 s = false) ∧
    (∀ s, s = (powAs 0 fun x => { x with ladder := 1, leakBlock := true }) → Runs op 0x604 s ∧ exitBarred op 0 s = true) ∧
    (∀ s, s = (powAs 2 fun x => { x with timedLadder := some (4, 2) }) → s.pow.timedLadder = some (4, 2) ∧ 2 ≤ roundNo s ∧ 4 ≠ s.pow.ladder ∧ s.pow.move = none) ∧
    (∀ s, s = moving 0 1 none false 0 → s.pow.move = some ⟨1, 0, none, false⟩ ∧ s.pow.ladder < 1 ∧ 0 ≤ roundNo s ∧ s.pow.ceil ≤ ladderLimit 1) ∧
    (∀ s, s = moving 0 4 (some 0) true 2 → s.pow.move = some ⟨4, 0, some 0, true⟩ ∧ s.pow.ladder < 4 ∧ 0 + 2 ≤ roundNo s) ∧
    (∀ s, s = moving 2 0 none false 0 → s.pow.move = some ⟨0, 0, none, false⟩ ∧ 0 < s.pow.ladder ∧ 0 ≤ roundNo s ∧ 2 ≤ s.pow.ladder ∧ exitHeld 0 s = false ∧
      exitHeld 0 { s with pow := { s.pow with thermal := true } } = true) ∧
    (51999 < 52000 ∧ 47999 < 48000 ∧ ready.pow.droop48 = false ∧ ready.pow.ladder = 0 ∧ 43999 < 44000 ∧ ready.pow.stopping = false ∧
      holdupOk { ready with sens := { ready.sens with vinMv := 47999 } } 8192 = true) ∧
    (∀ s, s = (powAs 1024 fun x => { x with droop52 := true }) → s.pow.droop52 = true ∧ s.pow.stopping = false ∧ s.pow.droopRound + 1024 ≤ roundNo s) ∧
    (∀ s, s = (powAs (2 ^ 20) fun x => { x with coolant := 1 }) → s.pow.coolant ≠ 0 ∧ s.pow.leak ≠ 1 ∧ s.pow.coolRound + 2 ^ 20 ≤ roundNo s) ∧
    (999 < 1000 ∧ ready.pow.ladder < 2 ∧ 4000 < 4001 ∧ ready.pow.leak ≠ 2 ∧ 1000 ≤ 4000) ∧
    (∀ s, s = { ready with sens := { ready.sens with flowOk := true } } → s.sens.flowOk = true ∧ 8 ≤ 8 ∧ 10 * (max 109 100 - min 109 100) < 100 ∧
      100 ≤ 10 * (max 110 100 - min 110 100)) ∧
    (ready.sens.flowOk = false ∧ (101 : Int) > 100 ∧ (46 : Int) > ready.bank.regs.coolTMax ∧ (-11 : Int) < -10 ∧ (1, 2) ∉ ready.sens.stuck ∧ (39 : Int) < 50 - 10) ∧
    (105 < votedTemp ready 0 [106, 106, 20] 20 ∧ votedTemp ready 0 [106, 105, 20] 20 ≤ 105 ∧ 115 < votedTemp ready 1 [116, 120, 20] 20 ∧ ready.pow.tripped = false) ∧
    (∀ s, s = (powAs (2 ^ 20) fun x => { x with thermal := true }) → s.pow.thermal = true ∧ s.pow.thermRound + 2 ^ 20 ≤ roundNo s) ∧
    (∀ s, s = { ready with ident := { ready.ident with skeletonDue := some 2 } } → s.ident.skeletonDue = some 2 ∧ s.ident.skeleton = false) ∧
    (ready.ident.skeletonDue = none ∧ 53999 < 54000 ∧ ready.tray.start ≠ .charging ∧
      ({ ready with tray := { ready.tray with start := .charging } } : State).tray.start = .charging) := by
  unfold Runs
  refine ⟨?_, ?_, ?_, ?_, ?_, ?_, ?_, ?_, ?_, ?_, ?_, ?_, ?_, ?_, ?_, ?_, ?_, ?_⟩
  all_goals first | decide +kernel | (rintro s rfl; decide +kernel)

/-! ### Telemetry and diagnostics (16, 12) -/

def teleAs (n : Nat) (f : Tele → Tele) : State := { readyAt n with tele := f ready.tele }
def inGrid (s : State) : State := { s with ident := { s.ident with learned := true } }
def cfg0 : TeleCfg := ⟨true, true, 62, 64, 0, 4096, [0x7FFFF, 0, 0, 0, 0, 0], true⟩
def detail0 : Detail := { port := 5, running := true }
/-- Clerk 0 of an office that samples by period has issued for a period. -/
def sampled : State :=
  withClerk 0 { clerk0 with sinceSample := 1024, last := some (bundle0, 0, false) }
    { teleAs 0 (fun x => { x with sampleMode := 1, sampleOffices := 1 }) with cxl := cxlOn.cxl }

theorem wit_TelemetryAndDiagnostics_capture :
    ((captureAs 1 fun x => { x with partialSince := some 0 }).capture.partialSince = some 0 ∧ 0 + 1 ≤ roundNo (captureAs 1 id)) ∧
    (∀ s, s = (captureAs 1 fun x => { x with records := [rec256], queueAt := 512 }) → s.capture.records = [rec256] ∧ recordDone s rec256 = true) ∧
    ((adcAs id).capture.adcBusy = true ∧ (adcAs id).capture.adcWait = none ∧ 65600 ≤ captureFree (adcAs id)) ∧
    ((adcAs fun x => { x with adcWait := some (0, []) }).capture.adcWait = some (0, []) ∧ 0 + 4 ≤ roundNo (adcAs id)) := by
  refine ⟨?_, ?_, ?_, ?_⟩
  all_goals first | (rintro s rfl; decide +kernel) | decide +kernel

theorem wit_TelemetryAndDiagnostics :
    (∀ k ∈ [0x700, 0x701, 0x702, 0x703, 0x704, 0x801, 0x804], Runs op k ready) ∧
    (cfg0.reservedZero = true ∧ cfg0.fillMark ≤ 62 ∧ 64 ≤ cfg0.snapPeriod ∧ cfg0.snapPeriod ≤ 65535 ∧ unitPart cfg0.contourDest ≠ 31 ∧ cfg0.contourBase % 4096 = 0 ∧
      ∀ i ∈ cfg0.snapIds, i < 0x80000) ∧
    (2 ≤ authCode (granted ready op) ∧ 0x7FE05 + 507 ≤ 0x80000 ∧ roundNo (timedOn ready) + 2 ≤ 2 ∧ (timedOn ready).mer.timed = true ∧
      authCode (granted ready { op with auth := .observer }) < 2 ∧ Runs { op with auth := .observer } 0x702 ready) ∧
    (∀ s, s = { teleAs 1 (fun x => { x with snapArmed := some 2 }) with mer := { ready.mer with ns := 2047, frac := 2 ^ 32 - 1 } } → s.tele.snapArmed = some 2 ∧
      2 ≤ roundNo s + 1 ∧ cyclesLeft s ≤ 1) ∧ 1 < cyclesLeft (readyAt 1) ∧
    (∀ s, s = teleAs 0 (fun x => { x with snapArmed := some 2 }) → s.tele.snapArmed = some 2 ∧ roundNo s + 1 < 2) ∧
    (detailPhase ready 255 = some 0 ∧ ready.tele.details.any (fun x => detailTaken x.2 && x.2.port = 255) = false ∧
      (List.range 16).find? (fun e => !detailTaken (detailOf ready e)) = some 0 ∧ detailTaken (detailOf ready 15) = false) ∧
    (∀ s, s = inGrid (withLink 0 inLink ready) → Runs op 0x703 s ∧ detailPhase s 0 = none) ∧
    (∀ s, s = teleAs 0 (fun x => { x with details := [(15, { detail0 with stopDue := true })] }) → detailTaken (detailOf s 15) = true ∧
      (detailOf s 15).running = true ∧ (detailOf s 15).stopDue = true) ∧
    (∀ s, s = teleAs 8 (fun x => { x with details := [(0, { detail0 with duration := 8 })] }) → (detailOf s 0).running = true ∧ (detailOf s 0).duration ≠ 0 ∧
      (detailOf s 0).started + (detailOf s 0).duration ≤ roundNo s) ∧
    (∀ s, s = inGrid (withLink 5 inLink (teleAs 0 fun x => { x with details := [(0, detail0)] })) → (detailOf s 0).running = true ∧ detailPhase s (detailOf s 0).port = none) ∧
    (sampleDue sampled 0 = true ∧ (clerkOf sampled 0).last = some (bundle0, 0, false) ∧ sampled.tele.sampleMode = 1 ∧ sampleAllowed sampled (0 / 32) = true ∧
      sampled.tele.sampleCapture = false ∧ cxlUp sampled = true ∧ teleUnread sampled < 63 ∧ sampleDue ready 0 = false) ∧
    (∀ s, s = modOffice sampled 0 (fun o => { o with sampleNs := some 0 }) → sampleAllowed s (0 / 32) = false) ∧
    (∀ v : Word64, v = 0x0007FFFF0000FFF1 → bitsOf v.toNat 7 4 = 15 ∧ bitsOf v.toNat 15 8 ≤ argMax (bitsOf v.toNat 7 4) ∧ bitsOf v.toNat 51 32 < 0x80000) ∧
    (∀ s, s = teleAs 0 (fun x => { x with pcnt := [(0, { value := 2 ^ 32, ctl := 1 })] }) → pcEn (pcntOf s 0) = true ∧ pcOddChained 0 (pcntOf s 0) = false ∧
      (pcntOf s 0).value ≤ 2 ^ 32 ∧ pcChain (pcntOf s (0 + 1)) = false ∧ pcOvfEvent (pcntOf s 0) = false) ∧
    (∀ s, s = teleAs 64 (fun x => { x with periodRounds := 64, peaks := [(0, 5)] }) → roundNo s % 64 = 0 ∧ s.tele.periodRounds ≠ 0 ∧ s.pow.ladder ≤ 2 ∧
      tblRising s.tele.peaks = true) ∧ roundNo (readyAt 63) % 64 ≠ 0 ∧
    (∀ s, s = { teleAs 128 (fun x => { x with cfg := cfg0 }) with cxl := cxlOn.cxl } → s.tele.cfg.snapEn = true ∧ roundNo s % snapPeriod s = 0 ∧ s.pow.ladder ≤ 2 ∧
      s.tele.ring.any (fun r => r.kind = 0 && r.round = roundNo s) = false ∧ cxlUp s = true ∧ teleUnread s < 63) ∧
    (regWriteCheck false 0 0 (1 : Word).toNat ready).isSome = true ∧
    (copyHolder ready.bank 15 = none ∧ copyHolder ready.staging.bank 15 = none ∧ 240 + 15 ∉ ready.sw.testPorts) ∧
    (∀ s, s = { ready with sw := { ready.sw with testPorts := [255] } } → Runs op 0x804 s ∧ copyHolder s.bank 15 = none ∧ 240 + 15 ∈ s.sw.testPorts) := by
  unfold Runs
  refine ⟨?_, ?_, ?_, ?_, ?_, ?_, ?_, ?_, ?_, ?_, ?_, ?_, ?_, ?_, ?_, ?_, ?_, ?_, ?_, ?_, ?_⟩
  all_goals first | (rintro s rfl; decide +kernel) | decide +kernel

/-! ### The Seal (13) -/

def trustAs (n : Nat) (f : SealUnit → SealUnit) : State := { readyAt n with trust := f ready.trust }
/-- The image of manufacture passes every check while no fuse is blown and nobody is revoked (R355). -/
theorem factory_passes (s : State) (f : FwSlot) (h : pristine f = true) (z : s.trust.fuses = 0) (r : s.trust.revoked = []) : imageFails s f = none := by
  simp [imageFails, signerRevoked, h, z, r]

/-- The second slot holds a copy of the image of manufacture, in the state given. -/
def secondAs (st : FwState) (n : Nat) : State := trustAs n fun x => { x with slot1 := { state := st, factory := true }, bootSlot := 1 }
def trial (n : Nat) : State := secondAs .trial n
/-- An image whose STEP is 5 is active. -/
def step5 (n : Nat) : State := trustAs n fun x => { x with slot0 := { state := .active, bytes := [(6, 5)] }, burnDue := true }

theorem wit_FirmwareWritten : Runs op 0x900 ready ∧ 33554432 - 64 < 33554432 ∧ (33554432 - 64) % 64 = 0 ∧ 33554432 - 64 + (zeros 64).length ≤ 33554432 ∧
    ready.trust.slot0.state ≠ .trial ∧ ready.trust.slot1.state ≠ .trial ∧ holdupOk ready fwRecordBytes = true ∧
    (Runs op 0x900 (trial 0) ∧ (trial 0).trust.slot1.state = .trial) ∧ (secondAs .verified 0).trust.slot1.state = .verified := by
  unfold Runs; decide +kernel

theorem wit_FirmwareAndTrust_slots :
    (∀ st ∈ [FwState.written, .verified], ∀ s, s = secondAs st 0 → imageFails s (fwSlot s (inactiveSlot s)) = none ∧ (fwSlot s (inactiveSlot s)).state = st ∧
      holdupOk s fwRecordBytes = true ∧ Runs op 0x901 s ∧ Runs op 0x902 s) ∧
    (imageFails ready (fwSlot ready (inactiveSlot ready)) = some .badArgument ∧ Runs op 0x901 ready ∧ (fwSlot ready (inactiveSlot ready)).state ≠ .verified) ∧
    (∀ s, s = trial (2 ^ 22) → s.trust.bootSlot ≤ 1 ∧ s.trust.fuses ≤ 63 ∧ (fwSlot s s.trust.bootSlot).state = .trial ∧ s.pm.absent = false ∧ 2 ≤ s.ident.boot ∧
      s.trust.serviceSince + 2 ^ 22 ≤ roundNo s ∧ holdupOk s (2 * fwRecordBytes) = true ∧ 54000 ≤ s.sens.vinMv) ∧
    (∀ s, s = step5 (2 ^ 22) → s.trust.burnDue = true ∧ s.trust.burning = none ∧ s.trust.burnRound + 2 ^ 22 ≤ roundNo s ∧ activeSlot s = some 0 ∧ s.trust.fuses < fwStep (fwSlot s 0) ∧
      54000 ≤ s.sens.vinMv) ∧
    (∀ s, s = State.reset → bootDue s = true ∧ s.ident.boot = 0 ∧ s.trust.slot0.state ≠ .trial ∧ s.trust.slot1.state ≠ .trial ∧ activeSlot s = some 0 ∧
      fusedCount s.trust.cells = s.trust.fuses ∧ imageFails s (fwSlot s 0) = none) ∧
    (∀ s, s = { ready with ident := { ready.ident with boot := 1 } } → s.ident.boot = 1 ∧ s.trust.halt = false ∧ s.clk.halt = false ∧ s.clk.refTimeout = false ∧ s.ident.skeleton = false ∧
      s.pow.stopping = false ∧ s.tray.pull < 3) := by
  unfold Runs
  refine ⟨?_, ?_, ?_, ?_, ?_, ?_⟩
  case refine_1 =>
    rintro st h s rfl
    refine ⟨factory_passes _ _ ?_ ?_ ?_, ?_⟩ <;> fin_cases h <;> decide +kernel
  case refine_5 =>
    rintro s rfl
    exact ⟨by decide +kernel, by decide +kernel, by decide +kernel, by decide +kernel, by decide +kernel, by decide +kernel, factory_passes _ _ rfl rfl rfl⟩
  all_goals first | decide +kernel | (rintro s rfl; decide +kernel)

def anchor0 : Anchor := ⟨1, 65537, List.replicate 512 128⟩
/-- An authority is enrolled. -/
def enrolled : State := trustAs 0 fun x => { x with authority := some (65537, List.replicate 512 128) }

theorem wit_FirmwareAndTrust_keys :
    (Runs op 0x906 ready ∧ ready.trust.authority = none ∧ isHb op.box = true ∧ 65537 % 2 = 1 ∧ 65537 < 2 ^ 32 ∧ (List.replicate 512 (128 : Byte)).length = 512 ∧
      128 ≤ beNat ((List.replicate 512 (128 : Byte)).take 1) ∧ holdupOk ready 560 = true) ∧
    (Runs opFm 0x906 ready ∧ isHb opFm.box = false ∧ isSb opFm.box = false) ∧
    (Runs op 0x906 enrolled ∧ enrolled.trust.authority ≠ none ∧ enrolOk op enrolled = true ∧ [anchor0].length ≤ 8 ∧
      (∀ a ∈ [anchor0], (a.kind = 1 ∨ a.kind = 2) ∧ a.modulus.length = 512) ∧ holdupOk enrolled (520 * [anchor0].length) = true ∧
      holdupOk enrolled (32 * (List.replicate 256 (zeros 32)).length) = true) ∧
    (∃ d, d = fit 32 d ∧ d ≠ fit 32 Config.idDigest ∧ (Runs op 0x908 ready ∧ d ∉ ready.trust.revoked ∧ ready.trust.revoked.length < 256 ∧
      holdupOk ready (32 * (ready.trust.revoked.length + 1)) = true) ∧
      ∀ s, s = (trustAs 0 fun x => { x with revoked := [d] }) → d ∈ s.trust.revoked) := by
  refine ⟨?_, ?_, ?_, ?_⟩
  case refine_4 =>
    have k : ∀ d : List Byte, ∀ s, s = (trustAs 0 fun x => { x with revoked := [d] }) → d ∈ s.trust.revoked := by
      rintro d s rfl; exact List.mem_singleton.mpr rfl
    have r : ∀ d : List Byte, Runs op 0x908 ready ∧
        d ∉ ready.trust.revoked ∧ ready.trust.revoked.length < 256 ∧ holdupOk ready (32 * (ready.trust.revoked.length + 1)) = true :=
      fun d => ⟨by unfold Runs; decide +kernel, by simp [ready, State.reset], by decide +kernel, by decide +kernel⟩
    by_cases h : fit 32 [1] = fit 32 Config.idDigest
    · refine ⟨fit 32 [2], by decide +kernel, ?_, r _, k _⟩
      rw [← h]; decide +kernel
    · exact ⟨fit 32 [1], by decide +kernel, h, r _, k _⟩
  all_goals (unfold Runs; decide +kernel)

/-- A check that ran at Round 0 does not run again before Round 2²². -/
def checked (n : Nat) : State := trustAs n fun x => { x with checks := [(0, 0), (1, 0), (2, 0)] }

theorem wit_FirmwareAndTrust_turns :
    (∀ k, k ≤ 2 → sealRuns k (checked (2 ^ 22 - 1)) = false ∧ sealRuns k (checked (2 ^ 22)) = true) ∧
    (enrolOk { op with signed := false } enrolled = false ∧ enrolOk op enrolled = true) ∧
    (∀ s, s = { secondAs .written 0 with sens := { ready.sens with vinMv := 0 } } → holdupOk s fwRecordBytes = false ∧
      (fwSlot s (inactiveSlot s)).state = .written) ∧
    (∀ s, s = { secondAs .verified 0 with sens := { ready.sens with vinMv := 0 } } → holdupOk s fwRecordBytes = false ∧
      (fwSlot s (inactiveSlot s)).state = .verified) ∧
    ((step5 0).trust.fuses < min 63 (fwStep (fwSlot (step5 0) 0)) ∧ bootDue State.reset = true) ∧
    ({ ready with clk := { ready.clk with refTimeout := true } } : State).clk.refTimeout = true := by
  refine ⟨?_, ?_, ?_, ?_, ?_, ?_⟩
  all_goals first | decide +kernel | (rintro s rfl; decide +kernel)

theorem wit_FirmwareAndTrust_checks : (∀ k, k ≤ 2 → sealRuns k ready = true) ∧ ready.ident.skeleton = false ∧ ready.ident.skeletonDue = none ∧ (chanOf ready 2).inService = true ∧
    triadMode ready = .triplex ∧ majority ((List.replicate 8 (zeros 64)).take 8) = some (zeros 64) ∧ majority (([] : List (List Byte)).take 8) = none ∧
    (∀ s, s = modOffice ready 7 (fun o => { o with reloading := true }) → (officeOf s 7).reloading = true) := by
  refine ⟨?_, ?_, ?_, ?_, ?_, ?_, ?_, ?_⟩
  all_goals first | decide +kernel | (rintro s rfl; decide +kernel)

/-! ### Clocks and resets (14) -/

def clkAs (f : Clk → Clk) : State := { ready with clk := f ready.clk }
def src1 : Src := { ready := true }

theorem wit_ClocksAndResets :
    (3 ≤ 3 ∧ (srcOf ready 1).failed = false ∧ coreSource ready = 2 ∧ ready.clk.halt = false) ∧
    (∀ s, s = (clkAs fun x => { x with coreSrc := 0, xtalSrc := 0, srcs := [(0, src1), (2, src1)] }) → (srcOf s 0).failed = false ∧ coreSource s = 0 ∧ xtalSource s = 1 ∧
      (srcOf s 2).ready = true ∧ (srcOf s 1).failed = false ∧ xtalSource s ≠ 0) ∧
    (∀ s, s = (clkAs fun x => { x with coreSrc := 0 }) → s.clk.halt = false ∧ coreSource s = 0 ∧ (srcOf s 2).ready = false ∧ (srcOf s (1 - 0)).ready = false) ∧
    (∀ s, s = (clkAs fun x => { x with srcs := [(0, { good := 16 }), (1, { good := 16 }), (2, { good := 16 })] }) → (srcOf s 0).ready = false ∧
      (srcOf s 0).failed = false ∧ (srcOf s 0).lostEdges = false ∧ 16 ≤ (srcOf s 0).good ∧ s.clk.coreChosen = false ∧ 16 ≤ (srcOf s 1).good ∧
      s.clk.xtalChosen = false ∧ 16 ≤ (srcOf s 2).good) ∧
    ((srcOf ready 0).good < 16 ∧ ready.clk.xtalFailed = false ∧ ready.clk.xtalOk = false ∧ ∀ i, i ≤ 3 → (srcOf ready i).lostEdges = false) ∧
    (∀ s, s = (clkAs fun x => { x with srcs := [(0, src1), (1, src1)] }) → Runs op 0x801 s ∧ 0 ≠ s.clk.coreSrc ∧ selRefused s s.clk.holdCore 0 1 = false ∧
      0 ≠ s.clk.xtalSrc ∧ selRefused s s.clk.holdXtal 1 0 = false) ∧
    (Runs op 0x801 ready ∧ 2 ≠ ready.clk.coreSrc ∧ selRefused ready ready.clk.holdCore 1 1 = true) ∧
    ((srcOf State.reset 0).ready = false ∧ State.reset.clk.coreChosen = false ∧ State.reset.ident.boot < 2) ∧
    (ready.clk.pwrReset = false ∧ ready.clk.rstLow = false ∧ (clkAs fun x => { x with rstLow := true }).clk.rstLow = true) ∧
    (∀ s, s = (clkAs fun x => { x with pwrReset := true }) → s.clk.pwrReset = true ∧ s.tray.pwrOk = true ∧ s.tray.start = .running) ∧
    (∀ s, s = (clkAs fun x => { x with rstLow := true, rstCold := true }) → s.clk.rstLow = true ∧ s.clk.pwrReset = false ∧ s.clk.rstCold = true) ∧
    (clkAs fun x => { x with rstLow := true }).clk.rstCold = false ∧
    (ready.clk.unitReset = none ∧ heldLane ready 15 = none) ∧
    (∀ s, s = { memOn with pow := { memOn.pow with ladder := 1 } } → Runs op 0x801 s ∧ s.clk.unitReset = none ∧ wholeHalf 0 s = none) ∧
    (isHb opFm.box = false ∧ Runs opFm 0x801 ready ∧ isHb op.box = true) ∧
    ((clkAs fun x => { x with unitReset := some (2, 1) }).clk.unitReset = some (2, 1) ∧ (clkAs fun x => { x with unitReset := some (3, 0) }).clk.unitReset = some (3, 0) ∧
      (clkAs fun x => { x with unitReset := some (1, 15) }).clk.unitReset = some (1, 15)) := by
  unfold Runs
  refine ⟨?_, ?_, ?_, ?_, ?_, ?_, ?_, ?_, ?_, ?_, ?_, ?_, ?_, ?_, ?_, ?_⟩
  all_goals first | decide +kernel | (rintro s rfl; decide +kernel)

theorem wit_ClocksAndResets_turns :
    (inBand 2 (([16000, 16000, 0, 16000, 16000] : List Nat).getD 2 0) = false ∧ inBand 1 (([16000, 16000, 0, 16000, 16000] : List Nat).getD 1 0) = true ∧
      (∀ i, i ≤ 3 → (srcOf ready i).lostEdges = false) ∧ ready.clk.xtalFailed = false ∧ 0 ∉ ready.clk.suspects) ∧
    (0 ∈ (clkAs fun x => { x with suspects := [0] }).clk.suspects) ∧
    (∀ s, s = (clkAs fun x => { x with rstLow := true, pwrReset := true }) → s.clk.rstLow = true ∧ s.clk.rstCold = false ∧ s.clk.pwrReset = true) ∧
    (∀ s, s = (clkAs fun x => { x with rstLow := true }) → s.clk.rstLow = true ∧ s.clk.pwrReset = false ∧ s.clk.rstCold = false) ∧
    (∀ s, s = { clkAs (fun x => { x with rstLow := true }) with pow := { ready.pow with tripped := true } } → s.pow.tripped = true ∧ ready.pow.tripped = false) := by
  refine ⟨?_, ?_, ?_, ?_, ?_⟩
  all_goals first | decide +kernel | (rintro s rfl; decide +kernel)

/-- Counts in every monitor's band. -/
theorem wit_ClocksAndResets_window : ∃ l : List Nat, l.length = 5 ∧ ∀ k, k < 5 → inBand k (l.getD k 0) = true :=
  ⟨[16000, 16000, 16000, 16000, 16000], by decide +kernel⟩

/-! ### The tray, the pull and the sideband (17, 18) -/

def trayAs (n : Nat) (f : Tray → Tray) : State := { readyAt n with tray := f ready.tray }
def startAs (st : Start) (f : Tray → Tray) : State := trayAs 0 fun x => f { x with start := st }
def frame0 : Frame := ⟨3, 0, zeros 32⟩

theorem wit_TrayAndSideband_pull : (pullActs ready = true ∧ (0 : Nat) < 256) ∧
    (∀ s, s = linkAt inLink 0 → pullActs s = true ∧ (linkOf s 0).disc ≠ .dark ∧ (linkOf s 0).disc = .admitted) ∧ (startAs .charging id).tray.start = .charging ∧
    (∀ s, s = (trayAs 1 fun x => { x with pull := 1 }) → s.tray.pull = 1 ∧ s.tray.pullRound < roundNo s) ∧ ready.tray.pull ≠ 1 ∧
    (∀ s, s = (trayAs 2 fun x => { x with pull := 2 }) → s.tray.pull = 2 ∧ s.tray.pullRound + 1 < roundNo s ∧ holdupOk s 8192 = true) ∧
    (trayAs 0 fun x => { x with journalPending := [(0, 5, 1)] }).tray.journalPending = (0, 5, 1) :: [] ∧
    (∀ s, s = (trayAs 0 fun x => { x with bbGathered := List.replicate 63 event1 }) → 63 ≤ s.tray.bbGathered.length) ∧
    (∀ s, s = (trayAs (2 ^ 20) fun x => { x with bbGathered := [event1] }) → s.tray.bbGathered ≠ [] ∧ s.tray.bbSince + 2 ^ 20 ≤ roundNo s) ∧
    (ready.tray.bbGathered.length < 63 ∧ roundNo ready < ready.tray.bbSince + 2 ^ 20) := by
  refine ⟨?_, ?_, ?_, ?_, ?_, ?_, ?_, ?_, ?_, ?_⟩
  all_goals first | decide +kernel | (rintro s rfl; decide +kernel)

theorem wit_TrayAndSideband_start :
    (startAs .absent id).tray.start = .absent ∧ (66001 > 66000 ∧ ready.tray.start ≠ .absent ∧ 68001 > 68000 ∧ ready.tray.start = .running) ∧
    (startAs .starting id).tray.start = .starting ∧ ready.tray.permitWait = none ∧
    (∀ s, s = startAs .keep (fun x => { x with permitWait := some (7, 1000000) }) → s.tray.permitWait = some (7, 1000000) ∧ s.tray.start = .keep ∧ s.mer.ns ≤ 1000000 ∧
      54000 ≤ s.sens.vinMv ∧ s.tray.pullWarn = false) ∧
    (ready.tray.start = .running ∧ ready.pow.stopping = false ∧ ready.pow.ladder < 4) ∧
    (∀ s, s = startAs .keep id → s.tray.start = .keep ∧ 54000 ≤ s.sens.vinMv ∧ s.tray.pullWarn = false ∧ s.tray.pwrEn = true ∧ 1 ≤ 10000) ∧
    (startAs .keep fun x => { x with pwrEn := false }).tray.pwrEn = false ∧ 7 ≠ ready.clk.posId.toNat % 16 / 2 ∧
    (∀ s, s = { trayAs 0 (fun x => { x with permitWait := some (7, 5) }) with mer := { ready.mer with ns := 5 } } → s.tray.permitWait = some (7, 5) ∧ 5 ≤ s.mer.ns) ∧
    (sidebandRuns ready = true ∧ 1 ≤ ready.ident.boot ∧ ready.tray.rollDue = false ∧ ready.tray.frames = []) ∧
    (∀ s, s = (trayAs 0 fun x => { x with frames := [frame0] }) → sidebandRuns s = true ∧ s.tray.rollDue = false ∧ s.tray.frames = frame0 :: [] ∧ frame0.body.length ≤ 82) ∧
    (∀ s, s = (trayAs 0 fun x => { x with rollDue := true }) → sidebandRuns s = true ∧ s.tray.rollDue = true ∧ rollRuns s = true) ∧
    ((7 : Nat) ≠ 0 ∧ 3 ≤ 3) := by
  refine ⟨?_, ?_, ?_, ?_, ?_, ?_, ?_, ?_, ?_, ?_, ?_, ?_, ?_, ?_⟩
  all_goals first | decide +kernel | (rintro s rfl; decide +kernel)

/-- R349: a boot stage that fails halts the Seal with the links dark. -/
theorem test_boot_chain_halts : ends (exec (.bootChain true false true false) State.reset) (fun t => t.trust.halt && t.ident.dark) = true := by decide +kernel

/-- R439: the first pull warning stops the credits; a second changes nothing more. -/
theorem test_pull_twice : ends (exec .pullWarn ready) (fun t => ends (exec .pullWarn t) fun u => u.tray.pullRound = 0 && u.tray.pull = 1) = true := by decide +kernel

/-! ### Further clauses, by statement -/

theorem wit_LaneEvents_more : (55 : Int) < 56 ∧ (60 : Int) ≤ 60 ∧ ready.pow.ladder ≤ 1 ∧
    (∀ s, s = withLane 0 { fecRound := some 0 } (readyAt 2) → (laneOf s 0).fecRound = some 0 ∧ 0 + 2 ≤ roundNo s) ∧
    (∀ s, s = withLane 0 { fecRound := some 0 } (readyAt 1) → (laneOf s 0).fecRound = some 0 ∧ roundNo s < 0 + 2) ∧
    (laneOf ready 0).ringLock = false ∧ (2 ≤ ({ ready.pow with ladder := 2 } : Pow).ladder) := by
  refine ⟨by decide, by decide, by decide +kernel, ?_, ?_, by decide +kernel, by decide⟩ <;> (rintro s rfl; decide +kernel)

theorem wit_LaserLight_blank : ∀ s, s = withLane 963 { ringLock := true } (tileLit 7) → (tileOf s 15).active = 0 ∧
    (fibreOk (tileOf s 15) 0).getLsbD 3 = true ∧ (tileOf s 15).corr = [] ∧ fibreOk (tileOf s 15) (1 - 0) ≠ 15 ∧ (599 : Int) < 600 ∧
    (laneOf s (64 * 15 + 4 * 0 + 3)).ringLock = true := by
  rintro s rfl; decide +kernel

theorem wit_PrbsTests_release : (∀ s, s = linkAt upLink 0 → Runs op 0x801 s ∧ s.pow.ladder ≤ 1 ∧ inService (linkOf s (portOfLane 3)) = true ∧
      (linkOf s (portOfLane 3)).width.getLsbD (3 % 4) = true ∧ (releaseLane (portOfLane 3) (3 % 4) s).isSome = true) ∧
    (∀ s, s = linkAt { upLink with width := 8 } 0 → (linkOf s (portOfLane 3)).width.getLsbD (3 % 4) = true ∧ releaseLane (portOfLane 3) (3 % 4) s = none) ∧
    (∀ s, s = { ready with pow := { ready.pow with ladder := 2 } } → Runs op 0x801 s ∧ 2 ≤ s.pow.ladder) ∧ 3 < 4 ∧
    ({} : Lane).chkFill < (prbsPoly ({} : Lane).pattern).1 ∧ (prbsPoly 0).1 ≤ ({ chkFill := 31 } : Lane).chkFill := by
  unfold Runs
  refine ⟨?_, ?_, ?_, by decide, by decide +kernel, by decide +kernel⟩ <;> (rintro s rfl; decide +kernel)

theorem wit_EchoMeasurements_refused :
    (∀ s, s = { ready with pow := { ready.pow with ladder := 2 } } → Runs op 0x801 s ∧ 2 ≤ s.pow.ladder ∧ 15000 < 15001) ∧
    (∀ s, s = echoReady {} { busy := true } → Runs op 0x801 s ∧ s.pow.ladder ≤ 1 ∧ (tget {} (tileOf s 0).corr 0).busy = true) ∧
    (∀ s, s = ready → Runs op 0x801 s ∧ s.pow.ladder ≤ 1 ∧ (tget {} (tileOf s 0).corr 0).busy = false ∧ (laneOf s (64 * 0 + 4 * 1 + 3)).claim = .none ∧
      lightOk s 0 3 = false ∧ (laneOf s (64 * 0 + 4 * 1 + 3)).ringLock = false) ∧
    (∀ s c, s = withTile 0 { corr := tset {} [] 0 { busy := true, portLane := 7, laneJ := 3 } } (withLane 7 { claim := .echo } ready) →
      c = tget {} (tileOf s 0).corr 0 → c.busy = true ∧ (laneOf s c.portLane).claim = .echo ∧ (linkOf s (portOfLane c.portLane)).released = 0 ∧
      lightOk s 0 c.laneJ = false) := by
  unfold Runs
  refine ⟨?_, ?_, ?_, ?_⟩
  case refine_4 => rintro s c rfl rfl; decide +kernel
  all_goals (rintro s rfl; decide +kernel)

theorem wit_FlitsReceived_off : inService ({} : Link) = false ∧ ({ inLink with rx := { tagFails := List.replicate 63 0 } } : Link).disc = .admitted ∧
    63 ≤ ((List.replicate 63 0).filter fun r => 0 < r + 1024).length ∧ (laneOf ready 0).precodeRx = false := by decide +kernel

theorem wit_FlitsTransmitted_due :
    (∀ s, s = linkAt inLink 0 → inService (linkOf s 0) = true ∧ mayTransmit s = true ∧ peerAsleep (linkOf s 0) = false ∧ (linkOf s 0).keys.nextTx = none ∧
      (linkOf s 0).tx.control = [] ∧ (linkOf s 0).disc = .admitted) ∧
    (∀ s, s = modChron (linkAt inLink 0) 0 (fun x => { x with due := true }) → (chronOf s 0).due = true) ∧
    (∀ s, s = linkAt { inLink with tx := { rollDue := true } } 0 → (chronOf s 0).due = false ∧ (linkOf s 0).tx.rollDue = true) ∧
    (∀ s, s = linkAt { upLink with tx := { creditInitDue := true } } 0 → inService (linkOf s 0) = true ∧ (linkOf s 0).disc ≠ .admitted ∧ mayTransmit s = true ∧
      (linkOf s 0).tx.resend = [] ∧ (linkOf s 0).tx.replay.length < replaySize 0 ∧ (linkOf s 0).tx.creditInitDue = true) ∧
    (∀ s, s = linkAt { inLink with parked := true, peerRoll := some { roll0 with ladder := 2 } } 0 → inService (linkOf s 0) = true ∧ mayTransmit s = true ∧
      peerAsleep (linkOf s 0) = true ∧ (linkOf s 0).keys.nextTx = none) := by
  refine ⟨?_, ?_, ?_, ?_, ?_⟩
  all_goals (rintro s rfl; decide +kernel)

theorem wit_LinkTraining_down :
    (∀ s, s = linkAt { disc := .training, phase := .ts1 } 600000 → (linkOf s 0).disc = .training ∧ (linkOf s 0).phase = .ts1 ∧
      (linkOf s 0).phaseNs + 600000 ≤ s.mer.ns) ∧
    (∀ s, s = linkAt { disc := .training, phase := .ts2, fast := true } 40000 → (linkOf s 0).phase = .ts2 ∧
      (linkOf s 0).phaseNs + (if (linkOf s 0).fast then 40000 else 100000) ≤ s.mer.ns) ∧
    (∀ s, s = withLane 0 { los := true } (linkAt { upLink with width := 1 } 0) → (linkOf s 0).disc ≠ .dark ∧ (linkOf s 0).disc ≠ .training ∧
      ∀ j ∈ lanesIn (linkOf s 0).width, (laneOf s (laneOfPort 0 j)).los = true) := by
  refine ⟨?_, ?_, ?_⟩
  all_goals (rintro s rfl; decide +kernel)

theorem wit_LinkLanes_more :
    (∀ s, s = withLane 3 { los := true } (linkAt { upLink with width := 8 } 0) → inService (linkOf s (portOfLane 3)) = true ∧
      (linkOf s (portOfLane 3)).width = laneBit (3 % 4) ∧ (laneOf s 3).los = true ∧ (linkOf s (portOfLane 3)).lost.getLsbD (3 % 4) = false) ∧
    (∀ s, s = withLane 3 { fecBad := 2, cdrLock := true } (linkAt upLink 0) → peerAsleep (linkOf s (portOfLane 3)) = false ∧ 2 ≤ (laneOf s 3).fecBad ∧
      laneLost s 3 = true) ∧
    laneLost (withLane 3 { cdrLock := true, los := false } (linkAt upLink 0)) 3 = false ∧ ctrlOk 1 = false ∧
    (∀ s, s = linkAt { upLink with released := 8, returning := [(3, 0, some op)] } 2000000 → (linkOf s 0).returning = [(3, 0, some op)] ∧ 0 + 2000000 ≤ s.mer.ns) := by
  refine ⟨?_, ?_, by decide +kernel, by decide +kernel, ?_⟩
  all_goals (rintro s rfl; decide +kernel)

theorem wit_LinkSurvey_more :
    (∀ s, s = linkAt {} 0 → (linkOf s 0).disc = .dark) ∧
    (∀ s, s = linkAt upLink 0 → (linkOf s 0).disc ≠ .admitting ∧ (linkOf s 0).disc ≠ .admitted ∧ ¬((linkOf s 0).disc = .refused ∧ (linkOf s 0).card = some accCard) ∧
      (linkOf s 0).admitReq = true ∧ accCard.admitReq = true ∧ s.ident.skeleton = false ∧ (s.links.filter fun x => x.2.disc = .admitting).length < 16 ∧
      wiringOk s 0 accCard = true ∧ wiringOk s 0 card0 = false) ∧
    (∀ s, s = linkAt inLink 0 → (linkOf s 0).disc = .admitted) ∧ (∀ s, s = linkAt (admitting 1) 0 → (linkOf s 0).disc = .admitting) ∧
    (∀ s, s = linkAt upLink 65535 → roundNo s < (linkOf s 0).upRound + 64) := by
  refine ⟨?_, ?_, ?_, ?_, ?_⟩
  all_goals (rintro s rfl; decide +kernel)

theorem wit_LinkAdmission_more :
    (∀ s, s = linkAt { upLink with disc := .surveyed, card := some accCard } 0 → (linkOf s 0).disc = .surveyed ∧ (linkOf s 0).card = some accCard ∧
      accCard.admitReq = true ∧ (linkOf s 0).admitReq = true ∧ (s.links.filter fun x => x.2.disc = .admitting).length < 16 ∧ s.ident.skeleton = false ∧
      chainFails s 0 accCard [] ≠ none ∧ ([] : List Byte).length ≤ 64 * 232) ∧
    (∀ s, s = linkAt { admitting 3 with adm := { step := 3, finishTag := some 5 } } 0 → (linkOf s 0).adm.step = 3 ∧ peerRevoked s (linkOf s 0) = false ∧
      (linkOf s 0).adm.finishTag = some 5 ∧ ([] : List Byte).take 32 = (linkOf s 0).adm.finish) ∧
    (∀ s, s = linkAt (admitting 3) 0 → (linkOf s 0).adm.finishTag ≠ some 5 ∧ (linkOf s 0).disc = .admitting ∧ (linkOf s 0).adm.step = 3) ∧
    (∀ s, s = linkAt upLink 0 → (linkOf s 0).disc ≠ .admitting ∧ (linkOf s 0).disc ≠ .admitted ∧ (linkOf s 0).disc ≠ .surveyed ∧ (linkOf s 0).admitReq = true) ∧
    (∀ s, s = linkAt { admitting 2 with adm := { step := 2, peerDigests := [zeros 32] } } 0 → ∀ t, t = { s with trust := { s.trust with revoked := [zeros 32] } } →
      (linkOf t 0).disc = .admitting ∧ (linkOf t 0).adm.step = 2 ∧ peerRevoked t (linkOf t 0) = true) := by
  refine ⟨?_, ?_, ?_, ?_, ?_⟩
  case refine_5 => rintro s rfl t rfl; decide +kernel
  all_goals (rintro s rfl; decide +kernel)

theorem wit_LinkRekey_more :
    (∀ s, s = linkAt inLink 0 → (linkOf s 0).disc = .admitted ∧ (linkOf s 0).keys.rekeySince = none ∧
      roundNo s < (linkOf s 0).keys.lastRekey + 2 ^ (linkOf s 0).keys.interval ∧ (linkOf s 0).tx.flitsUnderKey < 2 ^ 36 ∧ (linkOf s 0).tx.unseqUnderKey < 2 ^ 36) ∧
    (∀ s, s = linkAt { inLink with tx := { unseqUnderKey := 2 ^ 36 } } 0 → 2 ^ 36 ≤ (linkOf s 0).tx.unseqUnderKey ∧ (linkOf s 0).keys.rekeySince = none) ∧
    (∀ s, s = linkAt (rekeying false 0) 0 → (linkOf s 0).keys.initiator = false ∧ (linkOf s 0).keys.rekeySince = some 0 ∧ (linkOf s 0).keys.ackGot = false ∧
      s.mer.ns < 0 + 10000000 ∧ (s.mer.ns - (linkOf s 0).keys.switchNs) * 256 < rtt256 s 0 + 128 * 256) ∧
    (linkOf ready 0).disc ≠ .admitted := by
  refine ⟨?_, ?_, ?_, by decide +kernel⟩
  all_goals (rintro s rfl; decide +kernel)

/-! ### Letters and the switching core: the other clauses (05 to 07) -/

/-- The header of a class 6 letter for the module itself. -/
def selfHead : Header := { head01 with dest := srcRef switching, cls := 6, vc := 7, plot := 0 }

theorem wit_HeadsReceived_self : ∀ p, p = fit 236 (letterBytes selfHead (zeros 197)) → ∀ h, h = headerOf ((fit 236 p).take 32) → admitted switching 0 = true ∧
    openLetter switching 0 7 = none ∧ entryCheck switching 0 7 (fit 236 p) = none ∧ switching.pow.ladder = 0 ∧ plotAtEntry switching h 0 = true ∧ h.cls ≠ 2 ∧
    h.cls ≠ 4 ∧ h.mc = false ∧ flitCount h.length ≠ 1 ∧ destIsSelf switching h.dest = true := by
  rintro p rfl h rfl; decide +kernel

theorem wit_HeadsReceived_out : admitted ready 0 = false ∧
    (∀ p, p = fit 236 (flit01 0) → ∀ h, h = headerOf (p.take 32) → ∀ s, s = { switching with pow := { switching.pow with ladder := 1 } } →
      1 ≤ s.pow.ladder ∧ h.cls < 5 ∧ admitted s 0 = true ∧ openLetter s 0 0 = none) ∧
    (∀ p, p = fit 236 (flit01 0) → ∀ h, h = headerOf (p.take 32) → ∀ s, s = { switching with bank := ready.bank } → plotAtEntry s h 0 = false) := by
  refine ⟨by decide +kernel, ?_, ?_⟩
  · rintro p rfl h rfl s rfl; decide +kernel
  · rintro p rfl h rfl s rfl; decide +kernel

set_option maxRecDepth 100000 in
theorem wit_LetterFlits_more : letter01.taken = false ∧
    (∀ l', l' = { letter01 with cells := letter01.cells ++ [{ type := 3, vc := 0, shared := false, payload := fit 236 (zeros 1) }] } →
      l'.cells.length = flitCount letter01.hdr.length ∧ letterGood l' = false) ∧
    tfind ready.sw.lastOne (8 * 0 + 0) = none := by
  refine ⟨rfl, ?_, by decide +kernel⟩
  rintro l' rfl; decide +kernel

theorem wit_DispatcherSlots_more :
    (∀ s, s = ({ ready with sw := { ready.sw with disp := [(2, { mode := 1 })] } } : State) → channelsIn s = [0, 1]) ∧
    ((dispOf ready 0).retireDue = false ∧ (dispOf ready 0).mode ≠ 1) ∧
    (∀ s, s = ({ ready with sw := { ready.sw with disp := [(2, { mode := 1, retires := [0] })] } } : State) →
      (dispOf s 2).retires.getLast? = some 0 ∧ roundNo s ≤ 0) := by
  refine ⟨?_, by decide +kernel, ?_⟩
  all_goals (rintro s rfl; decide +kernel)

def vc7Send : Send := { port := 9, vc := 7, sent := 0, taken := 0, done := false, sess := none, route := none, since := 0 }
def stale7At (n : Nat) : State := { readyAt n with sw := { ready.sw with letters := [(0, { letterP with sends := [vc7Send] })] } }
def copiedAt (n : Nat) : State := { readyAt n with sw := { ready.sw with letters := [(0, { letterP with sends := [copySend] })] } }

theorem wit_SwitchWaits_more :
    (∀ l, l = { letterP with sends := [vc7Send] } → tfind (stale7At 64).sw.letters 0 = some l ∧
      l.sends.find? (fun x => x.port = 9 && x.vc = 7 && x.sent = 0 && !x.done) = some vc7Send ∧ vc7Send.since + 64 ≤ roundNo (stale7At 64) ∧
      roundNo (stale7At 63) < vc7Send.since + 64) ∧
    ((128, 5) ∉ ready.sw.fallen) ∧ roundNo (copiedAt 3) < creditSince (copiedAt 3) copySend.port + 4 ∧
    (∀ s, s = { noticeAt with mer := (readyAt 3).mer } → roundNo s < 0 + 4) ∧ tfind ready.route.notices 2 = none ∧
    sameScope ⟨1, 0, 4, 9, 0, 0⟩ ⟨1, 1, 4, 9, 0, 0⟩ = false := by
  refine ⟨?_, by decide +kernel, by decide +kernel, ?_, by decide +kernel, by decide +kernel⟩
  · rintro l rfl; decide +kernel
  · rintro s rfl; decide +kernel

theorem wit_ReorderStreams_more :
    (∀ s l, l = arrived 1 → s = reordering 1 (reorderKey l.hdr) (stream (some 2) [] none) l 0 → streamOf s 1 (reorderKey l.hdr) = some (stream (some 2) [] none) ∧
      4096 ≤ (l.hdr.sseq + 65536 - 2) % 65536) ∧
    (∀ l, l = arrived 3 → (l.hdr.sseq + 65536 - 2) % 65536 = 1 ∧ ∃ y ∈ (stream (some 2) [heldAt 3] (some 0)).held, y.sseq = l.hdr.sseq) ∧
    (∀ s l, l = arrived 1 → s = reordering 1 (reorderKey l.hdr) (stream none [] none) l 0 → streamOf s 1 (reorderKey l.hdr) = some (stream none [] none) ∧
      holdPlace s 1 l.cells.length = some false) ∧
    (∀ y ∈ (stream none [] none).held, y.sseq ≠ 1) ∧ streamOf ready 1 7 = none ∧
    (∀ s, s = reordering 1 7 (stream none [heldAt 3] none) (arrived 3) 0 → roundNo s < 0 + 1) ∧ holdPlace ready 1 65537 = none ∧
    (∀ s, s = reordering 1 7 (stream (some 65535) [heldAt 1] (some 0)) (arrived 3) 0 → roundNo s < 0 + s.bank.regs.gapTimeout) := by
  refine ⟨?_, ?_, ?_, by simp [stream], by decide +kernel, ?_, by decide +kernel, ?_⟩
  · rintro s l rfl rfl; decide +kernel
  · rintro l rfl; exact ⟨by decide, heldAt 3, by simp [stream], rfl⟩
  · rintro s l rfl rfl; decide +kernel
  · rintro s rfl; decide +kernel
  · rintro s rfl; decide +kernel

/-! ### Host port, boxes and the Triad: the other clauses (10 to 12) -/

theorem wit_CxlPort_more : ready.cxl.mode = 0 ∧ cxlUp ready = false ∧ tfind ready.cxl.uio 5 = none ∧ (uioAt 999999).mer.ns < uio0.startNs + 1000000 ∧
    ((zeros 8).length = 8 ∧ 0 % (zeros 8).length = 0 ∧ 0 < 0x2000) ∧ 4 < 5 := by decide +kernel

theorem wit_CaptureRing_more :
    ready.capture.partialSince = none ∧ roundNo ready < 0 + 1 ∧ ready.capture.records.takeWhile (recordDone ready) = [] ∧ ready.capture.adcBusy = false ∧
    ready.capture.adcWait = none ∧ (∀ s, s = { ready with pow := { ready.pow with ladder := 2 } } → Runs op 0x801 s ∧ 2 ≤ s.pow.ladder) ∧
    (∀ s, s = withLane 0 { claim := .echo } ready → Runs op 0x801 s ∧ s.pow.ladder < 2 ∧ s.capture.adcBusy = false ∧ (laneOf s 0).claim ≠ .none) ∧
    (∀ s, s = captureAs 3 (fun x => { x with adcWait := some (0, []) }) → s.capture.adcWait = some (0, []) ∧ roundNo s < 0 + 4) := by
  unfold Runs
  refine ⟨?_, ?_, ?_, ?_, ?_, ?_, ?_, ?_⟩
  all_goals first | decide +kernel | (rintro s rfl; decide +kernel)

/-- A letter held in the spill area of half 1. -/
def spilledStream : Stream := stream (some 0) [{ heldAt 3 with spilled := true }] (some 0)
def busyHalf : State := memAs { state := 1, claims := [⟨true, 0, 0⟩] } ready

theorem wit_MemoryHalves_more :
    (∀ s, s = reordering 0 7 spilledStream (arrived 3) 0 → (spilledAt s 0)[0]? = some (7, { heldAt 3 with spilled := true }) ∧ streamOf s 0 7 = some spilledStream) ∧
    (∀ s, s = (captureAs 0 fun x => { x with records := [⟨1, 0, 256, false, 0⟩] }) →
      s.capture.records.find? (fun r => r.kind ≠ 0 && r.seq = 0) = some ⟨1, 0, 256, false, 0⟩) ∧
    (2 ≤ 2 ∧ 0 < scratchBase ready 0 ∧ 0 < ringBase) ∧
    (Runs op 0x805 busyHalf ∧ (memOf busyHalf 0).state = 1 ∧ 1 ≤ 4096 ∧ scratchBase busyHalf 0 + 4096 ≤ scratchBase busyHalf 0 + gib ∧
      ∃ m ∈ (memOf busyHalf 0).claims, m.whole = true ∨ (scratchBase busyHalf 0 < m.lo + m.len ∧ m.lo < scratchBase busyHalf 0 + 4096)) := by
  unfold Runs
  refine ⟨?_, ?_, ?_, ?_⟩
  all_goals first | decide +kernel | (rintro s rfl; decide +kernel)

theorem wit_PartsArrive_more :
    (∀ s, s = { ready with ident := { ready.ident with boot := 0 } } → boxesOpen s (.hb 0) = false) ∧ cxlUp ready = false ∧ (boxOf ready (boxNo (.hb 0))).assembly = none ∧
    (∀ s, s = modBox (readyAt (2 ^ 20 - 1)) 0 (fun x => { x with assembly := some asm0 }) → (boxOf s (boxNo (.hb 0))).assembly = some asm0 ∧
      roundNo s < asm0.lastRound + 2 ^ 20) ∧ (3 ≠ 4 ∧ 3 ≠ 5) := by
  refine ⟨?_, ?_, ?_, ?_, ?_⟩
  all_goals first | decide +kernel | (rintro s rfl; decide +kernel)

theorem wit_TimerSet_more : tfind ready.pm.timers 3 = none ∧
    (∀ s, s = { readyAt 4 with pm := { ready.pm with timers := [(3, ⟨.capture, 5, 0⟩)] } } → tfind s.pm.timers 3 = some ⟨.capture, 5, 0⟩ ∧ roundNo s < 5) := by
  refine ⟨?_, ?_⟩
  all_goals first | decide +kernel | (rintro s rfl; decide +kernel)

theorem wit_TriadVoting_more :
    (pmAs 0 fun x => { x with noneMode := true }).pm.noneMode = true ∧ triadMode (pmAs 0 fun x => { x with noneMode := true }) = .none ∧
    triadMode ready ≠ .duplex ∧ ready.pm.diagnosing = false ∧ (chanOf ready 0).inService = true ∧ (chanOf ready 0).stage ≠ 1 ∧
    copySource (pmAs 0 fun x => { x with diagnosing := true }) = false ∧
    (∀ s, s = (pmAs 0 fun x => { x with chans := [(0, { verified := true }), (1, { verified := true }), (2, { inService := false, stage := 2 })] }) →
      (chanOf s 2).stage = 2 ∧ copySource s = true) ∧
    (∀ s, s = (pmAs 0 fun x => { x with chans := [(0, { verified := true }), (1, { verified := true }), (2, { inService := false, stage := 3 })] }) →
      (chanOf s 2).stage = 3 ∧ copySource s = true) := by
  refine ⟨?_, ?_, ?_, ?_, ?_, ?_, ?_, ?_, ?_⟩
  all_goals first | decide +kernel | (rintro s rfl; decide +kernel)

theorem wit_PostmasterRestarts_more : ready.pm.restartDue = false ∧ triadRuns (pmAs 0 fun x => { x with absent := true }) = false := by decide +kernel

theorem wit_RollCall_more :
    (ready.pm.healthDue = false ∧ roundNo ready < ready.pm.healthSentRound + 64) ∧ (linkOf ready 0).disc ≠ .admitted ∧
    ready.mer.ns < ready.tray.rollNs + 500000 ∧ ready.mer.ns < ready.tray.aliveNs + 100000000 ∧ parks rollLeaving = true ∧
    (∀ s, s = linkAtRound 0 { heardLink with parkDue := true, peerRoll := some roll0 } 1 → (linkOf s 0).parkDue = true ∧ (linkOf s 0).peerRoll = some roll0 ∧
      (linkOf s 0).disc = .admitted ∧ (linkOf s 0).rollRound = some 0 ∧ parks roll0 = false) := by
  refine ⟨?_, ?_, ?_, ?_, ?_, ?_⟩
  all_goals first | decide +kernel | (rintro s rfl; decide +kernel)

theorem wit_TrayLead_more :
    ready.pm.role ≠ .standby ∧ ready.pm.takeoverDue = false ∧ leadYields ready = false ∧ ready.pm.absentSince = none ∧
    (ready.pm.accLost.getLsbD 0 = false) ∧ pathSilent ready 1 = false ∧ pathSilent ready 2 = false ∧ ready.mer.ns < ready.pm.rackHeard + 2000000000 ∧
    ready.pm.standing = false ∧ (standby 0 fun x => { x with takeoverDue := true }).pm.lostRound = 0 ∧
    (∀ s, s = (standby 1 fun x => { x with takeoverDue := true }) → s.pm.role = .standby ∧ s.ident.skeleton = false ∧ s.pm.takeoverDue = true ∧
      s.pm.lostRound < roundNo s) ∧
    (∀ s, s = (standby 0 fun x => { x with partnerRoll := some { roll0 with lead := true, skeleton := true } }) → s.pm.role = .standby ∧ leadYields s = true) := by
  refine ⟨?_, ?_, ?_, ?_, ?_, ?_, ?_, ?_, ?_, ?_, ?_, ?_⟩
  all_goals first | decide +kernel | (rintro s rfl; decide +kernel)

/-! ### Power, trust, clocks and tray: the other clauses (13 to 18) -/

theorem wit_CapsAndRamps_more :
    (Runs op 0x600 (standingOn ready) ∧ (standingOn ready).pm.standing = true ∧ isHb op.box = true) ∧
    (capFields 0 0 100 = none ∧ 1 ≠ 0 ∧ 1 < roundNo ready + 2 ∧ roundNo ready + 2 ≤ 2 ∧ ready.mer.timed = false) ∧
    (cap0.scope ≠ 0 ∧ ({ cap0 with term := 3 } : TrayCap).term > 2) ∧ ready.pm.trayCaps.find? (fun y => y.1 = cap0) = none ∧
    ready.pm.trayCaps.find? (fun y => y.1.tag = 9 && roundNo ready ≥ y.2.1 + 2) = none ∧
    (∀ s, s = (pmAs 2 fun x => { x with trayCaps := [(cap0, 0, some op)] }) → s.pm.trayCaps.find? (fun y => y.1 = cap0) = some (cap0, 0, some op)) ∧
    admitted ready (homeBase ready + 3) = false ∧ (accOf (capAt 0 {}) 3).letter = [] ∧ (accOf (capAt 0 { acked := true }) 3).acked = true ∧
    roundNo ready < (accOf ready 3).refreshRound + 16384 ∧
    (∀ s, s = capAt 1024 { letter := zeros 64, resends := 3, unacked := true } → sendsCaps s = true ∧ (accOf s 3).acked = false ∧ (accOf s 3).letter ≠ [] ∧
      3 ≤ (accOf s 3).resends ∧ (accOf s 3).unacked = true ∧ (accOf s 3).sentRound + max 1024 s.bank.regs.capAckTimeout ≤ roundNo s) ∧
    (∀ s, s = (powAs 1 fun x => { x with hi := 200000000, suppress := 1, belowSince := some 0 }) → ((174 * 1000000 + 26000000 : Nat) : Int) ≤ s.pow.hi ∧
      s.pow.belowSince = some 0 ∧ 0 + 1024 ≤ s.mer.ns ∧ 0 < s.pow.suppress ∧ s.pow.duty = 0) ∧
    (∀ s, s = (powAs 1 fun x => { x with hi := 200000000, duty := 1, belowSince := some 0 }) → s.pow.suppress = 0 ∧ 0 < s.pow.duty) ∧
    (∀ s, s = (powAs 0 fun x => { x with hi := 200000000, belowSince := some 0 }) → s.mer.ns < 0 + 1024 ∧ ((200 * 1000000 : Nat) : Int) ≤ s.pow.hi ∧
      s.pow.hi < ((200 * 1000000 + 26000000 : Nat) : Int)) ∧
    ready.pow.belowSince = none ∧ ready.pow.overSince = none ∧ (Runs op 0x602 ready ∧ ready.mer.timed = false ∧ rampBad ready 0 0 [ramp0 2] = none) ∧
    (rampBad ready 0 0 [ramp0 1] ≠ none ∧ 64 < (List.replicate 65 (ramp0 2)).length) ∧ ready.pow.sched = [] ∧ ready.pow.schedMoving = false := by
  unfold Runs
  refine ⟨?_, ?_, ?_, ?_, ?_, ?_, ?_, ?_, ?_, ?_, ?_, ?_, ?_, ?_, ?_, ?_, ?_, ?_, ?_, ?_⟩
  all_goals first | decide +kernel | (rintro s rfl; decide +kernel)

theorem wit_LadderAndProtection_more :
    (∀ s, s = (powAs 0 fun x => { x with timedLadder := some (4, 1) }) → s.pow.timedLadder = some (4, 1) ∧ roundNo s < 1) ∧ ready.pow.timedLadder = none ∧
    ready.pow.move = none ∧
    (∀ s, s = moving 0 1 (some 0) false 0 → s.pow.move = some ⟨1, 0, some 0, false⟩ ∧ (⟨1, 0, some 0, false⟩ : LadderMove).leavingRound ≠ none) ∧
    52000 ≤ 52000 ∧ ready.pow.coolant = 0 ∧ (ready.pow.droop52 = false ∧ ready.pow.droop48 = false) ∧ ready.pow.thermal = false ∧
    (3000 ≤ 4000 ∧ (20 : Int) ≤ (ready.bank.regs.coolTMax : Int) ∧ 2 > 1) ∧ votedTemp ready 0 [20, 20, 20] 20 ≤ 115 ∧ 54000 ≤ 54000 ∧
    (∀ s, s = (powAs 0 fun x => { x with droop52 := true }) → roundNo s < s.pow.droopRound + 1024) := by
  refine ⟨?_, ?_, ?_, ?_, ?_, ?_, ?_, ?_, ?_, ?_, ?_, ?_⟩
  all_goals first | decide +kernel | (rintro s rfl; decide +kernel)

theorem wit_TelemetryAndDiagnostics_more :
    62 < 63 ∧ (1 ≤ 63 ∧ 63 < 64) ∧ 507 < 508 ∧ ready.tele.snapArmed = none ∧ 255 < 256 ∧ 15 < 16 ∧ (detailOf ready 0).running = false ∧
    (∀ s, s = teleAs 0 (fun x => { x with details := [(0, { detail0 with port := 255 })] }) → detailPhase s 255 ≠ none ∧
      s.tele.details.any (fun x => detailTaken x.2 && x.2.port = 255) = true ∧ Runs op 0x703 s) ∧
    (2 < 3 ∧ 1023 < 1024 ∧ 2 ≤ 2 ∧ 4 ≤ 4) ∧ pcEn (pcntOf ready 0) = false ∧ (∀ v : Word64, v = 0x90 → 9 ≤ bitsOf v.toNat 7 4 ∧ bitsOf v.toNat 7 4 ≤ 14) ∧
    (∀ s, s = { ready with bank := { ready.bank with copy := [(3, { copy0 with mport := 15 })] } } → Runs op 0x804 s ∧ copyHolder s.bank 15 = some 3) := by
  unfold Runs
  refine ⟨?_, ?_, ?_, ?_, ?_, ?_, ?_, ?_, ?_, ?_, ?_, ?_⟩
  all_goals first | (rintro s rfl; decide +kernel) | decide +kernel

theorem wit_ClocksAndResets_more :
    (∀ i, i ≤ 3 → (srcOf ready i).lostEdges = false) ∧ ready.clk.xtalFailed = false ∧ inBand 2 ([0, 16000, 0, 0, 0].getD 2 0) = false ∧
    inBand 1 ([0, 16000, 0, 0, 0].getD 1 0) = true ∧ 3 < 4 ∧ (clkAs fun x => { x with xtalFailed := true }).clk.xtalFailed = true ∧
    (clkAs fun x => { x with coreChosen := true }).clk.coreChosen = true ∧ (Runs op 0x801 ready ∧ ready.clk.xtalSrc < 3 ∧ ready.clk.coreSrc < 3) ∧
    (∃ t, t < 3 ∧ t ≠ ready.clk.xtalSrc ∧ selRefused ready ready.clk.holdXtal (if t = 0 then 1 else if t = 1 then 2 else 0) 0 = true) := by
  unfold Runs
  refine ⟨?_, ?_, ?_, ?_, ?_, ?_, ?_, ?_, ?_⟩
  all_goals decide +kernel

theorem wit_TrayAndSideband_more :
    (pullActs (startAs .keep id) = false ∧ (startAs .keep id).tray.start ≠ .charging) ∧ ready.tray.pull ≠ 2 ∧ ready.tray.journalPending = [] ∧ ready.tray.bbGathered = [] ∧
    ready.tray.start ≠ .charging ∧ (∀ s, s = startAs .running id → ∀ t, t = { s with clk := { s.clk with pwrReset := true } } → t.tray.start = .running ∧ t.clk.pwrReset = true) ∧
    3 < 4 ∧
    (∀ s, s = startAs .keep (fun x => { x with permitWait := some (7, 1000000) }) → s.mer.ns < 1000000) ∧ 65999 ≤ 66000 := by
  refine ⟨?_, ?_, ?_, ?_, ?_, ?_, ?_, ?_, ?_⟩
  case refine_6 => rintro s rfl t rfl; decide +kernel
  all_goals first | decide +kernel | (rintro s rfl; decide +kernel)

/-- R283, R248: protection first, then letter spill and mailbag spill in turn by units of 4 KiB, then diagnostics. -/
theorem test_memory_order :
    (serveBytes (fun _ => 1) 9 8448 { waiting := [⟨2, 0, 64⟩, ⟨1, 0, 8192⟩, ⟨1, 1, 8192⟩, ⟨0, 0, 256⟩] }).waiting =
      [⟨2, 0, 64⟩, ⟨1, 0, 4096⟩, ⟨1, 1, 4096⟩] := by
  decide +kernel

theorem wit_MemoryHalves_order :
    (∃ r ∈ (serveBytes (fun _ => 1) 9 100 { waiting := [⟨2, 0, 64⟩, ⟨0, 0, 256⟩] }).waiting, r.cls < 1) ∧
    ∀ s, s = modMem ready 0 (fun m => { m with waiting := [⟨1, 0, 256⟩] }) →
      ringTier s = none ∧ ∃ r ∈ (memOf s s.bank.regs.captureHalf).waiting, r.cls < 3 := by
  refine ⟨by decide +kernel, ?_⟩
  rintro s rfl; decide +kernel

/-- R77, R78: seeded from received bits, the checker locks after 128 bits free of error and counts from then on. -/
theorem test_prbs_heard :
    let x := checkHeard (List.replicate 7 3) 200 [] { chkEn := true, pattern := 0 }
    x.chkLock = true ∧ x.bits = 72 ∧ x.errs = 0 := by
  decide +kernel

end Sys2Proof.Tests
end

/-! PROOFS. What queueing a message of the link layer, refusing an admission and ADMIT_KEY do (R112, R113). -/

namespace Sys2Proof.Machine

section
variable {s t : State}

/-! ### Reporting and the links -/

/-- Counting and reporting leave the links as they were. -/
theorem Reports.links_eq (h : Reports s t) : t.links = s.links := by
  unfold Reports at h
  rw [h]

theorem Reports.linkOf_eq (h : Reports s t) (q : Nat) : linkOf t q = linkOf s q :=
  congrArg (fun l => tget ({} : Link) l q) h.links_eq

/-- A change of the links alone, followed by a report, differs from the first state in the links and in what reports write. -/
theorem Reports.of_links_only (hf : s = { t with links := s.links }) {u : State} (h : Reports s u) : Reports { t with links := u.links } u := by
  rwa [h.links_eq, ← hf]

/-- A link changed is a change of that link alone. -/
theorem modLink_linkOnly (p : Nat) (f : Link → Link) (s : State) : LinkOnly p s (modLink s p f) :=
  ⟨rfl, fun _ hq => linkOf_modLink_ne s f hq⟩

theorem LinkOnly.trans {p : Nat} {u : State} (h : LinkOnly p s t) (g : LinkOnly p t u) : LinkOnly p s u := by
  obtain ⟨hst, hs⟩ := h
  obtain ⟨htu, ht⟩ := g
  refine ⟨?_, fun q hq => (ht q hq).trans (hs q hq)⟩
  rw [hst] at htu
  exact htu

/-! ### Messages queued -/

/-- Messages queued go behind those that wait, and nothing else of the link changes. -/
@[simp] theorem linkOf_queueMgmt_self (p : Nat) (fs : List Flit) (s : State) :
    linkOf (queueMgmt p fs s) p = { linkOf s p with tx := { (linkOf s p).tx with mgmt := (linkOf s p).tx.mgmt ++ fs } } :=
  linkOf_modLink_self ..

theorem queueMgmt_linkOnly (p : Nat) (fs : List Flit) (s : State) : LinkOnly p s (queueMgmt p fs s) :=
  modLink_linkOnly p (fun l => { l with tx := { l.tx with mgmt := l.tx.mgmt ++ fs } }) s

/-! ### An admission refused (R112) -/

/-- The link of a refused admission: REFUSED, its secrets and keys erased. -/
theorem linkOf_refuseAdmission_self (p step check : Nat) (st : Status) (s : State) :
    linkOf (refuseAdmission p step check st s) p = { linkOf s p with disc := .refused, refusedNs := s.mer.ns, adm := {}, keys := {} } := by
  unfold refuseAdmission
  exact ((reportSt_reports ..).linkOf_eq p).trans (linkOf_modLink_self ..)

/-- Beside the link, a refused admission touches what its event writes. -/
theorem refuseAdmission_reports (p step check : Nat) (st : Status) (s : State) :
    Reports { s with links := (refuseAdmission p step check st s).links } (refuseAdmission p step check st s) := by
  unfold refuseAdmission
  exact .of_links_only (modLink_linkOnly p _ s).1 (reportSt_reports ..)

/-- ABORT leaves and the admission is refused: how R112 ends a step whose message fails. -/
theorem refuseAdmission_sendAbort (p step check : Nat) (st : Status) (s : State) (ht : t = refuseAdmission p step check st (sendAbort p s)) :
    (linkOf t p).disc = .refused ∧ (linkOf t p).adm = {} ∧ (linkOf t p).keys = {} ∧
      (linkOf t p).tx.mgmt = (linkOf s p).tx.mgmt ++ admitFlits 6 [] ∧ Reports { s with links := t.links } t := by
  subst ht
  have hr := refuseAdmission_reports p step check st (sendAbort p s)
  rw [show sendAbort p s = { s with links := (sendAbort p s).links } from (queueMgmt_linkOnly ..).1] at hr
  rw [linkOf_refuseAdmission_self, sendAbort, linkOf_queueMgmt_self]
  exact ⟨rfl, rfl, rfl, rfl, hr⟩

end

/-! ### ADMIT_KEY (R112 steps 3–5) -/

/-- This end of port `p` is L (R112). -/
def ownLow (s : State) (p : Nat) : Bool := isLow (((linkOf s p).card.map (·.idDigest)).getD [])

/-- The peer's secret: opened where its signature over the two HELLOs verifies (R112). -/
def openedSecret (low : Bool) (a : Adm) (cipher sig : List Byte) : Option (List Byte) :=
  if Config.rsaVerify a.peerExp a.peerModulus (lowHigh low a.helloOwn a.helloPeer) sig then Config.oaepOpen cipher else none

/-- M1 (label 1) and M2 (label 2) of R113. -/
def derivation (label : Byte) (low : Bool) (a : Adm) (secret keyPeer : List Byte) : List Byte :=
  sha ([label] ++ (lowHigh low a.sOwn (fit 32 secret) ++ lowHigh low a.rOwn a.rPeer ++ transcript low a keyPeer))

/-- A link with the keys of R113: each end sends under the key of its own direction, L-to-H from M1 and H-to-L from M2. -/
def keyedLink (now interval : Nat) (low : Bool) (secret keyPeer : List Byte) (l : Link) : Link :=
  let m1 := derivation 1 low l.adm secret keyPeer
  let m2 := derivation 2 low l.adm secret keyPeer
  let mt := if low then m1 else m2
  let mr := if low then m2 else m1
  { l with
    keyPhaseTx := false, keyPhaseRx := false
    tx := { l.tx with flitsUnderKey := 0, unseqUnderKey := 0 }
    keys := { tx := keyOf mt, saltTx := saltOf mt, rx := keyOf mr, saltRx := saltOf mr, chain := (m1.drop 36).take 28, interval := interval }
    adm := { step := 3, stepNs := now, peerDigests := l.adm.peerDigests, finish := (transcript low l.adm keyPeer).take 32 } }

section
variable {s : State} {p : Nat} {cipher sig : List Byte}

/-- A KEY out of its step changes nothing. -/
theorem admitKey_of_out_of_step (h : (linkOf s p).disc ≠ .admitting ∨ (linkOf s p).adm.step ≠ 2) : admitKey p cipher sig s = s := by
  unfold admitKey
  exact if_pos (by simpa using h)

variable (hd : (linkOf s p).disc = .admitting) (hs : (linkOf s p).adm.step = 2)
include hd hs

/-- A KEY of a revoked peer is refused (R363). -/
theorem admitKey_of_revoked (hr : peerRevoked s (linkOf s p) = true) :
    admitKey p cipher sig s = refuseAdmission p 4 8 .refusedSignature (sendAbort p s) := by
  simp [admitKey, hd, hs, hr]

/-- A KEY whose signature fails or whose secret does not open is refused. -/
theorem admitKey_of_unopened (hr : peerRevoked s (linkOf s p) = false) (ho : openedSecret (ownLow s p) (linkOf s p).adm cipher sig = none) :
    admitKey p cipher sig s = refuseAdmission p 4 0 .refusedSignature (sendAbort p s) := by
  unfold openedSecret ownLow at ho
  simp [admitKey, hd, hs, hr, ho]

/-- A KEY whose secret opens gives the link its keys, and FINISH leaves. -/
theorem admitKey_of_opened {x : List Byte} (hr : peerRevoked s (linkOf s p) = false)
    (ho : openedSecret (ownLow s p) (linkOf s p).adm cipher sig = some x) :
    admitKey p cipher sig s = queueMgmt p (admitFlits 3 ((transcript (ownLow s p) (linkOf s p).adm (cipher ++ sig)).take 32))
      (modLink s p (keyedLink s.mer.ns s.bank.regs.rekeyLog2 (ownLow s p) x (cipher ++ sig))) := by
  unfold openedSecret ownLow at ho
  unfold ownLow
  simp only [admitKey, hd, hs, hr, ho]
  cases isLow (((linkOf s p).card.map (·.idDigest)).getD []) <;> rfl

end

/-- Settles O26: one equation of ADMIT_KEY per case, and what the state of each holds. -/
theorem admissionKeys : Obligations.AdmissionKeys := by
  unfold Obligations.AdmissionKeys
  refine ⟨fun s p cipher sig h => ?_, fun s p cipher sig hd hs hr => ?_, ?_⟩
  · exact congrArg Host.Outcome.next (admitKey_of_out_of_step h)
  · exact ⟨admitKey p cipher sig s, rfl, refuseAdmission_sendAbort p 4 8 _ s (admitKey_of_revoked hd hs hr)⟩
  · rintro s p cipher sig a low rfl rfl hd hs hr
    refine ⟨admitKey p cipher sig s, rfl, ?_⟩
    split
    case h_1 ho => exact refuseAdmission_sendAbort p 4 0 _ s (admitKey_of_unopened hd hs hr ho)
    case h_2 x ho =>
      rw [admitKey_of_opened hd hs hr ho, linkOf_queueMgmt_self, linkOf_modLink_self]
      exact ⟨transcript (ownLow s p) _ (cipher ++ sig), derivation 1 (ownLow s p) _ x (cipher ++ sig), derivation 2 (ownLow s p) _ x (cipher ++ sig), rfl, rfl, rfl, rfl, rfl, rfl, rfl, rfl, rfl, rfl, rfl, hd, rfl,
        (modLink_linkOnly ..).trans (queueMgmt_linkOnly ..)⟩

end Sys2Proof.Machine

/-! PROOFS. The alerts raised and acknowledged, and ALERT_N (R342). -/

namespace Sys2Proof.Machine

/-! ### ALERT_N and the alerts raised -/

/-- ALERT_N is deasserted where no alert waits for its acknowledgement. -/
theorem alertN_eq_false_iff (s : State) : alertN s = false ↔ ∀ a, a ∉ s.gmi.alerts := by
  rw [alertN, Bool.not_eq_false', List.isEmpty_iff, List.eq_nil_iff_forall_not_mem]

theorem alertN_of_mem {s : State} {a : Nat × Nat} (h : a ∈ s.gmi.alerts) : alertN s = true :=
  Bool.eq_true_of_not_eq_false fun hn => (alertN_eq_false_iff s).1 hn a h

@[simp] theorem raiseVec_gmi (v : Nat) (s : State) : (raiseVec v s).gmi = s.gmi := by
  unfold raiseVec
  split <;> rfl

@[simp] theorem raiseVec_mer (v : Nat) (s : State) : (raiseVec v s).mer = s.mer := by
  unfold raiseVec
  split <;> rfl

/-- An alert raised replaces those of its code, and carries the present Round. -/
theorem raiseAlert_alerts (code : Nat) (s : State) :
    (raiseAlert code s).gmi.alerts = s.gmi.alerts.filter (·.1 ≠ code) ++ [(code, roundNo s)] := by
  unfold raiseAlert
  dsimp only
  split
  · rfl
  · rw [raiseVec_gmi]

theorem mem_raiseAlert (code : Nat) (s : State) : (code, roundNo s) ∈ (raiseAlert code s).gmi.alerts := by
  rw [raiseAlert_alerts]
  exact List.mem_append_right _ (List.mem_singleton_self _)

/-- An event above a report ends by raising its alert, in the Round in which it is posted. -/
theorem putEvent_raises {e : Event} (s : State) (h : e.severity ≠ 0) :
    ∃ t, roundNo t = roundNo s ∧ (putEvent e s).2 = raiseAlert e.code t := by
  unfold putEvent
  dsimp only
  rw [if_neg h]
  refine ⟨_, ?_, rfl⟩
  unfold roundNo
  split
  · rfl
  · rw [raiseVec_mer]

/-- The alert of an event above a report is raised in the present Round. -/
theorem mem_putEvent_alerts {e : Event} (s : State) (h : e.severity ≠ 0) : (e.code, roundNo s) ∈ (putEvent e s).2.gmi.alerts := by
  obtain ⟨t, hround, ht⟩ := putEvent_raises s h
  rw [ht, ← hround]
  exact mem_raiseAlert e.code t

/-! ### ALERT_ACK -/

/-- ALERT_ACK of `code` acknowledges the alert `a`: it names its code, or all, and the alert is of an earlier Round (R342). -/
def Acknowledges (code : Nat) (s : State) (a : Nat × Nat) : Prop := (code = 0xFFFF ∨ a.1 = code) ∧ a.2 ≠ roundNo s

/-- The alerts that stay are those not acknowledged. -/
theorem mem_ackAlerts (code : Nat) (s : State) (a : Nat × Nat) :
    a ∈ (ackAlerts code s).post.gmi.alerts ↔ a ∈ s.gmi.alerts ∧ ¬ Acknowledges code s a := by
  simp only [ackAlerts, okAns, Acknowledges, List.mem_filter, Bool.not_eq_true', Bool.and_eq_false_iff, Bool.or_eq_false_iff, decide_eq_false_iff_not,
    not_and_or, not_or]

/-- ALERT_N deasserts exactly when every alert raised is acknowledged. -/
theorem alertN_ackAlerts_eq_false_iff (code : Nat) (s : State) :
    alertN (ackAlerts code s).post = false ↔ ∀ a ∈ s.gmi.alerts, Acknowledges code s a := by
  simp only [alertN_eq_false_iff, mem_ackAlerts, not_and, not_not]

/-- A response without bytes fits every box. -/
theorem fits_zero (c : Ctx) : Fits c 0 := by
  unfold Fits boxLimit
  split <;> decide

/-- An ALERT_ACK that runs completes with OK. -/
theorem alertAck_completes (c : Ctx) (code : Nat) (s : State) : Completes c 5 (.alertAck c code) (ackAlerts code s) s :=
  fun h => congrArg Host.Outcome.next (gmiRun_of_runs h (fits_zero c) rfl)

/-- Settles O8: the alert that an event leaves among those raised keeps ALERT_N asserted, and ALERT_ACK keeps the alerts that it does not acknowledge. -/
theorem alertsAcknowledged : Obligations.AlertsAcknowledged := by
  unfold Obligations.AlertsAcknowledged
  refine ⟨fun e s h => ?_, fun c code s => ⟨(ackAlerts code s).post, alertAck_completes c code s, mem_ackAlerts code s,
    alertN_ackAlerts_eq_false_iff code s, rfl⟩⟩
  have raised := mem_putEvent_alerts s (e := e) (by omega)
  exact ⟨alertN_of_mem raised, raised⟩

end Sys2Proof.Machine

/-! PROOFS. What FW_WRITE writes: the slot that is not ACTIVE, its bytes and its state (R351). -/

namespace Sys2Proof.Machine

/-! ### A firmware slot changed -/

@[simp] theorem slot0_setFw (k : Nat) (f : FwSlot) (s : State) : (setFw k f s).trust.slot0 = if k = 0 then f else s.trust.slot0 := by
  unfold setFw
  by_cases hk : k = 0 <;> simp only [hk, if_true, if_false] <;> split <;> rfl

@[simp] theorem slot1_setFw (k : Nat) (f : FwSlot) (s : State) : (setFw k f s).trust.slot1 = if k = 0 then s.trust.slot1 else f := by
  unfold setFw
  by_cases hk : k = 0 <;> simp only [hk, if_true, if_false] <;> split <;> rfl

theorem fwSlot_setFw_self (k : Nat) (f : FwSlot) (s : State) : fwSlot (setFw k f s) k = f := by
  by_cases hk : k = 0 <;> simp [fwSlot, hk]

theorem fwSlot_setFw_other {j k : Nat} (f : FwSlot) (s : State) (h : ¬ (j = 0 ↔ k = 0)) : fwSlot (setFw k f s) j = fwSlot s j := by
  by_cases hj : j = 0 <;> simp_all [fwSlot]

/-- A slot changed touches the two slots and the generation numbers of the Seal area, and nothing else (R345). -/
theorem setFw_frame (k : Nat) (f : FwSlot) (s : State) : setFw k f s = { s with trust := { s.trust with
    slot0 := (setFw k f s).trust.slot0, slot1 := (setFw k f s).trust.slot1, copies := (setFw k f s).trust.copies } } := by
  unfold setFw
  by_cases hk : k = 0 <;> simp only [hk, if_true, if_false] <;> split <;> rfl

/-! ### The inactive slot -/

theorem inactiveSlot_le_one (s : State) : inactiveSlot s ≤ 1 := by
  unfold inactiveSlot; split <;> omega

/-- Where the two slots are not both ACTIVE, the slot that FW_WRITE writes is not. -/
theorem inactiveSlot_not_active {s : State} (h : s.trust.slot0.state ≠ .active ∨ s.trust.slot1.state ≠ .active) :
    (fwSlot s (inactiveSlot s)).state ≠ .active := by
  by_cases h0 : s.trust.slot0.state = .active
  · simpa [fwSlot, inactiveSlot, h0] using h
  · simp [fwSlot, inactiveSlot, h0]

/-! ### The slot that a write leaves -/

/-- A slot as a write at an offset finds it: erased at OFFSET 0, and no longer VERIFIED. -/
def preparedSlot (o : Nat) (f : FwSlot) : FwSlot :=
  if o = 0 then { state := .written } else { f with state := if f.state = .verified then .written else f.state }

/-- A slot after a write. -/
def writtenSlot (o : Nat) (l : List Byte) (f : FwSlot) : FwSlot :=
  { preparedSlot o f with
    written := max (preparedSlot o f).written (o + l.length), bytes := mwrite (preparedSlot o f).bytes o l,
    patched := if (preparedSlot o f).factory then (preparedSlot o f).patched ++ [(o, l.length)] else [] }

/-- Over a slot of manufacture the bytes written count as patched, and in any other only the bytes stored are read. -/
theorem fwByte_writtenSlot {o a : Nat} {l : List Byte} (f : FwSlot) (h : o ≤ a) (h' : a < o + l.length) :
    fwByte (writtenSlot o l f) a = l.getD (a - o) 0 := by
  have stored : mget (mwrite (preparedSlot o f).bytes o l) a = l.getD (a - o) 0 := by
    have := mget_mwrite_in (preparedSlot o f).bytes o (a - o) l (by omega)
    rwa [Nat.add_sub_cancel' h, ← List.getD_eq_getElem l 0] at this
  by_cases hf : (preparedSlot o f).factory <;> simp [fwByte, writtenSlot, hf, h, h', stored]

/-! ### FW_WRITE -/

section
variable {o : Nat} {l : List Byte} {s : State} (hal : o % 64 = 0) (hend : o + l.length ≤ 33554432) (ho : o < 33554432)
include hal hend ho

theorem fwWriteAns_of_trial (h : s.trust.slot0.state = .trial ∨ s.trust.slot1.state = .trial) : fwWriteAns o l s = refuse .notReady s := by
  unfold fwWriteAns
  dsimp only
  rw [if_neg (by simp; omega), if_pos (by simpa using h)]

theorem fwWriteAns_of_no_trial (h0 : s.trust.slot0.state ≠ .trial) (h1 : s.trust.slot1.state ≠ .trial) (hh : holdupOk s fwRecordBytes = true) :
    fwWriteAns o l s = okAns (setFw (inactiveSlot s) (writtenSlot o l (fwSlot s (inactiveSlot s))) s) := by
  unfold fwWriteAns
  dsimp only
  rw [if_neg (by simp; omega), if_neg (by simp [h0, h1]), if_neg (by simp [hh])]
  rfl

end

/-- An FW_WRITE that runs, whose answer brings no response, completes with that answer. -/
theorem fwWrite_completes {c : Ctx} {o : Nat} {l : List Byte} {s : State} {a : Ans} (h : fwWriteAns o l s = a) (hr : a.response = [])
    (hl : a.later = false) : Completes c 0x900 (.fwWrite c o l) a s := by
  subst h
  exact fun run => congrArg Host.Outcome.next (gmiRun_of_runs run (by rw [hr]; exact fits_zero c) hl)

/-- Settles O57: FW_WRITE writes the slot of `inactiveSlot`, and leaves in it what `writtenSlot` says. -/
theorem firmwareWritten : Obligations.FirmwareWritten := by
  unfold Obligations.FirmwareWritten
  intro c s o l hal hend ho
  refine ⟨fun h0 h1 hh => ⟨inactiveSlot s, setFw (inactiveSlot s) (writtenSlot o l (fwSlot s (inactiveSlot s))) s, ?_⟩,
    fun h => fwWrite_completes (fwWriteAns_of_trial hal hend ho h) rfl rfl⟩
  have hk := inactiveSlot_le_one s
  rw [fwSlot_setFw_self, fwSlot_setFw_other (j := 1 - inactiveSlot s) _ _ (by omega)]
  refine ⟨fwWrite_completes (fwWriteAns_of_no_trial hal hend ho h0 h1 hh) rfl rfl, hk, inactiveSlot_not_active, ?erased, ?kept,
    fun a => fwByte_writtenSlot _, rfl, setFw_frame ..⟩
  case erased =>
    rintro rfl
    exact ⟨rfl, rfl⟩
  case kept =>
    intro h
    simp [writtenSlot, preparedSlot, h]

end Sys2Proof.Machine

/-! PROOFS. What RAMP_CANCEL leaves of the schedule held and of the terms that move (R404). -/

namespace Sys2Proof.Machine

/-! ### A command whose answer brings no response -/

/-- A command that runs in the gate completes with its answer, where this comes at once and brings no response (R324). -/
theorem completes_of_no_response {c : Ctx} {opcode : Nat} {i : Instr} {body : State → Ans} {a : Ans} {s : State}
    (hi : exec i s = .next (gmiRun c opcode body s)) (h : body s = a) (hr : a.response = []) (hl : a.later = false) : Completes c opcode i a s := by
  subst h
  intro run
  rw [hi, gmiRun_of_runs run (by rw [hr]; exact fits_zero c) hl]

/-! ### A movement halted -/

/-- The module's RAMP term as RAMP_CANCEL leaves it: the permille of C where C moves at MOD_RATE, and else unchanged. -/
def heldModTerm (s : State) : Nat := if s.pow.moveRate > 0 then min 1000 (s.pow.ceil / 2600000) else s.pow.rampMod

/-- The state without a schedule, its terms at rest where they stood. -/
def rampHalted (s : State) : State :=
  { s with pow := { s.pow with
    sched := [], schedMoving := false, rampMod := heldModTerm s, moveRate := 0, rampAcc := accRampNow s, accRate := 0 } }

/-- The module's RAMP term stays where C does not move. -/
theorem heldModTerm_of_rest {s : State} (h : s.pow.moveRate = 0) : heldModTerm s = s.pow.rampMod :=
  if_neg h.le.not_gt

/-- The accelerators' RAMP term at rest is the one last set. -/
theorem accRampNow_of_rest {s : State} (h : s.pow.accRate = 0) : accRampNow s = s.pow.rampAcc := if_pos h

/-- The accelerators' RAMP term, halted, holds its present value. -/
theorem accRampNow_rampHalted (s : State) : accRampNow (rampHalted s) = accRampNow s := accRampNow_of_rest rfl

/-! ### RAMP_CANCEL -/

theorem rampCancelAns_of_held {k : Nat} {s : State} (held : s.pow.sched ≠ [] ∨ s.pow.schedMoving = true)
    (named : k = 0xFFFFFFFF ∨ k = s.pow.schedId) : rampCancelAns k s = okAns (rampHalted s) := by
  have some_held : (s.pow.sched.isEmpty && !s.pow.schedMoving) = false := by simpa [or_iff_not_imp_left] using held
  have not_other : ¬ (k ≠ 0xFFFFFFFF ∧ k ≠ s.pow.schedId) := by omega
  unfold rampCancelAns
  rw [some_held, Bool.false_or, if_neg (by simpa using not_other)]
  rfl

theorem rampCancelAns_of_not_held {k : Nat} {s : State}
    (h : (s.pow.sched = [] ∧ s.pow.schedMoving = false) ∨ (k ≠ 0xFFFFFFFF ∧ k ≠ s.pow.schedId)) : rampCancelAns k s = badArg 0 s :=
  if_pos (by simpa using h)

/-- Settles O53: where a schedule is held RAMP_CANCEL ends in `rampHalted`, and where none is it refuses. -/
theorem rampCancelled : Obligations.RampCancelled := by
  unfold Obligations.RampCancelled
  refine ⟨rfl, fun c s k => ⟨fun held named => ⟨rampHalted s, ?_⟩, fun absent => ?_⟩⟩
  · exact ⟨completes_of_no_response rfl (rampCancelAns_of_held held named) rfl rfl, rfl, rfl, rfl, rfl, rfl, accRampNow_rampHalted s,
      heldModTerm_of_rest, rfl⟩
  · exact completes_of_no_response rfl (rampCancelAns_of_not_held absent) rfl rfl

end Sys2Proof.Machine
